-- ==== Sys2Proof/Word.lean ====
section
/-! DEFINITION. The bit words of the TRL-9256 and the byte string that Baton carries. -/
namespace Sys2Proof

/-- One byte of a frame, of DRAM or of a binary format (R361, R82). -/
abbrev Byte := BitVec 8

/-- A 32-bit word: an X register, a Pacer instruction, a word of PM, XM or YM (R208). -/
abbrev Word := BitVec 32

/-- A 72-bit accumulator of a Pacer engine (R208). -/
abbrev Acc := BitVec 72

/-- A byte string, lowest address first (R361: every field is little-endian). -/
abbrev Bytes := List Byte

end Sys2Proof
end

