-- ==== Sys2Proof/Syntax.lean ====
section
/-! DEFINITION. The commands of the block: one constructor of `Instr` per row of
spec/opcode_table.json. A command is one indivisible step of 95_what_each_step_holds.md. Its operands
are what the outside (a host, a pin, another unit, the passing of time) supplies and the state does
not already hold (assumption log 4). Instance numbers are `Fin n` over the ranges of R6 and R22. -/
namespace Sys2Proof

/-- The header of a Baton request and the binding it came from (R361, R364), with the counter and
tag of a protected frame (R398; both unused in a session without authentication). -/
structure Req where
  port    : Fin 4
  v6      : Bool
  addr    : Nat
  udp     : Nat
  ver     : Byte
  session : BitVec 16
  seq     : BitVec 32
  ctr     : BitVec 64
  tag     : Nat
  deriving DecidableEq, Repr

/-- What the check of a DRAM burst finds (R199). -/
inductive Ecc where
  | clean
  | corrected
  | uncorrected
  deriving DecidableEq, Repr

/-- A cycle chain: that of a group's leader, or the private chain of a system channel (R24, R45). -/
inductive Chain where
  | group (g : Fin 16)
  | sys (k : Fin 8)
  deriving DecidableEq, Repr

/-- The four operand bytes of a sequencer instruction word below its opcode (R85, R106). -/
structure SeqWord where
  flags : BitVec 8
  a     : BitVec 16
  b     : BitVec 32
  deriving DecidableEq, Repr

/-- The bank whose rewriting MC_TS_RELOAD_LEFT counts (R176). -/
inductive TsBank where
  | periods (g : Fin 16)
  | channel (n : Fin 256)
  deriving DecidableEq, Repr

/-- A Relay lane block as it stands on the lane (R299): the sync header [124:123] and the scrambled payload [122:0], bit
124 sent first. -/
structure LaneBlock where
  bits : BitVec 125
  deriving DecidableEq, Repr

/-- A Relay frame: lane 0 and the three message lanes (R299). -/
structure RelayFrame where
  lane0 : LaneBlock
  lane1 : LaneBlock
  lane2 : LaneBlock
  lane3 : LaneBlock
  deriving DecidableEq, Repr

/-- A PTP event message as the port sees it (R286, R288): the domain instance that it reaches or leaves, its domainNumber
and transport (0 IEEE 802.3, 1 UDP/IPv4, 2 UDP/IPv6), its messageType (0 Sync, 1 Delay_Req, 2 Pdelay_Req, 3 Pdelay_Resp), whether it is the first of two steps, how far
into the running tick of that domain's counter, in 2^−32 ns, it crosses the balls, and the time it carries: the origin time of a one-step Sync,
the turnaround of a one-step Pdelay_Resp, the receipt time of the request in a two-step one. -/
structure PtpEvent where
  dom       : Fin 2
  number    : BitVec 8
  transport : Fin 3
  kind      : Fin 4
  twoStep   : Bool
  stamp     : Nat
  origin    : Nat
  deriving DecidableEq, Repr

/-- What an Announce message says (R286, IEEE 1588-2019): the 10 bytes of its sender's port identity, the grandmaster's
priorities, quality and identity, its distance in steps, and currentUtcOffset. -/
structure Announce where
  sender      : Bytes
  priority1   : BitVec 8
  clockClass  : BitVec 8
  accuracy    : BitVec 8
  variance    : BitVec 16
  priority2   : BitVec 8
  grandmaster : BitVec 64
  steps       : BitVec 16
  utc         : BitVec 16
  deriving DecidableEq, Repr

/-- What a PTP general message says (R286). -/
inductive PtpBody where
  | announce (a : Announce)
  | followUp (origin : Nat)
  | delayResp (received : Nat)
  | pdelayRespFollowUp (origin : Nat)
  | other
  deriving DecidableEq, Repr

/-- A PTP general message: its domainNumber, its transport and what it says (R286). -/
structure PtpGeneral where
  number    : BitVec 8
  transport : Fin 3
  body      : PtpBody
  deriving DecidableEq, Repr

/-- A frame on a port that is not a valid Baton request (R360, R363). -/
inductive NetFrame where
  | arp
  | neighbour
  | echo
  | malformed
  | fragment
  | otherUdp
  deriving DecidableEq, Repr

/-- The directions of the JESD204C links (R313). -/
inductive JesdDir where
  | tx
  | rx
  deriving DecidableEq, Repr

/-- One command of the block. -/
inductive Instr where
  -- Baton (17)
  | write (r : Req) (index : BitVec 16) (sub : BitVec 8) (p : Bytes)
  | read (r : Req) (index : BitVec 16) (sub : BitVec 8) (p : Bytes)
  | openSession (r : Req) (role : Byte) (rsv : BitVec 24) (cred : Bytes)
  | closeSession (r : Req) (p : Bytes)
  | readBlock (r : Req) (index : BitVec 16) (sub : BitVec 8) (offset : BitVec 64) (count rsv : BitVec 32) (ecc : Ecc)
  | writeBlock (r : Req) (index : BitVec 16) (sub : BitVec 8) (offset : BitVec 64) (total rsv : BitVec 32) (data : Bytes) (ecc : Ecc)
  | subscribe (r : Req) (index : BitVec 16) (sub : BitVec 8) (rsv : BitVec 24)
  | subscribeCancel (r : Req) (index : BitVec 16) (sub : BitVec 8) (rsv : BitVec 24)
  | notifyAck (r : Req)
  | notifyRetry (session : BitVec 16) (seq : BitVec 32)
  | changeSample (session : BitVec 16) (index : BitVec 16) (sub : BitVec 8)
  | sessionTimeout (session : BitVec 16)
  -- configuration writes with a row of their own (01, 02)
  | cgModeWrite (r : Req) (g : Fin 16) (p : Bytes)
  | cgGangWrite (r : Req) (g : Fin 16) (p : Bytes)
  | cgBasePeriodWrite (r : Req) (g : Fin 16) (fs : Bool) (p : Bytes)
  | chTermSelWrite (r : Req) (n : Fin 256) (p : Bytes)
  | sysTimingWrite (r : Req) (k : Fin 8) (sub : BitVec 8) (p : Bytes)
  | tsTableWrite (r : Req) (bank : TsBank) (p : Bytes)
  -- the cycle chain and the edges (02)
  | cycleStart (c : Chain)
  | edgeFire (ch : Fin 264)
  | deadTimeEnd (g : Fin 16)
  | comparatorTransition (n : Fin 256) (cl : Bool) (level : Bool) (t : Nat)
  -- capture and fails (03)
  | captureRingWrite (g : Fin 16)
  | capBaseWrite (r : Req) (g : Fin 16) (p : Bytes)
  | capLenWrite (r : Req) (g : Fin 16) (p : Bytes)
  | capRdWrite (r : Req) (g : Fin 16) (p : Bytes)
  | capRead (r : Req) (g : Fin 16)
  | captureSpillDrain (g : Fin 16)
  | spillRdWrite (r : Req) (g : Fin 16) (fail : Bool) (p : Bytes)
  | failPop (r : Req) (g : Fin 16)
  | failSpillDrain (g : Fin 16)
  -- sequencer instructions and their events (05)
  | run (k : Fin 16) (w : SeqWord)
  | loop (k : Fin 16) (w : SeqWord)
  | endl (k : Fin 16) (w : SeqWord)
  | call (k : Fin 16) (w : SeqWord)
  | ret (k : Fin 16) (w : SeqWord)
  | jump (k : Fin 16) (w : SeqWord)
  | jif (k : Fin 16) (w : SeqWord)
  | matchBlock (k : Fin 16) (w : SeqWord)
  | matchExitDecision (k : Fin 16)
  | waitt (k : Fin 16) (w : SeqWord)
  | waittExitDecision (k : Fin 16)
  | tsync (k : Fin 16) (w : SeqWord)
  | tsyncRelease (k : Fin 16)
  | mark (k : Fin 16) (w : SeqWord)
  | flag (k : Fin 16) (w : SeqWord)
  | setreg (k : Fin 16) (w : SeqWord)
  | tsload (k : Fin 16) (w : SeqWord)
  | tsloadCommit (k : Fin 16)
  | stop (k : Fin 16) (w : SeqWord)
  | halt (k : Fin 16) (w : SeqWord)
  | nop (k : Fin 16) (w : SeqWord)
  | seqHostEventWrite (r : Req) (k : Fin 16) (p : Bytes)
  | microTrap (k : Fin 16) (cause : Fin 7)
  | trapReturn (k : Fin 16)
  -- run control (06)
  | enable (r : Req) (g : Fin 16)
  | disable (r : Req) (g : Fin 16)
  | arm (r : Req) (g : Fin 16) (first : BitVec 32)
  | armComplete (g : Fin 16)
  | start (r : Req) (g : Fin 16)
  | disarm (r : Req) (g : Fin 16)
  | pause (r : Req) (g : Fin 16)
  | pauseTakesEffect (g : Fin 16)
  | resume (r : Req) (g : Fin 16)
  | hostHalt (r : Req) (g : Fin 16)
  | haltTakesEffect (g : Fin 16)
  | clear (r : Req) (g : Fin 16)
  | runGroupStart (r : Req) (p : Bytes)
  | firstCycleStart (g : Fin 16)
  | endOfRun (g : Fin 16)
  | underrunResume (g : Fin 16)
  | triginActivation (i : Fin 8) (edge : Nat)
  | triginDeactivation (i : Fin 8) (edge : Nat)
  | trigStuck (i : Fin 8) (edge : Nat)
  | toutPulse (r : Req) (j : Fin 8) (p : Bytes)
  | toutPulseEnd (j : Fin 8)
  | jtReq (r : Req) (k : Fin 16) (p : Bytes)
  | commitPoint (k : Fin 16)
  -- microcode patches (07)
  | patchVerify (r : Req)
  | patchVerifyComplete
  | patchApply (r : Req)
  | patchApplyComplete
  | patchDiscard (r : Req)
  | mcPatchStageWrite (r : Req) (p : Bytes)
  -- DRAM (08)
  | dramCommandIssue (u : Fin 8)
  | dramBurstComplete (port : Fin 6) (addr : Nat) (ecc : Ecc)
  | dp0Timeout (g : Fin 16)
  | refresh (u : Fin 8) (bank : Fin 4)
  | forcedRefresh (u : Fin 8) (bank : Fin 4)
  | trainingPause (u : Fin 8)
  | trainingPauseEnd (u : Fin 8) (passing last : Bool)
  | trainingDeferred (u : Fin 8)
  | dramSpeedReqWrite (r : Req) (p : Bytes)
  | speedChangeStart
  | speedChangeComplete (trained : Bool)
  | dramInitComplete
  | scrubPassComplete
  | dcReleaseTrainingDone (c : Fin 4) (trained : Bool)
  -- Pacer instructions (10): the engine and the bits below the class and operation code
  | pacerNop (e : Fin 16) (f : BitVec 24)
  | b (e : Fin 16) (f : BitVec 24)
  | pacerCall (e : Fin 16) (f : BitVec 24)
  | jr (e : Fin 16) (f : BitVec 24)
  | doRepeat (e : Fin 16) (f : BitVec 24)
  | reti (e : Fin 16) (f : BitVec 24)
  | tend (e : Fin 16) (f : BitVec 24)
  | srb (e : Fin 16) (f : BitVec 24)
  | ssc (e : Fin 16) (f : BitVec 24)
  | add (e : Fin 16) (f : BitVec 24)
  | sub (e : Fin 16) (f : BitVec 24)
  | and (e : Fin 16) (f : BitVec 24)
  | or (e : Fin 16) (f : BitVec 24)
  | xor (e : Fin 16) (f : BitVec 24)
  | mov (e : Fin 16) (f : BitVec 24)
  | not (e : Fin 16) (f : BitVec 24)
  | neg (e : Fin 16) (f : BitVec 24)
  | asr (e : Fin 16) (f : BitVec 24)
  | lsr (e : Fin 16) (f : BitVec 24)
  | lsl (e : Fin 16) (f : BitVec 24)
  | min (e : Fin 16) (f : BitVec 24)
  | max (e : Fin 16) (f : BitVec 24)
  | abs (e : Fin 16) (f : BitVec 24)
  | cmp (e : Fin 16) (f : BitVec 24)
  | addi (e : Fin 16) (f : BitVec 24)
  | subi (e : Fin 16) (f : BitVec 24)
  | andi (e : Fin 16) (f : BitVec 24)
  | ori (e : Fin 16) (f : BitVec 24)
  | xori (e : Fin 16) (f : BitVec 24)
  | movi (e : Fin 16) (f : BitVec 24)
  | movh (e : Fin 16) (f : BitVec 24)
  | cmpi (e : Fin 16) (f : BitVec 24)
  | asri (e : Fin 16) (f : BitVec 24)
  | lsri (e : Fin 16) (f : BitVec 24)
  | lsli (e : Fin 16) (f : BitVec 24)
  | clr (e : Fin 16) (f : BitVec 24)
  | adda (e : Fin 16) (f : BitVec 24)
  | suba (e : Fin 16) (f : BitVec 24)
  | nega (e : Fin 16) (f : BitVec 24)
  | mova (e : Fin 16) (f : BitVec 24)
  | smov (e : Fin 16) (f : BitVec 24)
  | xtoa (e : Fin 16) (f : BitVec 24)
  | rdp (e : Fin 16) (f : BitVec 24)
  | wrp (e : Fin 16) (f : BitVec 24)
  | expa (e : Fin 16) (f : BitVec 24)
  | expx (e : Fin 16) (f : BitVec 24)
  | norm (e : Fin 16) (f : BitVec 24)
  | norma (e : Fin 16) (f : BitVec 24)
  | ld (e : Fin 16) (bus : BitVec 2) (f : BitVec 24)
  | st (e : Fin 16) (bus : BitVec 2) (f : BitVec 24)
  | sts (e : Fin 16) (bus : BitVec 2) (f : BitVec 24)
  | lda (e : Fin 16) (bus : BitVec 2) (f : BitVec 24)
  | ldr (e : Fin 16) (f : BitVec 24)
  | addr (e : Fin 16) (f : BitVec 24)
  | mvxr (e : Fin 16) (f : BitVec 24)
  | mvrx (e : Fin 16) (f : BitVec 24)
  | mvs (e : Fin 16) (f : BitVec 24)
  | msv (e : Fin 16) (f : BitVec 24)
  | srchs (e : Fin 16) (f : BitVec 24)
  | maxi (e : Fin 16) (f : BitVec 24)
  | mini (e : Fin 16) (f : BitVec 24)
  | dualMac (e : Fin 16) (f : BitVec 30)
  | pushq (e : Fin 16) (f : BitVec 24)
  | dmago (e : Fin 16) (f : BitVec 24)
  | dmawt (e : Fin 16) (f : BitVec 24)
  | dmast (e : Fin 16) (f : BitVec 24)
  | dmaDescriptorEnd (e : Fin 16) (c : Fin 4)
  | interruptAccept (e : Fin 16)
  | taskEnd (e : Fin 16)
  | peEnable (r : Req) (e : Fin 16)
  | peDisable (r : Req) (e : Fin 16)
  | peClear (r : Req) (e : Fin 16)
  | peMemDataWrite (r : Req) (e : Fin 16) (p : Bytes)
  | peMemDataRead (r : Req) (e : Fin 16)
  -- Starter and queues (11)
  | taskPost (r : Req)
  | cancel (r : Req)
  | taskDisable (r : Req)
  | taskEnable (r : Req)
  | dispatch (e : Fin 20)
  | preemptionRequest (e : Fin 16)
  | failFwd (k : Fin 4)
  | hostNote (k : Fin 4)
  | starterTick
  | delayExpiry (task : BitVec 12)
  | periodExpiry (task : BitVec 12)
  | engLoadWindow
  | push (src : Fin 20)
  | qRead (r : Req) (delivered : Nat)
  | qClear (r : Req) (p : Bytes)
  | hitClear (r : Req) (sites : Bool) (p : Bytes)
  -- time unit (12)
  | timeTick (tref : Nat)
  | tdIncWrite (r : Req) (d : Fin 2) (ppb : Bool) (p : Bytes)
  | tdOffsetWrite (r : Req) (d : Fin 2) (fs : Bool) (p : Bytes)
  | tdSetWrite (r : Req) (d : Fin 2) (p : Bytes)
  | timeActiveSelWrite (r : Req) (p : Bytes)
  | timerFire (t : Fin 16)
  | timerMiss (t : Fin 16)
  | tmrWrite (r : Req) (t : Fin 16) (sub : BitVec 8) (p : Bytes)
  | ptpEventRx (port : Fin 4) (m : PtpEvent)
  | ptpEventTx (port : Fin 4) (m : PtpEvent)
  | announceReceiptTimeout (d : Fin 2)
  -- Relay ring (13)
  | relayTrain (r : Req)
  | relayTrainComplete (code : Fin 7) (position members : Nat) (hopFs offsetFs rtt count chOp : Nat)
  | relayDown (r : Req)
  | relayFrameSend
  | relayFrameReceive (f : RelayFrame)
  | relayFrameMissing
  | rlyStartSend (r : Req) (p : Bytes)
  | rlyEventSend (r : Req) (p : Bytes)
  | rlyJumpSend (r : Req) (p : Bytes)
  | relayStart
  | relayEvent
  | relayJump
  | relayFail
  | flagResult
  -- mixed-signal ports (14)
  | jtxEnWrite (r : Req) (p : Bytes)
  | jrxEnWrite (r : Req) (p : Bytes)
  | linkClockReady (d : JesdDir) (devclkHz : Nat)
  | sysrefEdge (edge on : Nat)
  | rxLaneLock
  | rxLinkLost
  | devclkLost
  | jtxArm (r : Req)
  | jtxArmComplete
  | jtxStart (r : Req)
  | jtxStop (r : Req)
  | sourceSample
  | jtxNcoFtwWrite (r : Req) (hz : Bool) (p : Bytes)
  | jrxStart (r : Req)
  | jrxStop (r : Req)
  | rxSample (vals : List (BitVec 16)) (crcErrs : Nat)
  -- calibration (15)
  | calSlot (slot : Fin 264) (found : List (Option (Int × Nat)))
  | tempReading (g : Fin 16) (reading : Int)
  | calMove (slot : Fin 264) (path : Fin 6)
  | calStall (n : Fin 256)
  | sysCalRecWrite (r : Req) (k : Fin 8) (p : Bytes)
  | sysCalRecRead (r : Req) (k : Fin 8)
  -- faults (16)
  | faultReport (fid : BitVec 9)
  | fltinActivation (i : Fin 4) (cycle : Nat)
  | reactionStart
  | reactionWindowClose
  | classCNotify
  | fltStickyClear (r : Req) (p : Bytes)
  | fltRelease (r : Req) (p : Bytes)
  -- security (19)
  | secKekWrite (r : Req) (k : Fin 4) (p : Bytes)
  | skLoad (r : Req) (slot : Fin 64) (p : Bytes)
  | skClear (r : Req) (slot : Fin 64) (p : Bytes)
  | secOfficerKeyWrite (r : Req) (k : Fin 4) (p : Bytes)
  | secOfficerRevoke (r : Req) (p : Bytes)
  | secAnchorRevoke (r : Req) (p : Bytes)
  | secMinLevelSet (r : Req) (p : Bytes)
  | secDiagLoad (r : Req) (p : Bytes)
  | secSelftest (r : Req) (p : Bytes) (failing : Nat)
  | zeroiseVolatile (r : Req)
  | zeroisePermanent (r : Req)
  | certModeEnter (r : Req)
  | certModeLeave (r : Req)
  | sealedTagVerify (g : Fin 16)
  -- power, clocks, reset and start-up (20)
  | porstN
  | sysrstN
  | resetCmd (r : Req) (p : Bytes)
  | startUpStepEnd (ok : Bool) (failing : Nat)
  | bootStageWrite (r : Req) (offset : BitVec 64) (total : BitVec 32) (data : Bytes)
  | bootCmd (r : Req) (p : Bytes)
  -- JTAG (21)
  | extest (cells : BitVec 1657)
  | samplePreload (cells : BitVec 1657)
  | idcode
  | extestPulse (cells : BitVec 1657)
  | extestTrain (cells : BitVec 1657)
  | startStat
  | bypass (code : BitVec 8)
  | tapReset
  -- rows added at the end of the table
  | verdictInstant (k : Fin 16)
  | faultConditionEnd (fid : BitVec 9)
  | ethLinkUp (port : Fin 4) (fec : Fin 3)
  | ethFrameRx (port : Fin 4) (f : NetFrame)
  | ptpGeneralRx (port : Fin 4) (d : Fin 2) (m : PtpGeneral)
  | mr4Poll (u : Fin 8) (doubled : Bool)
  | vqpsPresenceChange (uv : Nat)
  deriving DecidableEq, Repr

end Sys2Proof
end

