-- ==== Sys2Proof/Config.lean ====
section
/-! DEFINITION. What the spec leaves open, as constants without a body: nothing in Lean can
evaluate them, so a statement about them holds for every value (assumption log 2 and 3).
The first group are FREE VALUES, applied to the plain counter `State.free` or to the operands.
The second group stand for the standard algorithms that the spec names and does not define. -/
namespace Sys2Proof.Config

/-- A free natural number: the value the spec leaves open at the n-th such point. -/
opaque freeNat : Nat → Nat

/-- A free truth value, as `freeNat`. -/
opaque freeBool : Nat → Bool

/-- A free byte of an answer whose content the spec leaves open (class F objects, R387). -/
opaque freeByte : Nat → Byte

/-- Whether the NCO's cos at a phase P (R319) is rounded up from a value between two integers: the rounding is not stated. -/
opaque ncoCosUp : Nat → Bool

/-- Whether the NCO's sin at a phase is rounded up, as `ncoCosUp`. -/
opaque ncoSinUp : Nat → Bool

/-- clockAccuracy and offsetScaledLogVariance of an instance's own clock, in the low 24 bits: not stated (R286). -/
opaque clockQuality : Nat → Nat

/-- The clockIdentity of an instance's own clock: not stated (R286). -/
opaque clockIdentity : Nat → BitVec 64

/-- SHA-384 (R397, R408). -/
opaque sha384 : Bytes → Bytes

/-- ECDSA P-384 verification of a signature over the SHA-384 of a message (R180, R397, R423):
public key, message, signature. -/
opaque ecdsaVerify : Bytes → Bytes → Bytes → Bool

/-- Whether 97 bytes are an uncompressed SEC1 point on P-384 (R397). -/
opaque onCurve : Bytes → Bool

/-- The device's part of the answer to an authenticated OPEN, QD, ND and SIGD (R397, R399), drawn
from the DRBG state named by the second argument. -/
opaque handshakeAnswer : Bytes → Nat → Bytes

/-- The host-to-device key KH of a session (R398), from the credential and the DRBG state. -/
opaque sessionKeyH : Bytes → Nat → Bytes

/-- The device-to-host key KD of a session (R398). -/
opaque sessionKeyD : Bytes → Nat → Bytes

/-- The AES-256-GCM tag of a protected host-to-device frame (R398): key, CTR, header, plain payload. -/
opaque frameTag : Bytes → Nat → Bytes → Bytes → Nat

/-- The AES-256-GCM protected payload of a device-to-host frame (R398): key, CTR, header, plain. -/
opaque frameSeal : Bytes → Nat → Bytes → Bytes → Bytes

/-- The device identity public key derived from the device unique key (R400). -/
opaque devicePubKey : Nat → Bytes

/-- What SEC_DEV_PUBKEY reads as once the device unique key no longer exists (R411): not stated. -/
opaque keylessPubKey : Bytes

/-- Unwrapping of a KEK import blob with the device identity key (R401); none when it fails. -/
opaque kekUnwrap : Nat → Bytes → Option Bytes

/-- AES-KW unwrapping of a segment key under a KEK (R402); none when it fails. -/
opaque segKeyUnwrap : Bytes → Bytes → Option Bytes

/-- AES-256-GCM decryption of one byte of a sealed image (R404): key, IV, byte offset in the
encrypted region, ciphertext byte. -/
opaque gcmPlainByte : Bytes → Bytes → Nat → Byte → Byte

/-- Whether the TAG of a sealed image verifies (R404, R405): key, IV, additional data, ciphertext,
tag. -/
opaque gcmTagOk : Bytes → Bytes → Bytes → Bytes → Bytes → Bool

end Sys2Proof.Config
end

