-- ==== Sys2Proof/Machine/Objects.lean ====
section
/-! DEFINITION. The object dictionary as the tables of the owning chapters give it: the key of every
object, its type, access code, level, range and default (R371–R375, R386–R389 and the tables they
index). Instance `n` of a block stands at base + n (R388); the key is index × 256 + subindex. -/
namespace Sys2Proof.Machine

/-! ### Keys, one per object name (R394) -/
namespace K

/-- 0x2000.01 CG_MODE (R21). -/
def cgMode (n : Nat) : Nat := 0x200001 + 256 * n
/-- 0x2000.02 CG_GANG (R21). -/
def cgGang (n : Nat) : Nat := 0x200002 + 256 * n
/-- 0x2000.03 CG_SERVICE (R21). -/
def cgService (n : Nat) : Nat := 0x200003 + 256 * n
/-- 0x2000.04 CG_WARMUP_REQ (R21). -/
def cgWarmupReq (n : Nat) : Nat := 0x200004 + 256 * n
/-- 0x2000.05 CG_ACTIVE_CH (R21). -/
def cgActiveCh (n : Nat) : Nat := 0x200005 + 256 * n
/-- 0x3000.01 CG_BASE_PERIOD_FS (R48). -/
def cgBasePeriodFs (n : Nat) : Nat := 0x300001 + 256 * n
/-- 0x3000.02 CG_BASE_PERIOD (R48). -/
def cgBasePeriod (n : Nat) : Nat := 0x300002 + 256 * n
/-- 0x3000.03 CG_BASE_PERIOD_ACT (R48). -/
def cgBasePeriodAct (n : Nat) : Nat := 0x300003 + 256 * n
/-- 0x3000.04 CG_BASE_PENDING (R48). -/
def cgBasePending (n : Nat) : Nat := 0x300004 + 256 * n
/-- 0x3000.06 TS_PERIOD_FS (R48). -/
def tsPeriodFs (n : Nat) : Nat := 0x300006 + 256 * n
/-- 0x3000.07 TS_PERIOD (R48). -/
def tsPeriod (n : Nat) : Nat := 0x300007 + 256 * n
/-- 0x3000.08 TS_PERIOD_TABLE (R48). -/
def tsPeriodTable (n : Nat) : Nat := 0x300008 + 256 * n
/-- 0x3000.10 TS_CHECK (R48). -/
def tsCheck (n : Nat) : Nat := 0x300010 + 256 * n
/-- 0x3000.20 UWT0–UWT15 (R48). -/
def uwt (n i : Nat) : Nat := 0x300020 + 256 * n + i
/-- 0x3010.01 TS_PTR (R48). -/
def tsPtr : Nat := 0x301001
/-- 0x3100.01 TS_FORMAT (R48). -/
def tsFormat (n : Nat) : Nat := 0x310001 + 256 * n
/-- 0x3100.02 TS_EDGE (R48). -/
def tsEdge (n : Nat) : Nat := 0x310002 + 256 * n
/-- 0x3100.03 TS_TABLE (R48). -/
def tsTable (n : Nat) : Nat := 0x310003 + 256 * n
/-- 0x3100.10 TS_DE0_FS … TS_ST1_FS (R48). -/
def tsEdgeFs (n i : Nat) : Nat := 0x310010 + 256 * n + i
/-- 0x3100.20 CH_DESKEW_DRV (R48). -/
def chDeskewDrv (n : Nat) : Nat := 0x310020 + 256 * n
/-- 0x3100.21 CH_DESKEW_DRV_FS (R48). -/
def chDeskewDrvFs (n : Nat) : Nat := 0x310021 + 256 * n
/-- 0x3100.22 CH_DESKEW_CMP (R48). -/
def chDeskewCmp (n : Nat) : Nat := 0x310022 + 256 * n
/-- 0x3100.23 CH_DESKEW_CMP_FS (R48). -/
def chDeskewCmpFs (n : Nat) : Nat := 0x310023 + 256 * n
/-- 0x3100.24 CH_TERM_SEL (R48). -/
def chTermSel (n : Nat) : Nat := 0x310024 + 256 * n
/-- 0x3100.30 CH_GUARD_CANCELS (R48). -/
def chGuardCancels (n : Nat) : Nat := 0x310030 + 256 * n
/-- 0x3100.31 CH_EDGE_DROPS (R48). -/
def chEdgeDrops (n : Nat) : Nat := 0x310031 + 256 * n
/-- 0x3200.01 SYS_MODE (R48). -/
def sysMode (n : Nat) : Nat := 0x320001 + 256 * n
/-- 0x3200.02 SYS_PERIOD_FS (R48). -/
def sysPeriodFs (n : Nat) : Nat := 0x320002 + 256 * n
/-- 0x3200.03 SYS_PERIOD (R48). -/
def sysPeriod (n : Nat) : Nat := 0x320003 + 256 * n
/-- 0x3200.04 SYS_FORMAT (R48). -/
def sysFormat (n : Nat) : Nat := 0x320004 + 256 * n
/-- 0x3200.05 SYS_DE0_FS (R48). -/
def sysDe0Fs (n : Nat) : Nat := 0x320005 + 256 * n
/-- 0x3200.06 SYS_DE1_FS (R48). -/
def sysDe1Fs (n : Nat) : Nat := 0x320006 + 256 * n
/-- 0x3200.07 SYS_EDGE (R48). -/
def sysEdge (n : Nat) : Nat := 0x320007 + 256 * n
/-- 0x3200.08 SYS_ALIGN_GROUP (R48). -/
def sysAlignGroup (n : Nat) : Nat := 0x320008 + 256 * n
/-- 0x3200.09 SYS_DESKEW (R48). -/
def sysDeskew (n : Nat) : Nat := 0x320009 + 256 * n
/-- 0x4000.01 FAIL_DEPTH (R80). -/
def failDepth (n : Nat) : Nat := 0x400001 + 256 * n
/-- 0x4000.02 FAIL_POP (R80). -/
def failPop (n : Nat) : Nat := 0x400002 + 256 * n
/-- 0x4000.03 FAIL_FIRST (R80). -/
def failFirst (n : Nat) : Nat := 0x400003 + 256 * n
/-- 0x4000.04 FAIL_LOST (R80). -/
def failLost (n : Nat) : Nat := 0x400004 + 256 * n
/-- 0x4000.05 FAIL_LEVEL (R80). -/
def failLevel (n : Nat) : Nat := 0x400005 + 256 * n
/-- 0x4000.06 FAIL_TASK (R80). -/
def failTask (n : Nat) : Nat := 0x400006 + 256 * n
/-- 0x4000.08 FAIL_SPILL_BASE (R80). -/
def failSpillBase (n : Nat) : Nat := 0x400008 + 256 * n
/-- 0x4000.09 FAIL_SPILL_SIZE (R80). -/
def failSpillSize (n : Nat) : Nat := 0x400009 + 256 * n
/-- 0x4000.0A FAIL_SPILL_WR (R80). -/
def failSpillWr (n : Nat) : Nat := 0x40000A + 256 * n
/-- 0x4000.0B FAIL_SPILL_RD (R80). -/
def failSpillRd (n : Nat) : Nat := 0x40000B + 256 * n
/-- 0x4000.10 CAP_MODE (R80). -/
def capMode (n : Nat) : Nat := 0x400010 + 256 * n
/-- 0x4000.11 CAP_BASE (R80). -/
def capBase (n : Nat) : Nat := 0x400011 + 256 * n
/-- 0x4000.12 CAP_LEN (R80). -/
def capLen (n : Nat) : Nat := 0x400012 + 256 * n
/-- 0x4000.13 CAP_LEN_WR_ACT (R80). -/
def capLenWrAct (n : Nat) : Nat := 0x400013 + 256 * n
/-- 0x4000.14 RING_PENDING (R80). -/
def ringPending (n : Nat) : Nat := 0x400014 + 256 * n
/-- 0x4000.15 CAP_WR (R80). -/
def capWr (n : Nat) : Nat := 0x400015 + 256 * n
/-- 0x4000.16 CAP_RD (R80). -/
def capRd (n : Nat) : Nat := 0x400016 + 256 * n
/-- 0x4000.17 CAP_FILL (R80). -/
def capFill (n : Nat) : Nat := 0x400017 + 256 * n
/-- 0x4000.18 CAP_LOST (R80). -/
def capLost (n : Nat) : Nat := 0x400018 + 256 * n
/-- 0x4000.19 CAP_OVERRUNS (R80). -/
def capOverruns (n : Nat) : Nat := 0x400019 + 256 * n
/-- 0x4000.1A CAP_LEVEL (R80). -/
def capLevel (n : Nat) : Nat := 0x40001A + 256 * n
/-- 0x4000.1B CAP_TASK (R80). -/
def capTask (n : Nat) : Nat := 0x40001B + 256 * n
/-- 0x4000.1C CAP_READ (R80). -/
def capRead (n : Nat) : Nat := 0x40001C + 256 * n
/-- 0x4000.1D CAP_LEN_RD_ACT (R80). -/
def capLenRdAct (n : Nat) : Nat := 0x40001D + 256 * n
/-- 0x4000.20 CAP_SPILL_BASE (R80). -/
def capSpillBase (n : Nat) : Nat := 0x400020 + 256 * n
/-- 0x4000.21 CAP_SPILL_SIZE (R80). -/
def capSpillSize (n : Nat) : Nat := 0x400021 + 256 * n
/-- 0x4000.22 CAP_SPILL_WR (R80). -/
def capSpillWr (n : Nat) : Nat := 0x400022 + 256 * n
/-- 0x4000.23 CAP_SPILL_RD (R80). -/
def capSpillRd (n : Nat) : Nat := 0x400023 + 256 * n
/-- 0x4100.01 CH_SITE (R80). -/
def chSite (n : Nat) : Nat := 0x410001 + 256 * n
/-- 0x4100.02 CH_CMP_MODE (R80). -/
def chCmpMode (n : Nat) : Nat := 0x410002 + 256 * n
/-- 0x4100.03 CH_CMP_INV (R80). -/
def chCmpInv (n : Nat) : Nat := 0x410003 + 256 * n
/-- 0x4100.04 CH_TDC_MODE (R80). -/
def chTdcMode (n : Nat) : Nat := 0x410004 + 256 * n
/-- 0x4100.05 CH_FAILS (R80). -/
def chFails (n : Nat) : Nat := 0x410005 + 256 * n
/-- 0x4100.06 CH_WINDOW_ERRS (R80). -/
def chWindowErrs (n : Nat) : Nat := 0x410006 + 256 * n
/-- 0x4200.01 SITE_ENABLE (R80). -/
def siteEnable (n : Nat) : Nat := 0x420001 + 256 * n
/-- 0x4200.02 SITE_STATE (R80). -/
def siteState (n : Nat) : Nat := 0x420002 + 256 * n
/-- 0x4200.10 SITE_FAILS_G0 … SITE_FAILS_G15 (R80). -/
def siteFails (n i : Nat) : Nat := 0x420010 + 256 * n + i
/-- 0x2000.10 SEG_ERR (R99). -/
def segErr (n : Nat) : Nat := 0x200010 + 256 * n
/-- 0x2000.11 SEG_ERR_ADDR (R99). -/
def segErrAddr (n : Nat) : Nat := 0x200011 + 256 * n
/-- 0x2000.12 SEG_ERR_GRAN (R99). -/
def segErrGran (n : Nat) : Nat := 0x200012 + 256 * n
/-- 0x2000.13 SEG_ERR_OFF (R99). -/
def segErrOff (n : Nat) : Nat := 0x200013 + 256 * n
/-- 0x2040.01 SEQ_PC (R135). -/
def seqPc (n : Nat) : Nat := 0x204001 + 256 * n
/-- 0x2040.02 SEQ_SEG (R135). -/
def seqSeg (n : Nat) : Nat := 0x204002 + 256 * n
/-- 0x2040.03 SEQ_VEC (R135). -/
def seqVec (n : Nat) : Nat := 0x204003 + 256 * n
/-- 0x2040.04 SEQ_LOOP_DEPTH (R135). -/
def seqLoopDepth (n : Nat) : Nat := 0x204004 + 256 * n
/-- 0x2040.05 SEQ_CALL_DEPTH (R135). -/
def seqCallDepth (n : Nat) : Nat := 0x204005 + 256 * n
/-- 0x2040.06 SEQ_FLAGS (R135). -/
def seqFlags (n : Nat) : Nat := 0x204006 + 256 * n
/-- 0x2040.10 GR0–GR15 (R135). -/
def gr (n i : Nat) : Nat := 0x204010 + 256 * n + i
/-- 0x2040.20 SM0–SM3 (R135). -/
def sm (n i : Nat) : Nat := 0x204020 + 256 * n + i
/-- 0x2040.30 SEQ_ERR (R135). -/
def seqErr (n : Nat) : Nat := 0x204030 + 256 * n
/-- 0x2040.31 SEQ_ERR_PC (R135). -/
def seqErrPc (n : Nat) : Nat := 0x204031 + 256 * n
/-- 0x2040.32 SEQ_ERR_SEG (R135). -/
def seqErrSeg (n : Nat) : Nat := 0x204032 + 256 * n
/-- 0x2040.33 SEQ_GAP_CYCLES (R135). -/
def seqGapCycles (n : Nat) : Nat := 0x204033 + 256 * n
/-- 0x2040.34 SEQ_GAPS (R135). -/
def seqGaps (n : Nat) : Nat := 0x204034 + 256 * n
/-- 0x2040.35 SEQ_HOLD_CYCLES (R135). -/
def seqHoldCycles (n : Nat) : Nat := 0x204035 + 256 * n
/-- 0x2040.36 SEQ_MATCH_REPS (R135). -/
def seqMatchReps (n : Nat) : Nat := 0x204036 + 256 * n
/-- 0x2040.37 SEQ_MATCH_PASS (R135). -/
def seqMatchPass (n : Nat) : Nat := 0x204037 + 256 * n
/-- 0x2040.38 SEQ_HOST_EVENT (R135). -/
def seqHostEvent (n : Nat) : Nat := 0x204038 + 256 * n
/-- 0x2040.39 SEQ_HALT_CODE (R135). -/
def seqHaltCode (n : Nat) : Nat := 0x204039 + 256 * n
/-- 0x2000.20 RUN_STATE (R163). -/
def runState (n : Nat) : Nat := 0x200020 + 256 * n
/-- 0x2000.21 RUN_CMD (R163). -/
def runCmd (n : Nat) : Nat := 0x200021 + 256 * n
/-- 0x2000.22 RUN_ARM_BUSY (R163). -/
def runArmBusy (n : Nat) : Nat := 0x200022 + 256 * n
/-- 0x2000.23 RUN_ARM_FAIL (R163). -/
def runArmFail (n : Nat) : Nat := 0x200023 + 256 * n
/-- 0x2000.24 RUN_HALT_REASON (R163). -/
def runHaltReason (n : Nat) : Nat := 0x200024 + 256 * n
/-- 0x2000.25 RUN_START_SRC (R163). -/
def runStartSrc (n : Nat) : Nat := 0x200025 + 256 * n
/-- 0x2000.26 RUN_START_DELAY (R163). -/
def runStartDelay (n : Nat) : Nat := 0x200026 + 256 * n
/-- 0x2000.27 RUN_START_DELAY_FS (R163). -/
def runStartDelayFs (n : Nat) : Nat := 0x200027 + 256 * n
/-- 0x2000.28 RUN_START_TIME (R163). -/
def runStartTime (n : Nat) : Nat := 0x200028 + 256 * n
/-- 0x2000.29 RUN_START_LATE (R163). -/
def runStartLate (n : Nat) : Nat := 0x200029 + 256 * n
/-- 0x2000.2A PAUSE_ON_UNDERRUN (R163). -/
def pauseOnUnderrun (n : Nat) : Nat := 0x20002A + 256 * n
/-- 0x2000.2B RUN_UNDERRUNS (R163). -/
def runUnderruns (n : Nat) : Nat := 0x20002B + 256 * n
/-- 0x2000.2C RUN_PAUSE_CYCLES (R163). -/
def runPauseCycles (n : Nat) : Nat := 0x20002C + 256 * n
/-- 0x2000.2D RUN_SEGTRIG_TIME (R163). -/
def runSegtrigTime (n : Nat) : Nat := 0x20002D + 256 * n
/-- 0x2000.2E RUN_SEGTRIG_COUNT (R163). -/
def runSegtrigCount (n : Nat) : Nat := 0x20002E + 256 * n
/-- 0x2000.2F RUN_HALT_VEC (R163). -/
def runHaltVec (n : Nat) : Nat := 0x20002F + 256 * n
/-- 0x2060.01 JT_ENTRY0 … JT_ENTRY15 (R163). -/
def jtEntry (n i : Nat) : Nat := 0x206001 + 256 * n + i
/-- 0x2060.11 JT_ENABLE (R163). -/
def jtEnable (n : Nat) : Nat := 0x206011 + 256 * n
/-- 0x2060.12 JT_TRIG_MAP (R163). -/
def jtTrigMap (n : Nat) : Nat := 0x206012 + 256 * n
/-- 0x2060.13 JT_REQ (R163). -/
def jtReq (n : Nat) : Nat := 0x206013 + 256 * n
/-- 0x2060.14 JT_PENDING (R163). -/
def jtPending (n : Nat) : Nat := 0x206014 + 256 * n
/-- 0x2060.15 JT_TAKEN (R163). -/
def jtTaken (n : Nat) : Nat := 0x206015 + 256 * n
/-- 0x2060.16 JT_REPLACED (R163). -/
def jtReplaced (n : Nat) : Nat := 0x206016 + 256 * n
/-- 0x2060.17 JT_DISCARDED (R163). -/
def jtDiscarded (n : Nat) : Nat := 0x206017 + 256 * n
/-- 0x2060.18 JT_LAST (R163). -/
def jtLast (n : Nat) : Nat := 0x206018 + 256 * n
/-- 0x2080.01 TRIG_POL (R163). -/
def trigPol (n : Nat) : Nat := 0x208001 + 256 * n
/-- 0x2080.02 TRIG_TYPE (R163). -/
def trigType (n : Nat) : Nat := 0x208002 + 256 * n
/-- 0x2080.03 TRIG_LEVEL (R163). -/
def trigLevel (n : Nat) : Nat := 0x208003 + 256 * n
/-- 0x2080.04 TRIG_FIRES (R163). -/
def trigFires (n : Nat) : Nat := 0x208004 + 256 * n
/-- 0x2080.05 TRIG_OVERRUNS (R163). -/
def trigOverruns (n : Nat) : Nat := 0x208005 + 256 * n
/-- 0x2080.06 TRIG_STUCK_US (R163). -/
def trigStuckUs (n : Nat) : Nat := 0x208006 + 256 * n
/-- 0x2080.07 TRIG_STUCK (R163). -/
def trigStuck (n : Nat) : Nat := 0x208007 + 256 * n
/-- 0x2090.01 TOUT_SRC (R163). -/
def toutSrc (n : Nat) : Nat := 0x209001 + 256 * n
/-- 0x2090.02 TOUT_GROUPS (R163). -/
def toutGroups (n : Nat) : Nat := 0x209002 + 256 * n
/-- 0x2090.03 TOUT_POL (R163). -/
def toutPol (n : Nat) : Nat := 0x209003 + 256 * n
/-- 0x2090.04 TOUT_WIDTH (R163). -/
def toutWidth (n : Nat) : Nat := 0x209004 + 256 * n
/-- 0x2090.05 TOUT_DELAY (R163). -/
def toutDelay (n : Nat) : Nat := 0x209005 + 256 * n
/-- 0x2090.06 TOUT_PULSE (R163). -/
def toutPulse (n : Nat) : Nat := 0x209006 + 256 * n
/-- 0x2090.07 TOUT_COUNT (R163). -/
def toutCount (n : Nat) : Nat := 0x209007 + 256 * n
/-- 0x20A0.01 RUN_GROUP_START (R163). -/
def runGroupStart : Nat := 0x20A001
/-- 0x2040.40 MC_ABANDON (R184). -/
def mcAbandon (n : Nat) : Nat := 0x204040 + 256 * n
/-- 0x2040.41 MC_ABANDON_TOTAL (R184). -/
def mcAbandonTotal (n : Nat) : Nat := 0x204041 + 256 * n
/-- 0x2040.42 MC_TS_LOCK (R184). -/
def mcTsLock (n : Nat) : Nat := 0x204042 + 256 * n
/-- 0x2040.43 MC_TS_RELOAD_LEFT (R184). -/
def mcTsReloadLeft (n : Nat) : Nat := 0x204043 + 256 * n
/-- 0x2040.44 MC_ROUTINE (R184). -/
def mcRoutine (n : Nat) : Nat := 0x204044 + 256 * n
/-- 0x2040.45 MC_TRAPS (R184). -/
def mcTraps (n : Nat) : Nat := 0x204045 + 256 * n
/-- 0x2040.46 MC_TRAP_FRAME (R184). -/
def mcTrapFrame (n : Nat) : Nat := 0x204046 + 256 * n
/-- 0x20B0.01 MCODE_VERSION (R184). -/
def mcodeVersion : Nat := 0x20B001
/-- 0x20B0.02 MC_PATCH_STAGE (R184). -/
def mcPatchStage : Nat := 0x20B002
/-- 0x20B0.03 MC_PATCH_CMD (R184). -/
def mcPatchCmd : Nat := 0x20B003
/-- 0x20B0.04 MC_PATCH_STATUS (R184). -/
def mcPatchStatus : Nat := 0x20B004
/-- 0x20B0.05 MC_IMAGE_CRC (R184). -/
def mcImageCrc : Nat := 0x20B005
/-- 0x20B0.06 MC_MIN_LEVEL (R184). -/
def mcMinLevel : Nat := 0x20B006
/-- 0x7000.01 DRAM_SPEED (R207). -/
def dramSpeed : Nat := 0x700001
/-- 0x7000.02 DRAM_SPEED_REQ (R207). -/
def dramSpeedReq : Nat := 0x700002
/-- 0x7000.03 DRAM_SPEED_STATUS (R207). -/
def dramSpeedStatus : Nat := 0x700003
/-- 0x7000.04 DRAM_DENSITY (R207). -/
def dramDensity : Nat := 0x700004
/-- 0x7000.05 DRAM_MAP (R207). -/
def dramMap : Nat := 0x700005
/-- 0x7000.06 DRAM_MAP_EPOCH (R207). -/
def dramMapEpoch : Nat := 0x700006
/-- 0x7000.07 DRAM_MAPPED_BYTES (R207). -/
def dramMappedBytes : Nat := 0x700007
/-- 0x7000.08 DRAM_READY (R207). -/
def dramReady : Nat := 0x700008
/-- 0x7000.10 TRAIN_INTERVAL_MS (R207). -/
def trainIntervalMs : Nat := 0x700010
/-- 0x7000.11 TRAIN_MIN_LEAD_NS (R207). -/
def trainMinLeadNs : Nat := 0x700011
/-- 0x7000.12 TRAIN_DEFERRED (R207). -/
def trainDeferred : Nat := 0x700012
/-- 0x7000.13 TRAIN_DISCARDED (R207). -/
def trainDiscarded : Nat := 0x700013
/-- 0x7000.14 TRAIN_LAST_TIME (R207). -/
def trainLastTime : Nat := 0x700014
/-- 0x7000.18 SCRUB_HOURS (R207). -/
def scrubHours : Nat := 0x700018
/-- 0x7000.19 SCRUB_PASSES (R207). -/
def scrubPasses : Nat := 0x700019
/-- 0x7010.01 DC_STATE (R207). -/
def dcState (n : Nat) : Nat := 0x701001 + 256 * n
/-- 0x7010.02 DC_ECC_CORR (R207). -/
def dcEccCorr (n : Nat) : Nat := 0x701002 + 256 * n
/-- 0x7010.03 DC_ECC_UNCORR (R207). -/
def dcEccUncorr (n : Nat) : Nat := 0x701003 + 256 * n
/-- 0x7010.04 DC_ECC_LAST_ADDR (R207). -/
def dcEccLastAddr (n : Nat) : Nat := 0x701004 + 256 * n
/-- 0x7010.05 DC_REF_POSTPONED_MAX (R207). -/
def dcRefPostponedMax (n : Nat) : Nat := 0x701005 + 256 * n
/-- 0x7010.06 DC_REF_FORCED (R207). -/
def dcRefForced (n : Nat) : Nat := 0x701006 + 256 * n
/-- 0x7010.07 DC_TEMP_HIGH (R207). -/
def dcTempHigh (n : Nat) : Nat := 0x701007 + 256 * n
/-- 0x7020.01 DP_BYTES (R207). -/
def dpBytes (n : Nat) : Nat := 0x702001 + 256 * n
/-- 0x7020.02 DP_WAIT_MAX_NS (R207). -/
def dpWaitMaxNs (n : Nat) : Nat := 0x702002 + 256 * n
/-- 0x7040.01 RF_LEAD_NS (R207). -/
def rfLeadNs (n : Nat) : Nat := 0x704001 + 256 * n
/-- 0x7040.02 RF_LEAD_MIN_NS (R207). -/
def rfLeadMinNs (n : Nat) : Nat := 0x704002 + 256 * n
/-- 0x7040.03 RF_TARGET_NS (R207). -/
def rfTargetNs (n : Nat) : Nat := 0x704003 + 256 * n
/-- 0x7040.04 RF_URGENT_NS (R207). -/
def rfUrgentNs (n : Nat) : Nat := 0x704004 + 256 * n
/-- 0x7040.05 RF_LEAD_RESUME_NS (R207). -/
def rfLeadResumeNs (n : Nat) : Nat := 0x704005 + 256 * n
/-- 0x7040.06 RF_BLOCKS_FREE (R207). -/
def rfBlocksFree (n : Nat) : Nat := 0x704006 + 256 * n
/-- 0x7040.07 RF_REPLAY_PASSES (R207). -/
def rfReplayPasses (n : Nat) : Nat := 0x704007 + 256 * n
/-- 0x7040.08 RF_RESTREAM_PASSES (R207). -/
def rfRestreamPasses (n : Nat) : Nat := 0x704008 + 256 * n
/-- 0x5000.01 PE_STATE (R238). -/
def peState (n : Nat) : Nat := 0x500001 + 256 * n
/-- 0x5000.02 PE_CMD (R238). -/
def peCmd (n : Nat) : Nat := 0x500002 + 256 * n
/-- 0x5000.03 PE_ERR (R238). -/
def peErr (n : Nat) : Nat := 0x500003 + 256 * n
/-- 0x5000.04 PE_ERR_PC (R238). -/
def peErrPc (n : Nat) : Nat := 0x500004 + 256 * n
/-- 0x5000.05 PE_CYCLES (R238). -/
def peCycles (n : Nat) : Nat := 0x500005 + 256 * n
/-- 0x5000.06 PE_MEM_ADDR (R238). -/
def peMemAddr (n : Nat) : Nat := 0x500006 + 256 * n
/-- 0x5000.07 PE_MEM_DATA (R238). -/
def peMemData (n : Nat) : Nat := 0x500007 + 256 * n
/-- 0x5000.08 PE_REGS (R238). -/
def peRegs (n : Nat) : Nat := 0x500008 + 256 * n
/-- 0x5000.09 PE_ENABLE_AT_BOOT (R238). -/
def peEnableAtBoot (n : Nat) : Nat := 0x500009 + 256 * n
/-- 0x6000.01 TCB_PTR (R270). -/
def tcbPtr : Nat := 0x600001
/-- 0x6000.02 ST_TICK_NS (R270). -/
def stTickNs : Nat := 0x600002
/-- 0x6000.03 ST_DISPATCHES (R270). -/
def stDispatches : Nat := 0x600003
/-- 0x6000.04 ST_PREEMPT_REQS (R270). -/
def stPreemptReqs : Nat := 0x600004
/-- 0x6000.05 ST_YIELDS (R270). -/
def stYields : Nat := 0x600005
/-- 0x6000.06 ST_DELAYED (R270). -/
def stDelayed : Nat := 0x600006
/-- 0x6000.07 ST_NOTE (R270). -/
def stNote : Nat := 0x600007
/-- 0x6000.20 ST_READY_DEPTH0 … 31 (R270). -/
def stReadyDepth (i : Nat) : Nat := 0x600020 + i
/-- 0x6001.01 TCB_STATE (R270). -/
def tcbState : Nat := 0x600101
/-- 0x6001.02 TCB_CMD (R270). -/
def tcbCmd : Nat := 0x600102
/-- 0x6001.03 TCB_PRI (R270). -/
def tcbPri : Nat := 0x600103
/-- 0x6001.04 TCB_MASK (R270). -/
def tcbMask : Nat := 0x600104
/-- 0x6001.05 TCB_SERVICE (R270). -/
def tcbService : Nat := 0x600105
/-- 0x6001.06 TCB_ARG (R270). -/
def tcbArg : Nat := 0x600106
/-- 0x6001.07 TCB_DELAY (R270). -/
def tcbDelay : Nat := 0x600107
/-- 0x6001.08 TCB_PERIOD (R270). -/
def tcbPeriod : Nat := 0x600108
/-- 0x6001.09 TCB_NEXT (R270). -/
def tcbNext : Nat := 0x600109
/-- 0x6001.0A TCB_FLAGS (R270). -/
def tcbFlags : Nat := 0x60010A
/-- 0x6001.0B TCB_LAST (R270). -/
def tcbLast : Nat := 0x60010B
/-- 0x6001.0C TCB_ENGINE (R270). -/
def tcbEngine : Nat := 0x60010C
/-- 0x6001.0D TCB_RUNS (R270). -/
def tcbRuns : Nat := 0x60010D
/-- 0x6001.0E TCB_COALESCED (R270). -/
def tcbCoalesced : Nat := 0x60010E
/-- 0x6001.0F TCB_WAIT_LAST_NS (R270). -/
def tcbWaitLastNs : Nat := 0x60010F
/-- 0x6001.10 TCB_WAIT_MAX_NS (R270). -/
def tcbWaitMaxNs : Nat := 0x600110
/-- 0x6010.01 ENG_TASK (R270). -/
def engTask (n : Nat) : Nat := 0x601001 + 256 * n
/-- 0x6010.02 ENG_LOAD (R270). -/
def engLoad (n : Nat) : Nat := 0x601002 + 256 * n
/-- 0x6010.03 ENG_DISPATCHES (R270). -/
def engDispatches (n : Nat) : Nat := 0x601003 + 256 * n
/-- 0x6010.04 ENG_PREEMPT_PENDING (R270). -/
def engPreemptPending (n : Nat) : Nat := 0x601004 + 256 * n
/-- 0x6040.01 Q_PTR (R280). -/
def qPtr : Nat := 0x604001
/-- 0x6040.02 RQ_READ_MAX (R280). -/
def rqReadMax : Nat := 0x604002
/-- 0x6040.03 RQ_STREAMS (R280). -/
def rqStreams : Nat := 0x604003
/-- 0x6040.04 RQ_SPILL_BASE (R280). -/
def rqSpillBase : Nat := 0x604004
/-- 0x6040.05 RQ_SPILL_SIZE (R280). -/
def rqSpillSize : Nat := 0x604005
/-- 0x6040.06 RQ_CACHE_FREE (R280). -/
def rqCacheFree : Nat := 0x604006
/-- 0x6040.07 RQ_SPILL_FREE (R280). -/
def rqSpillFree : Nat := 0x604007
/-- 0x6040.08 RQ_ITEMS (R280). -/
def rqItems : Nat := 0x604008
/-- 0x6040.09 RQ_DROPPED_TOTAL (R280). -/
def rqDroppedTotal : Nat := 0x604009
/-- 0x6040.0A RQ_LOST_TOTAL (R280). -/
def rqLostTotal : Nat := 0x60400A
/-- 0x6040.0B RQ_BAD_PUSH (R280). -/
def rqBadPush : Nat := 0x60400B
/-- 0x6040.0C RQ_FENCE_DISCARDS (R280). -/
def rqFenceDiscards : Nat := 0x60400C
/-- 0x6040.0D RQ_HIT_SITES (R280). -/
def rqHitSites : Nat := 0x60400D
/-- 0x6040.0E RQ_INT_ENABLE (R280). -/
def rqIntEnable : Nat := 0x60400E
/-- 0x6041.01 Q_DEPTH (R280). -/
def qDepth : Nat := 0x604101
/-- 0x6041.02 Q_LEVEL (R280). -/
def qLevel : Nat := 0x604102
/-- 0x6041.03 Q_READ (R280). -/
def qRead : Nat := 0x604103
/-- 0x6041.04 Q_CLEAR (R280). -/
def qClear : Nat := 0x604104
/-- 0x6041.05 Q_DROPPED (R280). -/
def qDropped : Nat := 0x604105
/-- 0x6041.06 Q_LOST (R280). -/
def qLost : Nat := 0x604106
/-- 0x6041.07 Q_HIT_MAP (R280). -/
def qHitMap : Nat := 0x604107
/-- 0x8000.01 TIME_ACTIVE_SEL (R296). -/
def timeActiveSel : Nat := 0x800001
/-- 0x8000.02 TIME_SLEW_PPM (R296). -/
def timeSlewPpm : Nat := 0x800002
/-- 0x8000.03 TIME_NOW (R296). -/
def timeNow : Nat := 0x800003
/-- 0x8000.04 TIME_HELD (R296). -/
def timeHeld : Nat := 0x800004
/-- 0x8000.05 TIME_HELD_FS (R296). -/
def timeHeldFs : Nat := 0x800005
/-- 0x8000.06 TIME_HOLDOVER (R296). -/
def timeHoldover : Nat := 0x800006
/-- 0x8000.07 TIME_SWITCHES (R296). -/
def timeSwitches : Nat := 0x800007
/-- 0x8000.08 TIME_STEPS (R296). -/
def timeSteps : Nat := 0x800008
/-- 0x8000.09 TIME_TREF_COUNT (R296). -/
def timeTrefCount : Nat := 0x800009
/-- 0x8000.0A TIME_TREF_RATIO (R296). -/
def timeTrefRatio : Nat := 0x80000A
/-- 0x8000.0B TIME_SNAPSHOT (R296). -/
def timeSnapshot : Nat := 0x80000B
/-- 0x8010.01 TD_ENABLE (R296). -/
def tdEnable (n : Nat) : Nat := 0x801001 + 256 * n
/-- 0x8010.02 TD_STATE (R296). -/
def tdState (n : Nat) : Nat := 0x801002 + 256 * n
/-- 0x8010.03 TD_TIME (R296). -/
def tdTime (n : Nat) : Nat := 0x801003 + 256 * n
/-- 0x8010.04 TD_INC (R296). -/
def tdInc (n : Nat) : Nat := 0x801004 + 256 * n
/-- 0x8010.05 TD_INC_PPB (R296). -/
def tdIncPpb (n : Nat) : Nat := 0x801005 + 256 * n
/-- 0x8010.06 TD_OFFSET (R296). -/
def tdOffset (n : Nat) : Nat := 0x801006 + 256 * n
/-- 0x8010.07 TD_OFFSET_FS (R296). -/
def tdOffsetFs (n : Nat) : Nat := 0x801007 + 256 * n
/-- 0x8010.08 TD_SET (R296). -/
def tdSet (n : Nat) : Nat := 0x801008 + 256 * n
/-- 0x8010.09 TD_SERVO (R296). -/
def tdServo (n : Nat) : Nat := 0x801009 + 256 * n
/-- 0x8010.0A TD_STEP_NS (R296). -/
def tdStepNs (n : Nat) : Nat := 0x80100A + 256 * n
/-- 0x8010.0B TD_SERVO_TC_S (R296). -/
def tdServoTcS (n : Nat) : Nat := 0x80100B + 256 * n
/-- 0x8010.0C TD_OFFSET_FROM_MASTER (R296). -/
def tdOffsetFromMaster (n : Nat) : Nat := 0x80100C + 256 * n
/-- 0x8010.0D TD_MEAN_PATH_DELAY (R296). -/
def tdMeanPathDelay (n : Nat) : Nat := 0x80100D + 256 * n
/-- 0x8010.20 PTP_ENABLE (R296). -/
def ptpEnable (n : Nat) : Nat := 0x801020 + 256 * n
/-- 0x8010.21 PTP_PORT (R296). -/
def ptpPort (n : Nat) : Nat := 0x801021 + 256 * n
/-- 0x8010.22 PTP_TRANSPORT (R296). -/
def ptpTransport (n : Nat) : Nat := 0x801022 + 256 * n
/-- 0x8010.23 PTP_DOMAIN_NUMBER (R296). -/
def ptpDomainNumber (n : Nat) : Nat := 0x801023 + 256 * n
/-- 0x8010.24 PTP_DELAY_MECH (R296). -/
def ptpDelayMech (n : Nat) : Nat := 0x801024 + 256 * n
/-- 0x8010.25 PTP_ONE_STEP (R296). -/
def ptpOneStep (n : Nat) : Nat := 0x801025 + 256 * n
/-- 0x8010.26 PTP_SLAVE_ONLY (R296). -/
def ptpSlaveOnly (n : Nat) : Nat := 0x801026 + 256 * n
/-- 0x8010.27 PTP_PRIORITY1 (R296). -/
def ptpPriority1 (n : Nat) : Nat := 0x801027 + 256 * n
/-- 0x8010.28 PTP_PRIORITY2 (R296). -/
def ptpPriority2 (n : Nat) : Nat := 0x801028 + 256 * n
/-- 0x8010.29 PTP_LOG_SYNC (R296). -/
def ptpLogSync (n : Nat) : Nat := 0x801029 + 256 * n
/-- 0x8010.2A PTP_LOG_ANNOUNCE (R296). -/
def ptpLogAnnounce (n : Nat) : Nat := 0x80102A + 256 * n
/-- 0x8010.2B PTP_LOG_MIN_DELAY (R296). -/
def ptpLogMinDelay (n : Nat) : Nat := 0x80102B + 256 * n
/-- 0x8010.2C PTP_ANNOUNCE_TIMEOUT (R296). -/
def ptpAnnounceTimeout (n : Nat) : Nat := 0x80102C + 256 * n
/-- 0x8010.2D PTP_PORT_STATE (R296). -/
def ptpPortState (n : Nat) : Nat := 0x80102D + 256 * n
/-- 0x8010.2E PTP_PARENT (R296). -/
def ptpParent (n : Nat) : Nat := 0x80102E + 256 * n
/-- 0x8010.2F PTP_UTC_OFFSET (R296). -/
def ptpUtcOffset (n : Nat) : Nat := 0x80102F + 256 * n
/-- 0x8020.01 ETH_INGRESS_LAT_FS (R296). -/
def ethIngressLatFs (n : Nat) : Nat := 0x802001 + 256 * n
/-- 0x8020.02 ETH_EGRESS_LAT_FS (R296). -/
def ethEgressLatFs (n : Nat) : Nat := 0x802002 + 256 * n
/-- 0x8020.03 ETH_ASYM_FS (R296). -/
def ethAsymFs (n : Nat) : Nat := 0x802003 + 256 * n
/-- 0x8020.04 ETH_PTP_STAMPS (R296). -/
def ethPtpStamps (n : Nat) : Nat := 0x802004 + 256 * n
/-- 0x8040.01 TMR_MODE (R296). -/
def tmrMode (n : Nat) : Nat := 0x804001 + 256 * n
/-- 0x8040.02 TMR_CMP (R296). -/
def tmrCmp (n : Nat) : Nat := 0x804002 + 256 * n
/-- 0x8040.03 TMR_CMP_TIME (R296). -/
def tmrCmpTime (n : Nat) : Nat := 0x804003 + 256 * n
/-- 0x8040.04 TMR_PERIOD (R296). -/
def tmrPeriod (n : Nat) : Nat := 0x804004 + 256 * n
/-- 0x8040.05 TMR_PERIOD_FS (R296). -/
def tmrPeriodFs (n : Nat) : Nat := 0x804005 + 256 * n
/-- 0x8040.06 TMR_STATE (R296). -/
def tmrState (n : Nat) : Nat := 0x804006 + 256 * n
/-- 0x8040.07 TMR_TOUT (R296). -/
def tmrTout (n : Nat) : Nat := 0x804007 + 256 * n
/-- 0x8040.08 TMR_RELAY (R296). -/
def tmrRelay (n : Nat) : Nat := 0x804008 + 256 * n
/-- 0x8040.09 TMR_FIRES (R296). -/
def tmrFires (n : Nat) : Nat := 0x804009 + 256 * n
/-- 0x8040.0A TMR_MISSED (R296). -/
def tmrMissed (n : Nat) : Nat := 0x80400A + 256 * n
/-- 0x8040.0B TMR_LAST_FIRE (R296). -/
def tmrLastFire (n : Nat) : Nat := 0x80400B + 256 * n
/-- 0x8040.0C TMR_LAST_TREF (R296). -/
def tmrLastTref (n : Nat) : Nat := 0x80400C + 256 * n
/-- 0x9000.01 RLY_ENABLE (R312). -/
def rlyEnable : Nat := 0x900001
/-- 0x9000.02 RLY_LEADER (R312). -/
def rlyLeader : Nat := 0x900002
/-- 0x9000.03 RLY_CMD (R312). -/
def rlyCmd : Nat := 0x900003
/-- 0x9000.04 RLY_STATE (R312). -/
def rlyState : Nat := 0x900004
/-- 0x9000.05 RLY_TRAIN_FAIL (R312). -/
def rlyTrainFail : Nat := 0x900005
/-- 0x9000.06 RLY_POSITION (R312). -/
def rlyPosition : Nat := 0x900006
/-- 0x9000.07 RLY_MEMBERS (R312). -/
def rlyMembers : Nat := 0x900007
/-- 0x9000.08 RLY_HOP_FS (R312). -/
def rlyHopFs : Nat := 0x900008
/-- 0x9000.09 RLY_OFFSET_FS (R312). -/
def rlyOffsetFs : Nat := 0x900009
/-- 0x9000.0A RLY_RTT (R312). -/
def rlyRtt : Nat := 0x90000A
/-- 0x9000.0B RLY_LAT (R312). -/
def rlyLat : Nat := 0x90000B
/-- 0x9000.0C RLY_COUNT (R312). -/
def rlyCount : Nat := 0x90000C
/-- 0x9000.0D RLY_POISON_COUNT (R312). -/
def rlyPoisonCount : Nat := 0x90000D
/-- 0x9000.10 RLY_START_SEND (R312). -/
def rlyStartSend : Nat := 0x900010
/-- 0x9000.11 RLY_TMR_MASK (R312). -/
def rlyTmrMask : Nat := 0x900011
/-- 0x9000.12 RLY_EVENT_SEND (R312). -/
def rlyEventSend : Nat := 0x900012
/-- 0x9000.13 RLY_JUMP_SEND (R312). -/
def rlyJumpSend : Nat := 0x900013
/-- 0x9000.14 RLY_FAIL_TX (R312). -/
def rlyFailTx : Nat := 0x900014
/-- 0x9000.15 RLY_FAIL_TASK (R312). -/
def rlyFailTask : Nat := 0x900015
/-- 0x9000.16 RLY_FAIL_LAST (R312). -/
def rlyFailLast : Nat := 0x900016
/-- 0x9000.17 RLY_FAILS_RX (R312). -/
def rlyFailsRx : Nat := 0x900017
/-- 0x9000.18 RLY_TX_DROPPED (R312). -/
def rlyTxDropped : Nat := 0x900018
/-- 0x9000.19 RLY_CRC_ERRS (R312). -/
def rlyCrcErrs : Nat := 0x900019
/-- 0x9000.20 RLY_CH_OP (R312). -/
def rlyChOp : Nat := 0x900020
/-- 0x9000.21 RLY_RESULT (R312). -/
def rlyResult : Nat := 0x900021
/-- 0x9010.01 RLY_MATCH_CH (R312). -/
def rlyMatchCh (n : Nat) : Nat := 0x901001 + 256 * n
/-- 0xA000.01 JESD_SYSREF_MODE (R325). -/
def jesdSysrefMode : Nat := 0xA00001
/-- 0xA000.02 JESD_SYSREF_MISALIGN (R325). -/
def jesdSysrefMisalign : Nat := 0xA00002
/-- 0xA000.03 JESD_DEVCLK_HZ (R325). -/
def jesdDevclkHz : Nat := 0xA00003
/-- 0xA010.01 JTX_EN (R325). -/
def jtxEn : Nat := 0xA01001
/-- 0xA010.02 JTX_PARAMS (R325). -/
def jtxParams : Nat := 0xA01002
/-- 0xA010.03 JTX_POL (R325). -/
def jtxPol : Nat := 0xA01003
/-- 0xA010.04 JTX_STATE (R325). -/
def jtxState : Nat := 0xA01004
/-- 0xA010.05 JTX_CMD (R325). -/
def jtxCmd : Nat := 0xA01005
/-- 0xA010.06 JTX_PLAY (R325). -/
def jtxPlay : Nat := 0xA01006
/-- 0xA010.07 JTX_FIRST_PAGE (R325). -/
def jtxFirstPage : Nat := 0xA01007
/-- 0xA010.08 JTX_GROUP (R325). -/
def jtxGroup : Nat := 0xA01008
/-- 0xA010.09 JTX_START_DELAY (R325). -/
def jtxStartDelay : Nat := 0xA01009
/-- 0xA010.0A JTX_NCO_FTW (R325). -/
def jtxNcoFtw : Nat := 0xA0100A
/-- 0xA010.0B JTX_NCO_FREQ_HZ (R325). -/
def jtxNcoFreqHz : Nat := 0xA0100B
/-- 0xA010.0C JTX_NCO_PHASE0 (R325). -/
def jtxNcoPhase0 : Nat := 0xA0100C
/-- 0xA010.0D JTX_NCO_PENDING (R325). -/
def jtxNcoPending : Nat := 0xA0100D
/-- 0xA010.0E JTX_SEG_TIME (R325). -/
def jtxSegTime : Nat := 0xA0100E
/-- 0xA010.0F JTX_ERR (R325). -/
def jtxErr : Nat := 0xA0100F
/-- 0xA010.10 JTX_UNDERRUNS (R325). -/
def jtxUnderruns : Nat := 0xA01010
/-- 0xA010.11 JTX_SAT (R325). -/
def jtxSat : Nat := 0xA01011
/-- 0xA020.01 JRX_EN (R325). -/
def jrxEn : Nat := 0xA02001
/-- 0xA020.02 JRX_PARAMS (R325). -/
def jrxParams : Nat := 0xA02002
/-- 0xA020.03 JRX_STATE (R325). -/
def jrxState : Nat := 0xA02003
/-- 0xA020.04 JRX_DEST (R325). -/
def jrxDest : Nat := 0xA02004
/-- 0xA020.05 JRX_UNIT (R325). -/
def jrxUnit : Nat := 0xA02005
/-- 0xA020.06 JRX_BASE (R325). -/
def jrxBase : Nat := 0xA02006
/-- 0xA020.07 JRX_LEN (R325). -/
def jrxLen : Nat := 0xA02007
/-- 0xA020.08 JRX_MODE (R325). -/
def jrxMode : Nat := 0xA02008
/-- 0xA020.09 JRX_REC_UNITS (R325). -/
def jrxRecUnits : Nat := 0xA02009
/-- 0xA020.0A JRX_CMD (R325). -/
def jrxCmd : Nat := 0xA0200A
/-- 0xA020.0B JRX_GROUP (R325). -/
def jrxGroup : Nat := 0xA0200B
/-- 0xA020.0C JRX_WR (R325). -/
def jrxWr : Nat := 0xA0200C
/-- 0xA020.0D JRX_TASK (R325). -/
def jrxTask : Nat := 0xA0200D
/-- 0xA020.0E JRX_START_TIME (R325). -/
def jrxStartTime : Nat := 0xA0200E
/-- 0xA020.0F JRX_GAPS (R325). -/
def jrxGaps : Nat := 0xA0200F
/-- 0xA020.10 JRX_CRC_ERRS (R325). -/
def jrxCrcErrs : Nat := 0xA02010
/-- 0xB000.01 CAL_STATUS (R342). -/
def calStatus : Nat := 0xB00001
/-- 0xB000.02 CAL_STALL_MS (R342). -/
def calStallMs : Nat := 0xB00002
/-- 0xB000.03 CAL_CONVERGE_MS (R342). -/
def calConvergeMs : Nat := 0xB00003
/-- 0xB000.04 CAL_UIDTAG (R342). -/
def calUidtag : Nat := 0xB00004
/-- 0xB000.05 CAL_ROTATIONS (R342). -/
def calRotations : Nat := 0xB00005
/-- 0xB010.01 CAL_GRP_STATUS (R342). -/
def calGrpStatus (n : Nat) : Nat := 0xB01001 + 256 * n
/-- 0xB010.02 CAL_GRP_CAUSE (R342). -/
def calGrpCause (n : Nat) : Nat := 0xB01002 + 256 * n
/-- 0xB010.03 CAL_GRP_FAIL_CH (R342). -/
def calGrpFailCh (n : Nat) : Nat := 0xB01003 + 256 * n
/-- 0xB010.04 CAL_GRP_TEMP (R342). -/
def calGrpTemp (n : Nat) : Nat := 0xB01004 + 256 * n
/-- 0xB100.01 CAL_CH_STATUS (R342). -/
def calChStatus (n : Nat) : Nat := 0xB10001 + 256 * n
/-- 0xB200.01 SYS_CAL_STATUS (R342). -/
def sysCalStatus (n : Nat) : Nat := 0xB20001 + 256 * n
/-- 0xB200.02 SYS_CAL_REC (R342). -/
def sysCalRec (n : Nat) : Nat := 0xB20002 + 256 * n
/-- 0xB200.03 SYS_CAL_REC_ERR (R342). -/
def sysCalRecErr (n : Nat) : Nat := 0xB20003 + 256 * n
/-- 0xB200.04 SYS_CAL_HOLD (R342). -/
def sysCalHold (n : Nat) : Nat := 0xB20004 + 256 * n
/-- 0xB200.05 SYS_CAL_DRV_FS (R342). -/
def sysCalDrvFs (n : Nat) : Nat := 0xB20005 + 256 * n
/-- 0xB200.06 SYS_CAL_DEN_FS (R342). -/
def sysCalDenFs (n : Nat) : Nat := 0xB20006 + 256 * n
/-- 0xC000.01 FLT_STICKY (R359). -/
def fltSticky : Nat := 0xC00001
/-- 0xC000.02 FLT_FENCED (R359). -/
def fltFenced : Nat := 0xC00002
/-- 0xC000.03 FLT_REACT (R359). -/
def fltReact : Nat := 0xC00003
/-- 0xC000.04 FLT_FATAL (R359). -/
def fltFatal : Nat := 0xC00004
/-- 0xC000.05 FLT_RELEASE (R359). -/
def fltRelease : Nat := 0xC00005
/-- 0xC000.06 FLT_RELEASE_ERR (R359). -/
def fltReleaseErr : Nat := 0xC00006
/-- 0xC000.07 FLT_INT_ENABLE (R359). -/
def fltIntEnable : Nat := 0xC00007
/-- 0xC000.08 FLT_INT_PENDING (R359). -/
def fltIntPending : Nat := 0xC00008
/-- 0xC010.01 FLTIN_CLASS (R359). -/
def fltinClass (n : Nat) : Nat := 0xC01001 + 256 * n
/-- 0xC010.02 FLTIN_TARGET (R359). -/
def fltinTarget (n : Nat) : Nat := 0xC01002 + 256 * n
/-- 0xC010.03 FLTIN_LEVEL (R359). -/
def fltinLevel (n : Nat) : Nat := 0xC01003 + 256 * n
/-- 0xC010.04 FLTIN_OVERRUNS (R359). -/
def fltinOverruns (n : Nat) : Nat := 0xC01004 + 256 * n
/-- 0x1000.01 BATON_SESSIONS (R385). -/
def batonSessions : Nat := 0x100001
/-- 0x1000.02 BATON_TIMEOUT_S (R385). -/
def batonTimeoutS : Nat := 0x100002
/-- 0x1000.03 BATON_NOTIFY_RETRY_MS (R385). -/
def batonNotifyRetryMs : Nat := 0x100003
/-- 0x1000.04 BATON_NOTIFY_MIN_MS (R385). -/
def batonNotifyMinMs : Nat := 0x100004
/-- 0x1000.05 BATON_BAD_FRAMES (R385). -/
def batonBadFrames : Nat := 0x100005
/-- 0x1001.01 SES_ID (R385). -/
def sesId : Nat := 0x100101
/-- 0x1001.02 SES_ROLE (R385). -/
def sesRole : Nat := 0x100102
/-- 0x1001.03 SES_EXPERT (R385). -/
def sesExpert : Nat := 0x100103
/-- 0x1001.04 SES_SEQ_HIGH (R385). -/
def sesSeqHigh : Nat := 0x100104
/-- 0x1001.05 SES_REPLAYS (R385). -/
def sesReplays : Nat := 0x100105
/-- 0x1001.06 SES_SUBS (R385). -/
def sesSubs : Nat := 0x100106
/-- 0x1001.07 SES_NOTIFY_LOST (R385). -/
def sesNotifyLost : Nat := 0x100107
/-- 0x1010.01 ETH_LINK (R385). -/
def ethLink (n : Nat) : Nat := 0x101001 + 256 * n
/-- 0x1010.02 ETH_MAC (R385). -/
def ethMac (n : Nat) : Nat := 0x101002 + 256 * n
/-- 0x1010.03 ETH_IPV4 (R385). -/
def ethIpv4 (n : Nat) : Nat := 0x101003 + 256 * n
/-- 0x1010.04 ETH_IPV4_MASK (R385). -/
def ethIpv4Mask (n : Nat) : Nat := 0x101004 + 256 * n
/-- 0x1010.05 ETH_IPV4_GW (R385). -/
def ethIpv4Gw (n : Nat) : Nat := 0x101005 + 256 * n
/-- 0x1010.06 ETH_IPV6 (R385). -/
def ethIpv6 (n : Nat) : Nat := 0x101006 + 256 * n
/-- 0x1010.07 ETH_IPV6_PREFIX (R385). -/
def ethIpv6Prefix (n : Nat) : Nat := 0x101007 + 256 * n
/-- 0x1010.08 ETH_MTU (R385). -/
def ethMtu (n : Nat) : Nat := 0x101008 + 256 * n
/-- 0x1010.09 ETH_UDP_PORT (R385). -/
def ethUdpPort (n : Nat) : Nat := 0x101009 + 256 * n
/-- 0x1010.0A ETH_ENG_ALLOW (R385). -/
def ethEngAllow (n : Nat) : Nat := 0x10100A + 256 * n
/-- 0x1010.0B ETH_FEC (R385). -/
def ethFec (n : Nat) : Nat := 0x10100B + 256 * n
/-- 0x1800.00 DRAM_SPACE (R385). -/
def dramSpace : Nat := 0x180000
/-- 0x0000.01 ID_VENDOR (R390). -/
def idVendor : Nat := 0x1
/-- 0x0000.02 ID_PART (R390). -/
def idPart : Nat := 0x2
/-- 0x0000.03 ID_STEPPING (R390). -/
def idStepping : Nat := 0x3
/-- 0x0000.04 ID_SERIAL (R390). -/
def idSerial : Nat := 0x4
/-- 0x0000.05 ID_FW_VERSION (R390). -/
def idFwVersion : Nat := 0x5
/-- 0x0000.06 ID_OD_VERSION (R390). -/
def idOdVersion : Nat := 0x6
/-- 0x0000.07 ID_BOOT_SOURCE (R390). -/
def idBootSource : Nat := 0x7
/-- 0x0000.08 ID_CAP_FIRST (R390). -/
def idCapFirst : Nat := 0x8
/-- 0xD000.01 SEC_STATE (R414). -/
def secState : Nat := 0xD00001
/-- 0xD000.02 SEC_CERT_MODE (R414). -/
def secCertMode : Nat := 0xD00002
/-- 0xD000.03 SEC_ZEROISE (R414). -/
def secZeroise : Nat := 0xD00003
/-- 0xD000.04 SEC_SELFTEST (R414). -/
def secSelftest : Nat := 0xD00004
/-- 0xD000.05 SEC_SELFTEST_RESULT (R414). -/
def secSelftestResult : Nat := 0xD00005
/-- 0xD000.06 SEC_DEV_PUBKEY (R414). -/
def secDevPubkey : Nat := 0xD00006
/-- 0xD000.07 SEC_DEV_CERT (R414). -/
def secDevCert : Nat := 0xD00007
/-- 0xD000.08 SEC_VQPS (R414). -/
def secVqps : Nat := 0xD00008
/-- 0xD000.09 SEC_AUTH_FAILS (R414). -/
def secAuthFails : Nat := 0xD00009
/-- 0xD000.0A SEC_SEAL_ERR (R414). -/
def secSealErr : Nat := 0xD0000A
/-- 0xD000.10 SEC_OFFICER_KEY0–3 (R414). -/
def secOfficerKey (i : Nat) : Nat := 0xD00010 + i
/-- 0xD000.14 SEC_OFFICER_REVOKE (R414). -/
def secOfficerRevoke : Nat := 0xD00014
/-- 0xD000.18 SEC_KEK0–3 (R414). -/
def secKek (i : Nat) : Nat := 0xD00018 + i
/-- 0xD000.1C SEC_KEK_STATE (R414). -/
def secKekState : Nat := 0xD0001C
/-- 0xD000.20 SEC_DIAG_LOAD (R414). -/
def secDiagLoad : Nat := 0xD00020
/-- 0xD000.21 SEC_ANCHOR_REVOKE (R414). -/
def secAnchorRevoke : Nat := 0xD00021
/-- 0xD000.22 SEC_MIN_LEVEL_SET (R414). -/
def secMinLevelSet : Nat := 0xD00022
/-- 0xD010.01 SK_STATE (R414). -/
def skState (n : Nat) : Nat := 0xD01001 + 256 * n
/-- 0xD010.02 SK_LOAD (R414). -/
def skLoad (n : Nat) : Nat := 0xD01002 + 256 * n
/-- 0xD010.03 SK_KEY_ID (R414). -/
def skKeyId (n : Nat) : Nat := 0xD01003 + 256 * n
/-- 0xD010.04 SK_CLEAR (R414). -/
def skClear (n : Nat) : Nat := 0xD01004 + 256 * n
/-- 0xD010.05 SK_USES (R414). -/
def skUses (n : Nat) : Nat := 0xD01005 + 256 * n
/-- 0xD010.06 SK_AUTH_FAILS (R414). -/
def skAuthFails (n : Nat) : Nat := 0xD01006 + 256 * n
/-- 0xE000.01 START_STEP (R428). -/
def startStep : Nat := 0xE00001
/-- 0xE000.02 START_FAIL (R428). -/
def startFail : Nat := 0xE00002
/-- 0xE000.03 START_MS (R428). -/
def startMs : Nat := 0xE00003
/-- 0xE000.04 RESET_CMD (R428). -/
def resetCmd : Nat := 0xE00004
/-- 0xE000.05 RESET_CAUSE (R428). -/
def resetCause : Nat := 0xE00005
/-- 0xE000.06 BOOT_SLOT (R428). -/
def bootSlot : Nat := 0xE00006
/-- 0xE000.07 BOOT_IMG_SEQ (R428). -/
def bootImgSeq : Nat := 0xE00007
/-- 0xE000.08 BOOT_CFG_ERRS (R428). -/
def bootCfgErrs : Nat := 0xE00008
/-- 0xE000.09 BOOT_CFG_FIRST_ERR (R428). -/
def bootCfgFirstErr : Nat := 0xE00009
/-- 0xE000.10 BOOT_STAGE (R428). -/
def bootStage : Nat := 0xE00010
/-- 0xE000.11 BOOT_CMD (R428). -/
def bootCmd : Nat := 0xE00011
/-- 0xE000.12 BOOT_STATUS (R428). -/
def bootStatus : Nat := 0xE00012
/-- 0xE000.13 CLK_STATUS (R428). -/
def clkStatus : Nat := 0xE00013
/-- 0xE000.20 PWR_VDD_CORE_UV … PWR_VDD_PLL_UV (R428). -/
def pwrUv (i : Nat) : Nat := 0xE00020 + i
/-- 0xE000.27 PWR_VQPS_UV (R428). -/
def pwrVqpsUv : Nat := 0xE00027
/-- 0xE010.01 THS_TEMP (R428). -/
def thsTemp (n : Nat) : Nat := 0xE01001 + 256 * n
/-- 0xE010.02 THS_MAX (R428). -/
def thsMax (n : Nat) : Nat := 0xE01002 + 256 * n

end K

/-! ### The dictionary -/

/-- The types of R371; a BLOB with its least and greatest length. -/
inductive ObjTy where
  | bool | u8 | u16 | u32 | u64 | s8 | s16 | s32 | s64 | time96 | str
  | blob (lo hi : Nat)
  deriving DecidableEq, Repr

/-- The access codes of R372. -/
inductive ObjAcc where
  | ro | rw | rws | wo | w1c
  deriving DecidableEq, Repr

/-- A row of an object table: base index, instances, first subindex, number of subindexes, type,
access code, level (0 Basic, 1 Expert, 2 Expert with the Officer role, 3 Expert with the Vendor
role), the ranges of values accepted (none: every value of the type) and the bits that are not rsv
(0: all). -/
structure ObjRow where
  base : Nat
  n    : Nat
  lo   : Nat
  subs : Nat
  ty   : ObjTy
  acc  : ObjAcc
  lev  : Nat
  rng  : List (Int × Int)
  mask : Nat
  deriving DecidableEq, Repr

/-- Rows 1–60 of the object tables, in the order of the chapters. -/
def objRows1 : List ObjRow := [
  ⟨0x2000, 16, 0x01, 1, .u8, .rws, 0, [(0, 2)], 0x0⟩,
  ⟨0x2000, 16, 0x02, 1, .u8, .rws, 0, [(0, 15)], 0x0⟩,
  ⟨0x2000, 16, 0x03, 1, .u8, .ro, 0, [], 0x0⟩,
  ⟨0x2000, 16, 0x04, 1, .bool, .rws, 0, [], 0x0⟩,
  ⟨0x2000, 16, 0x05, 1, .u16, .ro, 0, [], 0x0⟩,
  ⟨0x3000, 16, 0x01, 1, .u64, .rw, 0, [], 0x0⟩,
  ⟨0x3000, 16, 0x02, 1, .u32, .rw, 1, [], 0x0⟩,
  ⟨0x3000, 16, 0x03, 1, .u32, .ro, 1, [], 0x0⟩,
  ⟨0x3000, 16, 0x04, 1, .bool, .ro, 0, [], 0x0⟩,
  ⟨0x3000, 16, 0x06, 1, .u64, .rws, 0, [], 0x0⟩,
  ⟨0x3000, 16, 0x07, 1, .u32, .rws, 1, [], 0x0⟩,
  ⟨0x3000, 16, 0x08, 1, (.blob 256 256), .rws, 1, [], 0x0⟩,
  ⟨0x3000, 16, 0x10, 1, .u32, .ro, 0, [], 0x0⟩,
  ⟨0x3000, 16, 0x20, 16, .u32, .rws, 1, [], 0xFFFFFF⟩,
  ⟨0x3010, 1, 0x01, 1, .u8, .rw, 0, [(0, 63)], 0x0⟩,
  ⟨0x3100, 256, 0x01, 1, .u8, .rws, 0, [(0, 31)], 0x0⟩,
  ⟨0x3100, 256, 0x02, 1, (.blob 32 32), .rws, 1, [], 0x0⟩,
  ⟨0x3100, 256, 0x03, 1, (.blob 2304 2304), .rws, 1, [], 0x0⟩,
  ⟨0x3100, 256, 0x10, 8, .u64, .rws, 0, [], 0x0⟩,
  ⟨0x3100, 256, 0x20, 1, .s32, .rws, 1, [(-8192, 8191)], 0x0⟩,
  ⟨0x3100, 256, 0x21, 1, .s64, .rws, 0, [], 0x0⟩,
  ⟨0x3100, 256, 0x22, 1, .s32, .rws, 1, [(-8192, 8191)], 0x0⟩,
  ⟨0x3100, 256, 0x23, 1, .s64, .rws, 0, [], 0x0⟩,
  ⟨0x3100, 256, 0x24, 1, .bool, .rws, 0, [], 0x0⟩,
  ⟨0x3100, 256, 0x30, 1, .u16, .rw, 0, [(0, 0)], 0x0⟩,
  ⟨0x3100, 256, 0x31, 1, .u16, .rw, 0, [(0, 0)], 0x0⟩,
  ⟨0x3200, 8, 0x01, 1, .u8, .rw, 0, [(0, 4)], 0x0⟩,
  ⟨0x3200, 8, 0x02, 1, .u64, .rw, 0, [], 0x0⟩,
  ⟨0x3200, 8, 0x03, 1, .u32, .rw, 1, [(1024, 4294967295)], 0x0⟩,
  ⟨0x3200, 8, 0x04, 1, .u8, .rw, 0, [(0, 0), (2, 4), (9, 9)], 0x0⟩,
  ⟨0x3200, 8, 0x05, 1, .u64, .rw, 0, [], 0x0⟩,
  ⟨0x3200, 8, 0x06, 1, .u64, .rw, 0, [], 0x0⟩,
  ⟨0x3200, 8, 0x07, 1, (.blob 8 8), .rw, 1, [], 0x0⟩,
  ⟨0x3200, 8, 0x08, 1, .u8, .rw, 0, [(0, 15), (255, 255)], 0x0⟩,
  ⟨0x3200, 8, 0x09, 1, .s32, .rw, 1, [(-8192, 8191)], 0x0⟩,
  ⟨0x4000, 16, 0x01, 1, .u16, .ro, 0, [], 0x0⟩,
  ⟨0x4000, 16, 0x02, 1, (.blob 0 1024), .ro, 0, [], 0x0⟩,
  ⟨0x4000, 16, 0x03, 1, (.blob 1024 1024), .ro, 0, [], 0x0⟩,
  ⟨0x4000, 16, 0x04, 1, .u32, .rw, 0, [(0, 0)], 0x0⟩,
  ⟨0x4000, 16, 0x05, 1, .u16, .rw, 0, [], 0x0⟩,
  ⟨0x4000, 16, 0x06, 1, .u16, .rw, 0, [(0, 4095), (65535, 65535)], 0x0⟩,
  ⟨0x4000, 16, 0x08, 1, .u64, .rws, 1, [], 0x0⟩,
  ⟨0x4000, 16, 0x09, 1, .u64, .rws, 1, [], 0x0⟩,
  ⟨0x4000, 16, 0x0A, 1, .u64, .ro, 1, [], 0x0⟩,
  ⟨0x4000, 16, 0x0B, 1, .u64, .rw, 1, [], 0x0⟩,
  ⟨0x4000, 16, 0x10, 1, .u8, .rws, 0, [(0, 2)], 0x0⟩,
  ⟨0x4000, 16, 0x11, 1, .u16, .rws, 1, [], 0x0⟩,
  ⟨0x4000, 16, 0x12, 1, .u16, .rw, 0, [], 0x0⟩,
  ⟨0x4000, 16, 0x13, 1, .u16, .ro, 0, [], 0x0⟩,
  ⟨0x4000, 16, 0x14, 1, .bool, .ro, 0, [], 0x0⟩,
  ⟨0x4000, 16, 0x15, 1, .u16, .ro, 0, [], 0x0⟩,
  ⟨0x4000, 16, 0x16, 1, .u16, .rw, 0, [], 0x0⟩,
  ⟨0x4000, 16, 0x17, 1, .u32, .ro, 0, [], 0x0⟩,
  ⟨0x4000, 16, 0x18, 1, .u32, .rw, 0, [(0, 0)], 0x0⟩,
  ⟨0x4000, 16, 0x19, 1, .u32, .rw, 0, [(0, 0)], 0x0⟩,
  ⟨0x4000, 16, 0x1A, 1, .u32, .rw, 0, [], 0x0⟩,
  ⟨0x4000, 16, 0x1B, 1, .u16, .rw, 0, [(0, 4095), (65535, 65535)], 0x0⟩,
  ⟨0x4000, 16, 0x1C, 1, (.blob 0 1024), .ro, 0, [], 0x0⟩,
  ⟨0x4000, 16, 0x1D, 1, .u16, .ro, 0, [], 0x0⟩,
  ⟨0x4000, 16, 0x20, 1, .u64, .rws, 1, [], 0x0⟩]

/-- Rows 61–120 of the object tables, in the order of the chapters. -/
def objRows2 : List ObjRow := [
  ⟨0x4000, 16, 0x21, 1, .u64, .rws, 1, [], 0x0⟩,
  ⟨0x4000, 16, 0x22, 1, .u64, .ro, 1, [], 0x0⟩,
  ⟨0x4000, 16, 0x23, 1, .u64, .rw, 1, [], 0x0⟩,
  ⟨0x4100, 256, 0x01, 1, .u8, .rws, 0, [(0, 63), (255, 255)], 0x0⟩,
  ⟨0x4100, 256, 0x02, 1, .u8, .rws, 0, [(0, 2)], 0x0⟩,
  ⟨0x4100, 256, 0x03, 1, .bool, .rws, 0, [], 0x0⟩,
  ⟨0x4100, 256, 0x04, 1, .u8, .rws, 0, [(0, 1)], 0x0⟩,
  ⟨0x4100, 256, 0x05, 1, .u64, .rw, 0, [(0, 0)], 0x0⟩,
  ⟨0x4100, 256, 0x06, 1, .u16, .rw, 0, [(0, 0)], 0x0⟩,
  ⟨0x4200, 64, 0x01, 1, .bool, .rws, 0, [], 0x0⟩,
  ⟨0x4200, 64, 0x02, 1, .u8, .ro, 0, [], 0x0⟩,
  ⟨0x4200, 64, 0x10, 16, .u64, .ro, 0, [], 0x0⟩,
  ⟨0x2000, 16, 0x10, 1, .u32, .ro, 0, [], 0x0⟩,
  ⟨0x2000, 16, 0x11, 1, .u64, .ro, 1, [], 0x0⟩,
  ⟨0x2000, 16, 0x12, 1, .u32, .ro, 1, [], 0x0⟩,
  ⟨0x2000, 16, 0x13, 1, .u64, .ro, 1, [], 0x0⟩,
  ⟨0x2040, 16, 0x01, 1, .u16, .ro, 1, [], 0x0⟩,
  ⟨0x2040, 16, 0x02, 1, .u64, .ro, 1, [], 0x0⟩,
  ⟨0x2040, 16, 0x03, 1, .u64, .ro, 0, [], 0x0⟩,
  ⟨0x2040, 16, 0x04, 1, .u8, .ro, 1, [], 0x0⟩,
  ⟨0x2040, 16, 0x05, 1, .u8, .ro, 1, [], 0x0⟩,
  ⟨0x2040, 16, 0x06, 1, .u32, .ro, 0, [], 0x0⟩,
  ⟨0x2040, 16, 0x10, 16, .u32, .rws, 0, [], 0x0⟩,
  ⟨0x2040, 16, 0x20, 4, .u64, .rws, 0, [], 0x0⟩,
  ⟨0x2040, 16, 0x30, 1, .u32, .ro, 0, [], 0x0⟩,
  ⟨0x2040, 16, 0x31, 1, .u16, .ro, 1, [], 0x0⟩,
  ⟨0x2040, 16, 0x32, 1, .u64, .ro, 1, [], 0x0⟩,
  ⟨0x2040, 16, 0x33, 1, .u32, .rw, 0, [(0, 0)], 0x0⟩,
  ⟨0x2040, 16, 0x34, 1, .u32, .rw, 0, [(0, 0)], 0x0⟩,
  ⟨0x2040, 16, 0x35, 1, .u32, .rw, 0, [(0, 0)], 0x0⟩,
  ⟨0x2040, 16, 0x36, 1, .u32, .ro, 0, [], 0x0⟩,
  ⟨0x2040, 16, 0x37, 1, .u64, .ro, 0, [], 0x0⟩,
  ⟨0x2040, 16, 0x38, 1, .bool, .wo, 0, [], 0x0⟩,
  ⟨0x2040, 16, 0x39, 1, .u16, .ro, 0, [], 0x0⟩,
  ⟨0x2000, 16, 0x20, 1, .u8, .ro, 0, [], 0x0⟩,
  ⟨0x2000, 16, 0x21, 1, .u8, .wo, 0, [(1, 9)], 0x0⟩,
  ⟨0x2000, 16, 0x22, 1, .bool, .ro, 0, [], 0x0⟩,
  ⟨0x2000, 16, 0x23, 1, .u8, .ro, 0, [], 0x0⟩,
  ⟨0x2000, 16, 0x24, 1, .u8, .ro, 0, [], 0x0⟩,
  ⟨0x2000, 16, 0x25, 1, .u8, .rws, 0, [], 0x0⟩,
  ⟨0x2000, 16, 0x26, 1, .u32, .rws, 1, [(0, 16777215)], 0x0⟩,
  ⟨0x2000, 16, 0x27, 1, .u64, .rws, 0, [], 0x0⟩,
  ⟨0x2000, 16, 0x28, 1, .time96, .ro, 0, [], 0x0⟩,
  ⟨0x2000, 16, 0x29, 1, .bool, .ro, 0, [], 0x0⟩,
  ⟨0x2000, 16, 0x2A, 1, .bool, .rws, 1, [], 0x0⟩,
  ⟨0x2000, 16, 0x2B, 1, .u32, .ro, 0, [], 0x0⟩,
  ⟨0x2000, 16, 0x2C, 1, .u32, .ro, 0, [], 0x0⟩,
  ⟨0x2000, 16, 0x2D, 1, .time96, .ro, 0, [], 0x0⟩,
  ⟨0x2000, 16, 0x2E, 1, .u32, .ro, 0, [], 0x0⟩,
  ⟨0x2000, 16, 0x2F, 1, .u64, .ro, 0, [], 0x0⟩,
  ⟨0x2060, 16, 0x01, 16, .u32, .rws, 0, [], 0x0⟩,
  ⟨0x2060, 16, 0x11, 1, .bool, .rws, 0, [], 0x0⟩,
  ⟨0x2060, 16, 0x12, 1, (.blob 8 8), .rws, 0, [], 0x0⟩,
  ⟨0x2060, 16, 0x13, 1, .u8, .wo, 0, [(0, 15)], 0x0⟩,
  ⟨0x2060, 16, 0x14, 1, .u8, .ro, 0, [], 0x0⟩,
  ⟨0x2060, 16, 0x15, 1, .u32, .ro, 0, [], 0x0⟩,
  ⟨0x2060, 16, 0x16, 1, .u32, .ro, 0, [], 0x0⟩,
  ⟨0x2060, 16, 0x17, 1, .u32, .ro, 0, [], 0x0⟩,
  ⟨0x2060, 16, 0x18, 1, .u8, .ro, 0, [], 0x0⟩,
  ⟨0x2080, 8, 0x01, 1, .bool, .rw, 0, [], 0x0⟩]

/-- Rows 121–180 of the object tables, in the order of the chapters. -/
def objRows3 : List ObjRow := [
  ⟨0x2080, 8, 0x02, 1, .u8, .rw, 0, [(0, 1)], 0x0⟩,
  ⟨0x2080, 8, 0x03, 1, .bool, .ro, 0, [], 0x0⟩,
  ⟨0x2080, 8, 0x04, 1, .u32, .rw, 0, [(0, 0)], 0x0⟩,
  ⟨0x2080, 8, 0x05, 1, .u16, .rw, 0, [(0, 0)], 0x0⟩,
  ⟨0x2080, 8, 0x06, 1, .u32, .rw, 0, [(0, 1000000)], 0x0⟩,
  ⟨0x2080, 8, 0x07, 1, .bool, .ro, 0, [], 0x0⟩,
  ⟨0x2090, 8, 0x01, 1, .u8, .rw, 0, [(0, 4)], 0x0⟩,
  ⟨0x2090, 8, 0x02, 1, .u16, .rw, 0, [], 0x0⟩,
  ⟨0x2090, 8, 0x03, 1, .bool, .rw, 0, [], 0x0⟩,
  ⟨0x2090, 8, 0x04, 1, .u16, .rw, 0, [(8, 65535)], 0x0⟩,
  ⟨0x2090, 8, 0x05, 1, .u16, .rw, 1, [], 0x0⟩,
  ⟨0x2090, 8, 0x06, 1, .bool, .wo, 0, [], 0x0⟩,
  ⟨0x2090, 8, 0x07, 1, .u32, .rw, 0, [(0, 0)], 0x0⟩,
  ⟨0x20A0, 1, 0x01, 1, .u16, .wo, 0, [], 0x0⟩,
  ⟨0x2040, 16, 0x40, 1, .u32, .ro, 0, [], 0x0⟩,
  ⟨0x2040, 16, 0x41, 1, .u16, .ro, 1, [], 0x0⟩,
  ⟨0x2040, 16, 0x42, 1, .bool, .ro, 0, [], 0x0⟩,
  ⟨0x2040, 16, 0x43, 1, .u16, .ro, 0, [], 0x0⟩,
  ⟨0x2040, 16, 0x44, 1, .u8, .ro, 1, [], 0x0⟩,
  ⟨0x2040, 16, 0x45, 1, .u32, .rw, 1, [(0, 0)], 0x0⟩,
  ⟨0x2040, 16, 0x46, 1, (.blob 64 64), .ro, 1, [], 0x0⟩,
  ⟨0x20B0, 1, 0x01, 1, .u32, .ro, 0, [], 0x0⟩,
  ⟨0x20B0, 1, 0x02, 1, (.blob 1 131072), .wo, 1, [], 0x0⟩,
  ⟨0x20B0, 1, 0x03, 1, .u8, .wo, 1, [], 0x0⟩,
  ⟨0x20B0, 1, 0x04, 1, .u8, .ro, 0, [], 0x0⟩,
  ⟨0x20B0, 1, 0x05, 1, .u32, .ro, 1, [], 0x0⟩,
  ⟨0x20B0, 1, 0x06, 1, .u8, .ro, 0, [], 0x0⟩,
  ⟨0x7000, 1, 0x01, 1, .u16, .ro, 0, [], 0x0⟩,
  ⟨0x7000, 1, 0x02, 1, .u16, .rw, 1, [], 0x0⟩,
  ⟨0x7000, 1, 0x03, 1, .u8, .ro, 0, [], 0x0⟩,
  ⟨0x7000, 1, 0x04, 1, .u8, .ro, 0, [], 0x0⟩,
  ⟨0x7000, 1, 0x05, 1, .u8, .ro, 0, [], 0x0⟩,
  ⟨0x7000, 1, 0x06, 1, .u32, .ro, 0, [], 0x0⟩,
  ⟨0x7000, 1, 0x07, 1, .u64, .ro, 0, [], 0x0⟩,
  ⟨0x7000, 1, 0x08, 1, .bool, .ro, 0, [], 0x0⟩,
  ⟨0x7000, 1, 0x10, 1, .u32, .rw, 1, [(10, 10000)], 0x0⟩,
  ⟨0x7000, 1, 0x11, 1, .u32, .rw, 1, [(2500, 200000)], 0x0⟩,
  ⟨0x7000, 1, 0x12, 1, .u32, .ro, 0, [], 0x0⟩,
  ⟨0x7000, 1, 0x13, 1, .u32, .ro, 1, [], 0x0⟩,
  ⟨0x7000, 1, 0x14, 1, .time96, .ro, 1, [], 0x0⟩,
  ⟨0x7000, 1, 0x18, 1, .u16, .rw, 1, [(0, 720)], 0x0⟩,
  ⟨0x7000, 1, 0x19, 1, .u32, .ro, 1, [], 0x0⟩,
  ⟨0x7010, 4, 0x01, 1, .u8, .ro, 0, [], 0x0⟩,
  ⟨0x7010, 4, 0x02, 1, .u32, .rw, 0, [(0, 0)], 0x0⟩,
  ⟨0x7010, 4, 0x03, 1, .u32, .rw, 0, [(0, 0)], 0x0⟩,
  ⟨0x7010, 4, 0x04, 1, .u64, .ro, 1, [], 0x0⟩,
  ⟨0x7010, 4, 0x05, 1, .u8, .rw, 1, [(0, 0)], 0x0⟩,
  ⟨0x7010, 4, 0x06, 1, .u32, .rw, 1, [(0, 0)], 0x0⟩,
  ⟨0x7010, 4, 0x07, 1, .bool, .ro, 0, [], 0x0⟩,
  ⟨0x7020, 6, 0x01, 1, .u64, .ro, 1, [], 0x0⟩,
  ⟨0x7020, 6, 0x02, 1, .u32, .rw, 1, [(0, 0)], 0x0⟩,
  ⟨0x7040, 16, 0x01, 1, .u32, .ro, 0, [], 0x0⟩,
  ⟨0x7040, 16, 0x02, 1, .u32, .ro, 0, [], 0x0⟩,
  ⟨0x7040, 16, 0x03, 1, .u32, .rws, 1, [(4000, 200000)], 0x0⟩,
  ⟨0x7040, 16, 0x04, 1, .u32, .rws, 1, [(2000, 200000)], 0x0⟩,
  ⟨0x7040, 16, 0x05, 1, .u32, .rws, 1, [(2000, 200000)], 0x0⟩,
  ⟨0x7040, 16, 0x06, 1, .u8, .ro, 1, [], 0x0⟩,
  ⟨0x7040, 16, 0x07, 1, .u32, .ro, 0, [], 0x0⟩,
  ⟨0x7040, 16, 0x08, 1, .u32, .ro, 0, [], 0x0⟩,
  ⟨0x5000, 16, 0x01, 1, .u8, .ro, 0, [], 0x0⟩]

/-- Rows 181–240 of the object tables, in the order of the chapters. -/
def objRows4 : List ObjRow := [
  ⟨0x5000, 16, 0x02, 1, .u8, .wo, 0, [], 0x0⟩,
  ⟨0x5000, 16, 0x03, 1, .u32, .ro, 0, [], 0x0⟩,
  ⟨0x5000, 16, 0x04, 1, .u16, .ro, 1, [], 0x0⟩,
  ⟨0x5000, 16, 0x05, 1, .u64, .ro, 1, [], 0x0⟩,
  ⟨0x5000, 16, 0x06, 1, .u32, .rw, 1, [], 0xF000FFFF⟩,
  ⟨0x5000, 16, 0x07, 1, (.blob 4 4096), .rw, 1, [], 0x0⟩,
  ⟨0x5000, 16, 0x08, 1, (.blob 292 292), .ro, 1, [], 0x0⟩,
  ⟨0x5000, 16, 0x09, 1, .bool, .rw, 0, [], 0x0⟩,
  ⟨0x6000, 1, 0x01, 1, .u16, .rw, 0, [(0, 4095)], 0x0⟩,
  ⟨0x6000, 1, 0x02, 1, .u32, .rw, 0, [], 0x0⟩,
  ⟨0x6000, 1, 0x03, 1, .u64, .ro, 1, [], 0x0⟩,
  ⟨0x6000, 1, 0x04, 1, .u32, .ro, 1, [], 0x0⟩,
  ⟨0x6000, 1, 0x05, 1, .u32, .ro, 1, [], 0x0⟩,
  ⟨0x6000, 1, 0x06, 1, .u16, .ro, 0, [], 0x0⟩,
  ⟨0x6000, 1, 0x07, 1, .u32, .ro, 0, [], 0x0⟩,
  ⟨0x6000, 1, 0x20, 32, .u16, .ro, 0, [], 0x0⟩,
  ⟨0x6001, 1, 0x01, 1, .u8, .ro, 0, [], 0x0⟩,
  ⟨0x6001, 1, 0x02, 1, .u8, .wo, 0, [], 0x0⟩,
  ⟨0x6001, 1, 0x03, 1, .u8, .rw, 0, [(0, 31)], 0x0⟩,
  ⟨0x6001, 1, 0x04, 1, .u32, .rw, 0, [], 0xFFFFF⟩,
  ⟨0x6001, 1, 0x05, 1, .u8, .rw, 0, [], 0x0⟩,
  ⟨0x6001, 1, 0x06, 1, .u32, .rw, 0, [], 0x0⟩,
  ⟨0x6001, 1, 0x07, 1, .u32, .rw, 0, [], 0x0⟩,
  ⟨0x6001, 1, 0x08, 1, .u32, .rw, 0, [], 0x0⟩,
  ⟨0x6001, 1, 0x09, 1, .u16, .rw, 0, [(0, 4095), (65535, 65535)], 0x0⟩,
  ⟨0x6001, 1, 0x0A, 1, .u8, .ro, 1, [], 0x0⟩,
  ⟨0x6001, 1, 0x0B, 1, .u16, .ro, 0, [], 0x0⟩,
  ⟨0x6001, 1, 0x0C, 1, .u8, .ro, 0, [], 0x0⟩,
  ⟨0x6001, 1, 0x0D, 1, .u32, .ro, 0, [], 0x0⟩,
  ⟨0x6001, 1, 0x0E, 1, .u32, .rw, 0, [(0, 0)], 0x0⟩,
  ⟨0x6001, 1, 0x0F, 1, .u32, .ro, 0, [], 0x0⟩,
  ⟨0x6001, 1, 0x10, 1, .u32, .rw, 0, [(0, 0)], 0x0⟩,
  ⟨0x6010, 20, 0x01, 1, .u16, .ro, 0, [], 0x0⟩,
  ⟨0x6010, 20, 0x02, 1, .u32, .ro, 0, [], 0x0⟩,
  ⟨0x6010, 20, 0x03, 1, .u32, .ro, 1, [], 0x0⟩,
  ⟨0x6010, 20, 0x04, 1, .u16, .ro, 1, [], 0x0⟩,
  ⟨0x6040, 1, 0x01, 1, .u32, .rw, 0, [(0, 262143)], 0x0⟩,
  ⟨0x6040, 1, 0x02, 1, .u8, .rw, 0, [(1, 64)], 0x0⟩,
  ⟨0x6040, 1, 0x03, 1, .u16, .rw, 0, [], 0x0⟩,
  ⟨0x6040, 1, 0x04, 1, .u64, .rw, 1, [], 0x0⟩,
  ⟨0x6040, 1, 0x05, 1, .u64, .rw, 1, [], 0x0⟩,
  ⟨0x6040, 1, 0x06, 1, .u32, .ro, 0, [], 0x0⟩,
  ⟨0x6040, 1, 0x07, 1, .u32, .ro, 0, [], 0x0⟩,
  ⟨0x6040, 1, 0x08, 1, .u64, .ro, 0, [], 0x0⟩,
  ⟨0x6040, 1, 0x09, 1, .u64, .rw, 0, [(0, 0)], 0x0⟩,
  ⟨0x6040, 1, 0x0A, 1, .u64, .rw, 0, [(0, 0)], 0x0⟩,
  ⟨0x6040, 1, 0x0B, 1, .u32, .rw, 0, [(0, 0)], 0x0⟩,
  ⟨0x6040, 1, 0x0C, 1, .u32, .rw, 1, [(0, 0)], 0x0⟩,
  ⟨0x6040, 1, 0x0D, 1, .u64, .w1c, 0, [], 0x0⟩,
  ⟨0x6040, 1, 0x0E, 1, .bool, .rw, 0, [], 0x0⟩,
  ⟨0x6041, 1, 0x01, 1, .u32, .ro, 0, [], 0x0⟩,
  ⟨0x6041, 1, 0x02, 1, .u32, .rw, 0, [], 0x0⟩,
  ⟨0x6041, 1, 0x03, 1, (.blob 0 65535), .ro, 0, [], 0x0⟩,
  ⟨0x6041, 1, 0x04, 1, .bool, .wo, 0, [], 0x0⟩,
  ⟨0x6041, 1, 0x05, 1, .u32, .rw, 0, [(0, 0)], 0x0⟩,
  ⟨0x6041, 1, 0x06, 1, .u32, .rw, 0, [(0, 0)], 0x0⟩,
  ⟨0x6041, 1, 0x07, 1, (.blob 512 512), .w1c, 0, [], 0x0⟩,
  ⟨0x8000, 1, 0x01, 1, .u8, .rw, 0, [(0, 1)], 0x0⟩,
  ⟨0x8000, 1, 0x02, 1, .u16, .rw, 0, [(1, 1000)], 0x0⟩,
  ⟨0x8000, 1, 0x03, 1, .time96, .ro, 0, [], 0x0⟩]

/-- Rows 241–300 of the object tables, in the order of the chapters. -/
def objRows5 : List ObjRow := [
  ⟨0x8000, 1, 0x04, 1, .s64, .ro, 1, [], 0x0⟩,
  ⟨0x8000, 1, 0x05, 1, .s64, .ro, 0, [], 0x0⟩,
  ⟨0x8000, 1, 0x06, 1, .bool, .ro, 0, [], 0x0⟩,
  ⟨0x8000, 1, 0x07, 1, .u32, .ro, 0, [], 0x0⟩,
  ⟨0x8000, 1, 0x08, 1, .u32, .ro, 0, [], 0x0⟩,
  ⟨0x8000, 1, 0x09, 1, .u64, .ro, 1, [], 0x0⟩,
  ⟨0x8000, 1, 0x0A, 1, .u32, .ro, 1, [], 0x0⟩,
  ⟨0x8000, 1, 0x0B, 1, (.blob 44 44), .ro, 1, [], 0x0⟩,
  ⟨0x8010, 2, 0x01, 1, .bool, .rw, 0, [], 0x0⟩,
  ⟨0x8010, 2, 0x02, 1, .u8, .ro, 0, [], 0x0⟩,
  ⟨0x8010, 2, 0x03, 1, .time96, .ro, 0, [], 0x0⟩,
  ⟨0x8010, 2, 0x04, 1, .u64, .rw, 1, [], 0x0⟩,
  ⟨0x8010, 2, 0x05, 1, .s32, .rw, 0, [(-1000000, 1000000)], 0x0⟩,
  ⟨0x8010, 2, 0x06, 1, .s64, .wo, 1, [], 0x0⟩,
  ⟨0x8010, 2, 0x07, 1, .s64, .wo, 0, [], 0x0⟩,
  ⟨0x8010, 2, 0x08, 1, .time96, .wo, 0, [], 0x0⟩,
  ⟨0x8010, 2, 0x09, 1, .u8, .rw, 0, [(0, 1)], 0x0⟩,
  ⟨0x8010, 2, 0x0A, 1, .u32, .rw, 0, [(100, 1000000000)], 0x0⟩,
  ⟨0x8010, 2, 0x0B, 1, .u16, .rw, 1, [(1, 1024)], 0x0⟩,
  ⟨0x8010, 2, 0x0C, 1, .s64, .ro, 0, [], 0x0⟩,
  ⟨0x8010, 2, 0x0D, 1, .s64, .ro, 0, [], 0x0⟩,
  ⟨0x8010, 2, 0x20, 1, .bool, .rw, 0, [], 0x0⟩,
  ⟨0x8010, 2, 0x21, 1, .u8, .rws, 0, [(0, 3)], 0x0⟩,
  ⟨0x8010, 2, 0x22, 1, .u8, .rws, 0, [(0, 2)], 0x0⟩,
  ⟨0x8010, 2, 0x23, 1, .u8, .rws, 0, [], 0x0⟩,
  ⟨0x8010, 2, 0x24, 1, .u8, .rws, 0, [(0, 1)], 0x0⟩,
  ⟨0x8010, 2, 0x25, 1, .bool, .rws, 0, [], 0x0⟩,
  ⟨0x8010, 2, 0x26, 1, .bool, .rws, 0, [], 0x0⟩,
  ⟨0x8010, 2, 0x27, 1, .u8, .rws, 0, [], 0x0⟩,
  ⟨0x8010, 2, 0x28, 1, .u8, .rws, 0, [], 0x0⟩,
  ⟨0x8010, 2, 0x29, 1, .s8, .rws, 0, [(-7, 4)], 0x0⟩,
  ⟨0x8010, 2, 0x2A, 1, .s8, .rws, 0, [(-3, 4)], 0x0⟩,
  ⟨0x8010, 2, 0x2B, 1, .s8, .rws, 0, [(-7, 5)], 0x0⟩,
  ⟨0x8010, 2, 0x2C, 1, .u8, .rws, 0, [(2, 255)], 0x0⟩,
  ⟨0x8010, 2, 0x2D, 1, .u8, .ro, 0, [], 0x0⟩,
  ⟨0x8010, 2, 0x2E, 1, (.blob 10 10), .ro, 0, [], 0x0⟩,
  ⟨0x8010, 2, 0x2F, 1, .s16, .ro, 0, [], 0x0⟩,
  ⟨0x8020, 4, 0x01, 1, .s64, .rw, 0, [], 0x0⟩,
  ⟨0x8020, 4, 0x02, 1, .s64, .rw, 0, [], 0x0⟩,
  ⟨0x8020, 4, 0x03, 1, .s64, .rw, 0, [], 0x0⟩,
  ⟨0x8020, 4, 0x04, 1, .u32, .ro, 1, [], 0x0⟩,
  ⟨0x8040, 16, 0x01, 1, .u8, .rw, 0, [], 0x0⟩,
  ⟨0x8040, 16, 0x02, 1, .u64, .rw, 1, [], 0x0⟩,
  ⟨0x8040, 16, 0x03, 1, .time96, .rw, 0, [], 0x0⟩,
  ⟨0x8040, 16, 0x04, 1, .u64, .rw, 1, [], 0x0⟩,
  ⟨0x8040, 16, 0x05, 1, .u64, .rw, 0, [], 0x0⟩,
  ⟨0x8040, 16, 0x06, 1, .u8, .ro, 0, [], 0x0⟩,
  ⟨0x8040, 16, 0x07, 1, .u8, .rw, 0, [], 0x0⟩,
  ⟨0x8040, 16, 0x08, 1, .bool, .rw, 1, [], 0x0⟩,
  ⟨0x8040, 16, 0x09, 1, .u32, .rw, 0, [(0, 0)], 0x0⟩,
  ⟨0x8040, 16, 0x0A, 1, .u32, .rw, 0, [(0, 0)], 0x0⟩,
  ⟨0x8040, 16, 0x0B, 1, .time96, .ro, 0, [], 0x0⟩,
  ⟨0x8040, 16, 0x0C, 1, .u64, .ro, 1, [], 0x0⟩,
  ⟨0x9000, 1, 0x01, 1, .bool, .rw, 0, [], 0x0⟩,
  ⟨0x9000, 1, 0x02, 1, .bool, .rw, 0, [], 0x0⟩,
  ⟨0x9000, 1, 0x03, 1, .u8, .wo, 0, [], 0x0⟩,
  ⟨0x9000, 1, 0x04, 1, .u8, .ro, 0, [], 0x0⟩,
  ⟨0x9000, 1, 0x05, 1, .u8, .ro, 0, [], 0x0⟩,
  ⟨0x9000, 1, 0x06, 1, .u8, .ro, 0, [], 0x0⟩,
  ⟨0x9000, 1, 0x07, 1, .u8, .ro, 0, [], 0x0⟩]

/-- Rows 301–360 of the object tables, in the order of the chapters. -/
def objRows6 : List ObjRow := [
  ⟨0x9000, 1, 0x08, 1, .u64, .ro, 1, [], 0x0⟩,
  ⟨0x9000, 1, 0x09, 1, .u64, .ro, 1, [], 0x0⟩,
  ⟨0x9000, 1, 0x0A, 1, .u16, .ro, 0, [], 0x0⟩,
  ⟨0x9000, 1, 0x0B, 1, .u16, .ro, 0, [], 0x0⟩,
  ⟨0x9000, 1, 0x0C, 1, .u64, .ro, 1, [], 0x0⟩,
  ⟨0x9000, 1, 0x0D, 1, .u32, .ro, 1, [], 0x0⟩,
  ⟨0x9000, 1, 0x10, 1, .u32, .wo, 0, [], 0x0⟩,
  ⟨0x9000, 1, 0x11, 1, .u32, .rw, 0, [], 0x0⟩,
  ⟨0x9000, 1, 0x12, 1, .u32, .wo, 0, [], 0x0⟩,
  ⟨0x9000, 1, 0x13, 1, (.blob 8 8), .wo, 0, [], 0x0⟩,
  ⟨0x9000, 1, 0x14, 1, .bool, .rw, 0, [], 0x0⟩,
  ⟨0x9000, 1, 0x15, 1, .u16, .rw, 0, [(0, 4095), (65535, 65535)], 0x0⟩,
  ⟨0x9000, 1, 0x16, 1, .u64, .ro, 0, [], 0x0⟩,
  ⟨0x9000, 1, 0x17, 1, .u32, .rw, 0, [(0, 0)], 0x0⟩,
  ⟨0x9000, 1, 0x18, 1, .u32, .rw, 0, [(0, 0)], 0x0⟩,
  ⟨0x9000, 1, 0x19, 1, .u32, .rw, 1, [(0, 0)], 0x0⟩,
  ⟨0x9000, 1, 0x20, 1, .u16, .rw, 0, [], 0x0⟩,
  ⟨0x9000, 1, 0x21, 1, .u16, .ro, 0, [], 0x0⟩,
  ⟨0x9010, 16, 0x01, 1, .u8, .rws, 0, [(0, 15), (255, 255)], 0x0⟩,
  ⟨0xA000, 1, 0x01, 1, .u8, .rw, 0, [(0, 2)], 0x0⟩,
  ⟨0xA000, 1, 0x02, 1, .u32, .rw, 0, [(0, 0)], 0x0⟩,
  ⟨0xA000, 1, 0x03, 1, .u32, .ro, 0, [], 0x0⟩,
  ⟨0xA010, 1, 0x01, 1, .bool, .rw, 0, [], 0x0⟩,
  ⟨0xA010, 1, 0x02, 1, (.blob 5 5), .rw, 1, [], 0x0⟩,
  ⟨0xA010, 1, 0x03, 1, .u8, .rw, 1, [], 0x0⟩,
  ⟨0xA010, 1, 0x04, 1, .u8, .ro, 0, [], 0x0⟩,
  ⟨0xA010, 1, 0x05, 1, .u8, .wo, 0, [], 0x0⟩,
  ⟨0xA010, 1, 0x06, 1, .u8, .ro, 0, [], 0x0⟩,
  ⟨0xA010, 1, 0x07, 1, .u32, .rw, 0, [], 0x0⟩,
  ⟨0xA010, 1, 0x08, 1, .u8, .rw, 0, [(0, 15), (255, 255)], 0x0⟩,
  ⟨0xA010, 1, 0x09, 1, .u32, .rw, 1, [(0, 16777215)], 0x0⟩,
  ⟨0xA010, 1, 0x0A, 1, .u64, .rw, 1, [], 0xFFFFFFFFFFFF⟩,
  ⟨0xA010, 1, 0x0B, 1, .u64, .rw, 0, [], 0x0⟩,
  ⟨0xA010, 1, 0x0C, 1, .u16, .rw, 1, [], 0x0⟩,
  ⟨0xA010, 1, 0x0D, 1, .bool, .ro, 0, [], 0x0⟩,
  ⟨0xA010, 1, 0x0E, 1, .time96, .ro, 0, [], 0x0⟩,
  ⟨0xA010, 1, 0x0F, 1, .u8, .ro, 0, [], 0x0⟩,
  ⟨0xA010, 1, 0x10, 1, .u32, .rw, 0, [(0, 0)], 0x0⟩,
  ⟨0xA010, 1, 0x11, 1, .u32, .rw, 1, [(0, 0)], 0x0⟩,
  ⟨0xA020, 1, 0x01, 1, .bool, .rw, 0, [], 0x0⟩,
  ⟨0xA020, 1, 0x02, 1, (.blob 5 5), .rw, 1, [], 0x0⟩,
  ⟨0xA020, 1, 0x03, 1, .u8, .ro, 0, [], 0x0⟩,
  ⟨0xA020, 1, 0x04, 1, .u8, .rw, 0, [], 0x0⟩,
  ⟨0xA020, 1, 0x05, 1, .u8, .rw, 0, [], 0x0⟩,
  ⟨0xA020, 1, 0x06, 1, .u32, .rw, 0, [], 0x0⟩,
  ⟨0xA020, 1, 0x07, 1, .u32, .rw, 0, [], 0x0⟩,
  ⟨0xA020, 1, 0x08, 1, .u8, .rw, 0, [], 0x0⟩,
  ⟨0xA020, 1, 0x09, 1, .u32, .rw, 0, [], 0x0⟩,
  ⟨0xA020, 1, 0x0A, 1, .u8, .wo, 0, [], 0x0⟩,
  ⟨0xA020, 1, 0x0B, 1, .u8, .rw, 0, [(0, 15), (255, 255)], 0x0⟩,
  ⟨0xA020, 1, 0x0C, 1, .u32, .ro, 0, [], 0x0⟩,
  ⟨0xA020, 1, 0x0D, 1, .u16, .rw, 0, [(0, 4095), (65535, 65535)], 0x0⟩,
  ⟨0xA020, 1, 0x0E, 1, .time96, .ro, 0, [], 0x0⟩,
  ⟨0xA020, 1, 0x0F, 1, .u32, .rw, 0, [(0, 0)], 0x0⟩,
  ⟨0xA020, 1, 0x10, 1, .u32, .rw, 1, [(0, 0)], 0x0⟩,
  ⟨0xB000, 1, 0x01, 1, .u8, .ro, 0, [], 0x0⟩,
  ⟨0xB000, 1, 0x02, 1, .u32, .rw, 1, [(10, 10000)], 0x0⟩,
  ⟨0xB000, 1, 0x03, 1, .u32, .ro, 0, [], 0x0⟩,
  ⟨0xB000, 1, 0x04, 1, .u32, .ro, 0, [], 0x0⟩,
  ⟨0xB000, 1, 0x05, 1, .u64, .ro, 1, [], 0x0⟩]

/-- Rows 361–420 of the object tables, in the order of the chapters. -/
def objRows7 : List ObjRow := [
  ⟨0xB010, 16, 0x01, 1, .u8, .ro, 0, [], 0x0⟩,
  ⟨0xB010, 16, 0x02, 1, .u8, .ro, 0, [], 0x0⟩,
  ⟨0xB010, 16, 0x03, 1, .u16, .ro, 0, [], 0x0⟩,
  ⟨0xB010, 16, 0x04, 1, .s16, .ro, 0, [], 0x0⟩,
  ⟨0xB100, 256, 0x01, 1, .u8, .ro, 0, [], 0x0⟩,
  ⟨0xB200, 8, 0x01, 1, .u8, .ro, 0, [], 0x0⟩,
  ⟨0xB200, 8, 0x02, 1, (.blob 32 32), .rw, 1, [], 0x0⟩,
  ⟨0xB200, 8, 0x03, 1, .u8, .ro, 0, [], 0x0⟩,
  ⟨0xB200, 8, 0x04, 1, .bool, .rw, 0, [], 0x0⟩,
  ⟨0xB200, 8, 0x05, 1, .s64, .ro, 0, [], 0x0⟩,
  ⟨0xB200, 8, 0x06, 1, .s64, .ro, 0, [], 0x0⟩,
  ⟨0xC000, 1, 0x01, 1, (.blob 64 64), .w1c, 0, [], 0x0⟩,
  ⟨0xC000, 1, 0x02, 1, .u64, .ro, 0, [], 0x0⟩,
  ⟨0xC000, 1, 0x03, 1, .u8, .ro, 0, [], 0x0⟩,
  ⟨0xC000, 1, 0x04, 1, .bool, .ro, 0, [], 0x0⟩,
  ⟨0xC000, 1, 0x05, 1, .u8, .wo, 0, [], 0x0⟩,
  ⟨0xC000, 1, 0x06, 1, .u8, .ro, 0, [], 0x0⟩,
  ⟨0xC000, 1, 0x07, 1, .u8, .rw, 0, [], 0x7⟩,
  ⟨0xC000, 1, 0x08, 1, .u8, .w1c, 0, [], 0x7⟩,
  ⟨0xC010, 4, 0x01, 1, .u8, .rw, 0, [(0, 3)], 0x0⟩,
  ⟨0xC010, 4, 0x02, 1, .u8, .rw, 0, [], 0x0⟩,
  ⟨0xC010, 4, 0x03, 1, .bool, .ro, 0, [], 0x0⟩,
  ⟨0xC010, 4, 0x04, 1, .u16, .rw, 0, [(0, 0)], 0x0⟩,
  ⟨0x1000, 1, 0x01, 1, .u8, .ro, 0, [], 0x0⟩,
  ⟨0x1000, 1, 0x02, 1, .u32, .rw, 0, [(5, 3600)], 0x0⟩,
  ⟨0x1000, 1, 0x03, 1, .u16, .rw, 1, [(5, 1000)], 0x0⟩,
  ⟨0x1000, 1, 0x04, 1, .u16, .rw, 1, [(1, 10000)], 0x0⟩,
  ⟨0x1000, 1, 0x05, 1, .u32, .rw, 1, [(0, 0)], 0x0⟩,
  ⟨0x1001, 1, 0x01, 1, .u16, .ro, 0, [], 0x0⟩,
  ⟨0x1001, 1, 0x02, 1, .u8, .ro, 0, [], 0x0⟩,
  ⟨0x1001, 1, 0x03, 1, .bool, .rw, 0, [], 0x0⟩,
  ⟨0x1001, 1, 0x04, 1, .u32, .ro, 1, [], 0x0⟩,
  ⟨0x1001, 1, 0x05, 1, .u32, .ro, 1, [], 0x0⟩,
  ⟨0x1001, 1, 0x06, 1, .u16, .ro, 0, [], 0x0⟩,
  ⟨0x1001, 1, 0x07, 1, .u32, .rw, 0, [(0, 0)], 0x0⟩,
  ⟨0x1010, 4, 0x01, 1, .u8, .ro, 0, [], 0x0⟩,
  ⟨0x1010, 4, 0x02, 1, (.blob 6 6), .ro, 0, [], 0x0⟩,
  ⟨0x1010, 4, 0x03, 1, .u32, .rw, 0, [], 0x0⟩,
  ⟨0x1010, 4, 0x04, 1, .u32, .rw, 0, [], 0x0⟩,
  ⟨0x1010, 4, 0x05, 1, .u32, .rw, 0, [], 0x0⟩,
  ⟨0x1010, 4, 0x06, 1, (.blob 16 16), .rw, 0, [], 0x0⟩,
  ⟨0x1010, 4, 0x07, 1, .u8, .rw, 0, [(0, 128)], 0x0⟩,
  ⟨0x1010, 4, 0x08, 1, .u16, .rw, 0, [(1500, 9216)], 0x0⟩,
  ⟨0x1010, 4, 0x09, 1, .u16, .rw, 0, [(1024, 65535)], 0x0⟩,
  ⟨0x1010, 4, 0x0A, 1, .bool, .rw, 0, [], 0x0⟩,
  ⟨0x1010, 4, 0x0B, 1, .u8, .ro, 1, [], 0x0⟩,
  ⟨0x1800, 1, 0x00, 1, (.blob 0 0), .rw, 1, [], 0x0⟩,
  ⟨0x0000, 1, 0x01, 1, .str, .ro, 0, [], 0x0⟩,
  ⟨0x0000, 1, 0x02, 1, .str, .ro, 0, [], 0x0⟩,
  ⟨0x0000, 1, 0x03, 1, .u8, .ro, 0, [], 0x0⟩,
  ⟨0x0000, 1, 0x04, 1, .u64, .ro, 0, [], 0x0⟩,
  ⟨0x0000, 1, 0x05, 1, .u32, .ro, 0, [], 0x0⟩,
  ⟨0x0000, 1, 0x06, 1, .u16, .ro, 0, [], 0x0⟩,
  ⟨0x0000, 1, 0x07, 1, .u8, .ro, 0, [], 0x0⟩,
  ⟨0x0000, 1, 0x08, 1, .u16, .ro, 0, [], 0x0⟩,
  ⟨0xD000, 1, 0x01, 1, .u8, .ro, 0, [], 0x0⟩,
  ⟨0xD000, 1, 0x02, 1, .bool, .rw, 2, [], 0x0⟩,
  ⟨0xD000, 1, 0x03, 1, .u8, .wo, 2, [], 0x0⟩,
  ⟨0xD000, 1, 0x04, 1, .bool, .wo, 2, [], 0x0⟩,
  ⟨0xD000, 1, 0x05, 1, .u32, .ro, 0, [], 0x0⟩]

/-- Rows 421–455 of the object tables, in the order of the chapters. -/
def objRows8 : List ObjRow := [
  ⟨0xD000, 1, 0x06, 1, (.blob 97 97), .ro, 0, [], 0x0⟩,
  ⟨0xD000, 1, 0x07, 1, (.blob 512 512), .ro, 0, [], 0x0⟩,
  ⟨0xD000, 1, 0x08, 1, .bool, .ro, 0, [], 0x0⟩,
  ⟨0xD000, 1, 0x09, 1, .u32, .rw, 0, [(0, 0)], 0x0⟩,
  ⟨0xD000, 1, 0x0A, 1, .u8, .ro, 0, [], 0x0⟩,
  ⟨0xD000, 1, 0x10, 4, (.blob 97 97), .rw, 2, [], 0x0⟩,
  ⟨0xD000, 1, 0x14, 1, .u8, .w1c, 2, [], 0x0⟩,
  ⟨0xD000, 1, 0x18, 4, (.blob 145 145), .wo, 2, [], 0x0⟩,
  ⟨0xD000, 1, 0x1C, 1, .u8, .ro, 0, [], 0x0⟩,
  ⟨0xD000, 1, 0x20, 1, .bool, .rw, 3, [], 0x0⟩,
  ⟨0xD000, 1, 0x21, 1, .u8, .w1c, 3, [], 0x0⟩,
  ⟨0xD000, 1, 0x22, 1, .u8, .wo, 2, [], 0x0⟩,
  ⟨0xD010, 64, 0x01, 1, .u8, .ro, 0, [], 0x0⟩,
  ⟨0xD010, 64, 0x02, 1, (.blob 48 48), .wo, 2, [], 0x0⟩,
  ⟨0xD010, 64, 0x03, 1, .u32, .ro, 0, [], 0x0⟩,
  ⟨0xD010, 64, 0x04, 1, .bool, .wo, 2, [], 0x0⟩,
  ⟨0xD010, 64, 0x05, 1, .u32, .ro, 0, [], 0x0⟩,
  ⟨0xD010, 64, 0x06, 1, .u32, .ro, 0, [], 0x0⟩,
  ⟨0xE000, 1, 0x01, 1, .u8, .ro, 0, [], 0x0⟩,
  ⟨0xE000, 1, 0x02, 1, .u8, .ro, 0, [], 0x0⟩,
  ⟨0xE000, 1, 0x03, 1, .u32, .ro, 0, [], 0x0⟩,
  ⟨0xE000, 1, 0x04, 1, .u8, .wo, 0, [], 0x0⟩,
  ⟨0xE000, 1, 0x05, 1, .u8, .ro, 0, [], 0x0⟩,
  ⟨0xE000, 1, 0x06, 1, .u8, .ro, 0, [], 0x0⟩,
  ⟨0xE000, 1, 0x07, 1, .u32, .ro, 0, [], 0x0⟩,
  ⟨0xE000, 1, 0x08, 1, .u16, .ro, 0, [], 0x0⟩,
  ⟨0xE000, 1, 0x09, 1, .u16, .ro, 1, [], 0x0⟩,
  ⟨0xE000, 1, 0x10, 1, (.blob 1 4294967295), .wo, 0, [], 0x0⟩,
  ⟨0xE000, 1, 0x11, 1, .u8, .wo, 0, [], 0x0⟩,
  ⟨0xE000, 1, 0x12, 1, .u8, .ro, 0, [], 0x0⟩,
  ⟨0xE000, 1, 0x13, 1, .u8, .ro, 0, [], 0x0⟩,
  ⟨0xE000, 1, 0x20, 7, .u32, .ro, 0, [], 0x0⟩,
  ⟨0xE000, 1, 0x27, 1, .u32, .ro, 0, [], 0x0⟩,
  ⟨0xE010, 16, 0x01, 1, .s16, .ro, 0, [], 0x0⟩,
  ⟨0xE010, 16, 0x02, 1, .s16, .rw, 0, [], 0x0⟩]

/-- Every object of the device with a name (R394). -/
def objRows : List ObjRow :=
  objRows1 ++ objRows2 ++ objRows3 ++ objRows4 ++ objRows5 ++ objRows6 ++ objRows7 ++ objRows8

/-- Defaults other than 0 (R374): base, instances, first subindex, subindexes, default. The default
"g" of CG_GANG and "d" of PTP_PORT and PTP_DOMAIN_NUMBER are given by `objDefault`. -/
def objDefaults : List (Nat × Nat × Nat × Nat × Nat) := [
  (0x2000, 16, 0x03, 1, 0x1),
  (0x2000, 16, 0x05, 1, 0xFFFF),
  (0x3000, 16, 0x01, 1, 0x2625A0),
  (0x3000, 16, 0x02, 1, 0x1000),
  (0x3000, 16, 0x03, 1, 0x1000),
  (0x3200, 8, 0x02, 1, 0x989680),
  (0x3200, 8, 0x03, 1, 0x4000),
  (0x3200, 8, 0x04, 1, 0x2),
  (0x3200, 8, 0x06, 1, 0x4C4B40),
  (0x3200, 8, 0x08, 1, 0xFF),
  (0x4000, 16, 0x05, 1, 0x800),
  (0x4000, 16, 0x06, 1, 0xFFFF),
  (0x4000, 16, 0x11, 1, 0x1040),
  (0x4000, 16, 0x12, 1, 0xDFC0),
  (0x4000, 16, 0x13, 1, 0xDFC0),
  (0x4000, 16, 0x1A, 1, 0x1000),
  (0x4000, 16, 0x1B, 1, 0xFFFF),
  (0x4000, 16, 0x1D, 1, 0xDFC0),
  (0x4100, 256, 0x01, 1, 0xFF),
  (0x4200, 64, 0x01, 1, 0x1),
  (0x2060, 16, 0x01, 16, 0xFFFFFFFF),
  (0x2060, 16, 0x14, 1, 0xFF),
  (0x2060, 16, 0x18, 1, 0xFF),
  (0x2080, 8, 0x06, 1, 0x3E8),
  (0x2090, 8, 0x04, 1, 0x10),
  (0x7000, 1, 0x10, 1, 0x64),
  (0x7000, 1, 0x11, 1, 0xBB8),
  (0x7000, 1, 0x18, 1, 0x18),
  (0x7040, 16, 0x03, 1, 0x4E20),
  (0x7040, 16, 0x04, 1, 0x7D0),
  (0x7040, 16, 0x05, 1, 0xFA0),
  (0x7040, 16, 0x06, 1, 0x30),
  (0x6000, 1, 0x02, 1, 0x3E8),
  (0x6001, 1, 0x03, 1, 0x1F),
  (0x6001, 1, 0x09, 1, 0xFFFF),
  (0x6001, 1, 0x0C, 1, 0xFF),
  (0x6010, 20, 0x01, 1, 0xFFFF),
  (0x6010, 20, 0x04, 1, 0xFFFF),
  (0x6040, 1, 0x02, 1, 0x10),
  (0x6040, 1, 0x03, 1, 0x40),
  (0x6040, 1, 0x06, 1, 0xF000),
  (0x6041, 1, 0x02, 1, 0xFFFFFFFF),
  (0x8000, 1, 0x02, 1, 0x64),
  (0x8010, 2, 0x01, 1, 0x1),
  (0x8010, 2, 0x02, 1, 0x1),
  (0x8010, 2, 0x04, 1, 0x400000000),
  (0x8010, 2, 0x09, 1, 0x1),
  (0x8010, 2, 0x0A, 1, 0x3E8),
  (0x8010, 2, 0x0B, 1, 0x10),
  (0x8010, 2, 0x22, 1, 0x1),
  (0x8010, 2, 0x26, 1, 0x1),
  (0x8010, 2, 0x27, 1, 0x80),
  (0x8010, 2, 0x28, 1, 0x80),
  (0x8010, 2, 0x2A, 1, 0x1),
  (0x8010, 2, 0x2C, 1, 0x3),
  (0x8010, 2, 0x2D, 1, 0x1),
  (0x8040, 16, 0x04, 1, 0xF4240000000),
  (0x8040, 16, 0x05, 1, 0xE8D4A51000),
  (0x9000, 1, 0x06, 1, 0xFF),
  (0x9000, 1, 0x15, 1, 0xFFFF),
  (0x9010, 16, 0x01, 1, 0xFF),
  (0xA000, 1, 0x01, 1, 0x1),
  (0xA010, 1, 0x07, 1, 0xFFFFFFFF),
  (0xA010, 1, 0x08, 1, 0xFF),
  (0xA020, 1, 0x06, 1, 0xF000),
  (0xA020, 1, 0x07, 1, 0x1000),
  (0xA020, 1, 0x09, 1, 0x1000),
  (0xA020, 1, 0x0B, 1, 0xFF),
  (0xA020, 1, 0x0D, 1, 0xFFFF),
  (0xB000, 1, 0x02, 1, 0x1F4),
  (0xC000, 1, 0x07, 1, 0x6),
  (0xC010, 4, 0x01, 1, 0x3),
  (0x1000, 1, 0x02, 1, 0x1E),
  (0x1000, 1, 0x03, 1, 0x14),
  (0x1000, 1, 0x04, 1, 0xA),
  (0x1010, 4, 0x08, 1, 0x5DC),
  (0x1010, 4, 0x09, 1, 0xA000),
  (0x0000, 1, 0x06, 1, 0x100),
  (0x0000, 1, 0x08, 1, 0x100),
  (0xE000, 1, 0x09, 1, 0xFFFF)]

/-- The default of the object with a key (R374). -/
def objDefault (k : Nat) : Nat :=
  let idx := k / 256
  let sub := k % 256
  if sub = 2 ∧ 0x2000 ≤ idx ∧ idx ≤ 0x200F then idx - 0x2000
  else if (sub = 0x21 ∨ sub = 0x23) ∧ 0x8010 ≤ idx ∧ idx ≤ 0x8011 then idx - 0x8010
  else match objDefaults.find? (fun r => r.1 ≤ idx && idx < r.1 + r.2.1 && r.2.2.1 ≤ sub && sub < r.2.2.1 + r.2.2.2.1) with
    | some r => r.2.2.2.2
    | none => 0

/-- The row that defines an index and subindex, if any (R386, R388). -/
def objRow (index sub : Nat) : Option ObjRow :=
  objRows.find? (fun r => r.base ≤ index && index < r.base + r.n && r.lo ≤ sub && sub < r.lo + r.subs)

/-- Whether an index is that of a record of the capability list (R391). -/
def isCapIndex (index : Nat) : Bool := 0x0100 ≤ index && index ≤ 0x0112

/-- Whether an index is defined and its instance present (R386, R388). -/
def indexDefined (index : Nat) : Bool :=
  isCapIndex index || objRows.any (fun r => r.base ≤ index && index < r.base + r.n)

/-- Bytes of a value of a fixed-size type (R371). -/
def ObjTy.size : ObjTy → Nat
  | .bool | .u8 | .s8 => 1
  | .u16 | .s16 => 2
  | .u32 | .s32 => 4
  | .u64 | .s64 => 8
  | .time96 => 12
  | .str => 255
  | .blob _ hi => hi

/-- Whether a type is signed. -/
def ObjTy.signed : ObjTy → Bool
  | .s8 | .s16 | .s32 | .s64 => true
  | _ => false

/-- The payload lengths a WRITE may carry (R371). -/
def ObjTy.lengthOk (t : ObjTy) (n : Nat) : Bool :=
  match t with
  | .blob lo hi => lo ≤ n && n ≤ hi
  | .str => n ≤ 255
  | _ => n = t.size

end Sys2Proof.Machine
end

