-- ==== Sys2Proof/Machine/State.lean ====
section
/-! DEFINITION. The state of the TRL-9256 as plain data, its stops, and the machine after reset.

Two forms hold what the spec gives the machine. Every numeric object of the object dictionary has
its home in `State.objs`, a table keyed by index × 256 + subindex (R388); an entry the table does not
list holds the object's default (R374). What is not a numeric object (stacks, queues, memories,
images, the schedule of edges) has a named field in the structures below. Instances stand in a `Tab`,
keyed by instance number; an unlisted instance holds the structure's default field values. -/
namespace Sys2Proof.Machine

/-- Why a step stops with a fault: the machine has no such stop, since every command of the table has
an effect the spec gives or finds nothing to act on. Nobody raises one; safe. -/
inductive Fault where
  deriving DecidableEq, Repr

/-- Why a command has no meaning. -/
inductive Refusal where
  /-- Raised by an arm of `exec` whose command has no meaning yet; safe (the machine stops). -/
  | notModelled (mnemonic : String)
  deriving DecidableEq, Repr

/-- A sparse table: pairs of key and value, keys strictly rising (`Tab.wf`). -/
abbrev Tab (α : Type) := List (Nat × α)

/-! ### Edges, comparators and judging (02, 03) -/

/-- One output, DRV or DEN, with what the pulse-width guard of R34 needs: the level at the ball and the instants
of the last two transitions still emitted. -/
structure OutPin where
  level     : Bool := false
  last      : Option Nat := none
  prev      : Option Nat := none
  deriving DecidableEq, Repr

/-- What a scheduled edge does (R30, R31, R45, R51, R59, R350). A strobe carries what its code asks for
(1 L, 2 H, 3 M, 4 C, 5 E) and whether the vector opens a TDC window. -/
inductive EdgeAct where
  | drv (level : Bool)
  | toggle
  | den (on : Bool)
  | strobe0 (cmp : Nat) (tdc : Bool)
  | strobe1 (cmp : Nat) (tdc : Bool)
  | safeDen
  | safeDrv
  deriving DecidableEq, Repr

/-- An edge that a generator has accepted (R28): its time before deskew, the cycle that placed it,
its generator (0–3 DE0–DE3, 4–5 EE0–EE1, 6–7 ST0–ST1, 8 a lane change or the safe state, 9 the instant of
an ST1 that was dropped), the vector it judges and its action. -/
structure Edge where
  t   : Nat
  cyc : Nat
  gen : Nat
  vec : Nat
  act : EdgeAct
  deriving DecidableEq, Repr

/-- An open compare window (R53, R54): its vector, the code expected, the instant since which the
state has departed from passing, and, once its ST1 has fired, the first instant outside it. -/
structure CmpWin where
  vec    : Nat
  code   : Nat
  opened : Nat
  away   : Option Nat
  closes : Option Nat := none
  deriving DecidableEq, Repr

/-- A recorded transition of a TDC (R60, R65). -/
structure Stamp where
  vec : Nat
  ch  : Nat
  cl  : Bool
  dir : Bool
  ovr : Bool
  t   : Nat
  deriving DecidableEq, Repr

/-- An open TDC window of one input (R59, R60): `closes` is the first instant outside it, once that is known, and
`missed` says that a transition in it was not recorded. -/
structure TdcWin where
  vec    : Nat
  opened : Nat
  closes : Option Nat
  recs   : List Stamp
  missed : Bool := false
  deriving DecidableEq, Repr

/-- A transition of a comparator input at the balls: its instant, whether CL, and the level it takes. -/
structure Transition where
  t     : Nat
  cl    : Bool
  level : Bool
  deriving DecidableEq, Repr

/-- A channel timing unit with its comparator inputs: CH000–CH255, then SYS0–SYS7 at 256–263. `past` holds the
comparators' latest transitions, newest first, because a strobe that compare deskew moves ahead of its cycle start looks
back at them (R44), and `seen` the instant up to which the comparators have been looked at. -/
structure Chan where
  drv   : OutPin := {}
  den   : OutPin := {}
  cmpH  : Bool := false
  cmpL  : Bool := false
  sched : List Edge := []
  fired : Tab Nat := []
  win   : List CmpWin := []
  tdcH  : List TdcWin := []
  tdcL  : List TdcWin := []
  past  : List Transition := []
  seen  : Nat := 0
  deriving DecidableEq, Repr

/-- A timing set of one channel (R47): DE0–DE3, EE0, EE1, ST0, ST1 and the format selector. -/
structure TimingSet where
  edges : List Nat := [0, 0, 0, 0, 0, 0, 0, 0]
  fmt   : Nat := 0
  deriving DecidableEq, Repr

/-- The chain of a system channel (R45, R46). -/
structure SysChain where
  running : Bool := false
  start   : Nat := 0
  next    : Nat := 0
  cyc     : Nat := 0
  resync  : Bool := false
  pulse   : Option Nat := none
  deriving DecidableEq, Repr

/-- A vector of one member group that is played and not yet judged to its end (R57, R64, R73), with the
MATCH block and repetition that it belongs to and the marks placed at it (R125). `empty` is an entry without a vector: marks at the end of a run, or the end of
a sealed segment whose first vector `sealEnd` gives (R79). -/
structure Judge where
  vec    : Nat
  start  : Nat
  ts     : Nat
  rep    : Option (Nat × Nat) := none
  sealed : Bool := false
  empty  : Bool := false
  marks  : List Nat := []
  sealEnd : Option Nat := none
  fail   : Nat := 0
  wfail  : Nat := 0
  cmask  : Nat := 0
  cap    : Nat := 0
  stamps : List Stamp := []
  deriving DecidableEq, Repr

/-! ### Segments and the vector cache (04, 08) -/

/-- An entry of the member table (R84). -/
structure Member where
  laneType : Nat
  dictOff  : Nat
  gtabOff  : Nat
  vbOff    : Nat
  vbBytes  : Nat
  deriving DecidableEq, Repr

/-- A decoded unit: code field and TS index (R88). -/
structure Unit where
  code : Nat
  ts   : Nat
  deriving DecidableEq, Repr

/-- A segment header with its member table (R83) and, once checked, its instruction words and each member's dictionary as
the decoder has loaded it whole (R92, R98). `key` names this load of the page apart from earlier ones that found other
content: the page, with 2^32 for each change. -/
structure Head where
  page       : Nat
  key        : Nat := page
  mode       : Nat
  flags      : Nat
  vlen       : Nat
  gcount     : Nat
  dictSize   : Nat
  nmembers   : Nat
  instrOff   : Nat
  instrCount : Nat
  sealParam  : Nat
  imageBytes : Nat
  members    : List Member
  code       : List Nat := []
  dicts      : List (List Unit) := []
  deriving DecidableEq, Repr

/-- A format error (R96): its code, member, offset in the image, granule, and the page or the load of it (`Head.key`). -/
structure FmtErr where
  code   : Nat
  member : Nat
  off    : Nat
  gran   : Nat
  page   : Nat
  deriving DecidableEq, Repr

/-- A granule present and checked in a member's cache (R202), of a load of its page (`Head.key`), with the bytes it takes, the 64 KiB block of the cache that
holds it (a pinned granule stands in the block of its segment instead), and whether it is pinned (R151) or locked
(R406). -/
structure Gran where
  page   : Nat
  n      : Nat
  units  : List Unit
  bytes  : Nat
  blk    : Nat := 0
  played : Nat := 0
  pinned : Bool := false
  locked : Bool := false
  deriving DecidableEq, Repr

/-- What a fetch through DP0 is for (R191, R202). -/
inductive FetchKind where
  | head (page : Nat)
  | gran (page n : Nat)
  | pinned (page : Nat)
  | tsrec (j : Nat)
  | sealedImage (page : Nat)
  deriving DecidableEq, Repr

/-- A fetch in progress: bursts not yet requested, bursts requested and not yet complete, whether a burst came back
uncorrectable, so that the fetch never completes (R199), and, for a granule, the block of the cache and the bytes that
it will take. `all` is every burst of it, for a fetch that begins anew after a map change (R190). -/
structure Fetch where
  kind : FetchKind
  todo : List Nat
  all  : List Nat := []
  out  : Nat := 0
  bad  : Bool := false
  blk  : Nat := 0
  bytes : Nat := 0
  deriving DecidableEq, Repr

/-- A strobe mask interval of the play side: a dead time or an underrun hold (R56). -/
structure MaskIval where
  since : Nat
  till  : Option Nat
  deriving DecidableEq, Repr

/-- The member side of a channel group: judging, capture, fails, cache and calibration state. `fillBlk` is the block of
the cache that is being filled, and `blockErrs` the first format error of the blocks of each segment (R97). `noWrap` says
that the group has been HALTED or FENCED since its ring last restarted, from when on the ring writer does not wrap (R69).
`fences` lists when the group has been FENCED, the latest last (R308). -/
structure Grp where
  judges     : List Judge := []
  stage      : List Nat := []
  capMem     : Tab Nat := []
  passes     : List Nat := []
  fifo       : List Nat := []
  fifoHead   : Nat := 0
  spillCap   : Option Nat := none
  spillFail  : Option Nat := none
  capDone    : Bool := false
  failDone   : Bool := false
  capHeld    : Nat := 0
  failHeld   : Nat := 0
  firstDone  : Nat := 0
  sealFail   : Nat := 0
  grans      : List Gran := []
  fetches    : List Fetch := []
  fillBlk    : Nat := 0
  blockErrs  : List FmtErr := []
  baseStaged : Option (Nat × Nat) := none
  fromOff    : Bool := true
  noWrap     : Bool := false
  converged  : Bool := false
  conflict   : Bool := false
  fences     : List MaskIval := []
  deriving DecidableEq, Repr

/-! ### The sequencer (05, 06, 07) -/

/-- What a queue entry plays (R100, R117, R121, R123). -/
inductive RangeKind where
  | plain
  | matchBlock
  | waitBlock
  | hold (timer limit : Nat)
  deriving DecidableEq, Repr

/-- A range of the range queue, of a load of its page (`Head.key`). `passes` lists the passes of outer loops that begin
with it, each with whether its blocks are locked (R205). `entry` is 0 when play goes on in the segment, 1 when the range's
first vector enters a segment, 2 when it returns into one (R105). -/
structure Range where
  page  : Nat
  first : Nat
  count : Nat
  reps  : Nat := 1
  kind  : RangeKind := .plain
  ready : Nat := 0
  entry : Nat := 0
  marks : List Nat := []
  passes : List Bool := []
  locks : Bool := false
  blk   : Nat := 0
  no    : Nat := 0
  deriving DecidableEq, Repr

/-- A loop level (R107, R110): passes left, body start, the vectors the pass has issued so far, the number
of the pass, and the body that the cache holds locked: page, first vector, count (R205). -/
structure LoopLvl where
  left   : Nat
  pc     : Nat
  ptr    : Nat
  issued : Nat := 0
  pass   : Nat := 1
  locked : Option (Nat × Nat × Nat) := none
  deriving DecidableEq, Repr

/-- A call level (R107, R113). `entry` is the boundary that was still to come in the caller when it called, as long as no
vector has been issued since (R105). -/
structure CallLvl where
  page  : Nat
  pc    : Nat
  ptr   : Nat
  loops : Nat
  entry : Nat := 0
  deriving DecidableEq, Repr

/-- A boundary-forming instruction (R153): JUMP or taken JIF with SEG, CALL, RET. -/
inductive Boundary where
  | jump (page : Nat)
  | call (page : Nat)
  | ret
  deriving DecidableEq, Repr

/-- What the instruction unit waits for (R102). -/
inductive IuWait where
  | none
  | jif (w : SeqWord)
  | hold
  | load
  | loadBusy (w : SeqWord)
  | head (page : Nat)
  | commit (b : Boundary)
  deriving DecidableEq, Repr

/-- How a run ends (R446). -/
inductive EndKind where
  | stop
  | haltInstr (code : Nat)
  | hostHalt
  | seqErr
  | fmtErr
  | underrun
  deriving DecidableEq, Repr

/-- A repetition of a MATCH block that is not judged yet (R116, R120): each member's TS index at its first vector
(R134), and the sites and the channels of each member that failed in it. -/
structure Rep where
  n        : Nat
  firstVec : Nat
  start    : Nat
  ts       : Tab Nat
  endCyc   : Option Nat := none
  verdictAt : Option Nat := none
  fails    : Nat := 0
  chans    : Tab Nat := []
  wins     : Tab Nat := []
  deriving DecidableEq, Repr

/-- A MATCH or WAITT of the run (R116–R122), named by its number. `known` is the instant of its exit
decision, `isSealed` says that its segment is sealed, and `ended` is when play left it. -/
structure Block where
  id      : Nat
  isMatch : Bool
  source  : Nat := 0
  limit   : Nat := 0
  sites   : Nat := 0
  same    : Bool := false
  rly     : Bool := false
  since   : Nat := 0
  began   : Option Nat := none
  rep     : Nat := 0
  reps    : List Rep := []
  latched : Nat := 0
  oks     : List (Nat × Bool) := []
  judged  : Nat := 0
  flagAt  : Option Nat := none
  event   : Option Nat := none
  exitAt  : Option Nat := none
  decided : Bool := false
  known   : Nat := 0
  isSealed : Bool := false
  ended   : Option Nat := none
  deriving DecidableEq, Repr

/-- The micro-state of a routine (R166, R167, R173): the micro address to resume at, the micro return stack, innermost
first, the micro loop count, the temporaries T0–T7, the shadow lines that hold writes of the open unit, and the latched
condition bits. -/
structure Micro where
  upc    : Nat := 0
  urs    : List Nat := []
  ucnt   : Nat := 0
  temps  : List Nat := List.replicate 8 0
  shadow : Nat := 0
  condl  : Nat := 0
  deriving DecidableEq, Repr

/-- A long TSLOAD routine (R128, R170, R179): whether the foreground is in control (`trapped`), the end of the
latest trap return, since when the long context runs, the time it has had, and the TSLOAD's place. `recAt` holds when
each record arrived, `shut` the closing instants of the units that closed before the latest trap and have not
committed, `micro` the micro-state, and `cause` the R173 code of a wait that ended without one of its own. -/
structure Load where
  first     : Nat
  count     : Nat
  page      : Nat
  wait      : Bool
  at0       : Nat
  arrived   : Nat := 0
  firstAt   : Option Nat := none
  committed : Nat := 0
  trapped   : Bool := false
  retAt     : Nat := 0
  since     : Option Nat := none
  credit    : Nat := 0
  pc        : Nat := 0
  seg       : Nat := 0
  no        : Nat := 0
  recs      : Tab Bytes := []
  recAt     : Tab Nat := []
  shut      : List Nat := []
  micro     : Micro := {}
  cause     : Nat := 1
  failed    : Bool := false
  deriving DecidableEq, Repr

/-- Where a jump request comes from (R152). -/
inductive JumpSrc where
  | ring
  | trigger (i : Nat)
  | host
  deriving DecidableEq, Repr

/-- A jump request on its way to the sequencer (R10, R148, R152): the SEQCLK edge at which it arrives, the entry, and
where it comes from. -/
structure JumpReq where
  due   : Nat
  entry : Nat
  src   : JumpSrc
  deriving DecidableEq, Repr

/-- A vector sequencer as the leader of its gang runs it. The first part is the instruction unit (R102):
its time `iuAt` and the instant `freedAt` at which a slot of the full range queue was freed, in Tref/1024.
The second is the play side: the chain's next cycle start, the range in play, and what holds it. `posEnd` is the
position after the last vector played, `cycAt` the start of the chain's latest cycle, `jumps` the jump requests on their way, `jtFrom` the trigger input of the pending
one, `fires` the firings of timers that arming has seen: timer and placed edge (R144), and `mapLost` says that the DRAM map
changed during the run (R190). -/
structure Seq where
  page      : Nat := 0
  ptr       : Nat := 0
  loops     : List LoopLvl := []
  calls     : List CallLvl := []
  queue     : List Range := []
  entry     : Nat := 0
  marks     : List Nat := []
  wait      : IuWait := .none
  iuAt      : Nat := 0
  freedAt   : Nat := 0
  ending    : Option EndKind := none
  heads     : List Head := []
  headErr   : Option FmtErr := none
  first     : Nat := 0
  firstErr  : Option FmtErr := none
  pinErr    : Option FmtErr := none
  pinBad    : Bool := false
  armAt     : Nat := 0
  live      : Bool := false
  cur       : Option Range := none
  rep       : Nat := 0
  off       : Nat := 0
  played    : Nat := 0
  segPage   : Nat := 0
  segVec    : Nat := 0
  entryVec  : Nat := 0
  lastStart : Nat := 0
  posEnd    : Nat := 0
  nextAt    : Nat := 0
  period    : Nat := 4096
  cyc       : Nat := 0
  lastCyc   : Option Nat := none
  verdictAt : Option Nat := none
  origin    : Nat := 0
  gap       : Option Nat := none
  gapHold   : Bool := false
  gapSeen   : Bool := false
  holdEdge  : Option Nat := none
  holdEnd   : Option Nat := none
  dead      : Option Nat := none
  resetDone : Bool := false
  stopped   : Option EndKind := none
  haltAt    : Option Nat := none
  pauseAt   : Option Nat := none
  pauseWhy  : Nat := 0
  pauseFrom : Nat := 0
  resumeAt  : Option Nat := none
  startAt   : Option Nat := none
  masks     : List MaskIval := []
  blks      : List Block := []
  blkNo     : Nat := 0
  issueNo   : Nat := 0
  syncAt    : Nat := 0
  pre       : Option Nat := none
  preErr    : Option FmtErr := none
  anyFail   : Bool := false
  failSites : Nat := 0
  load      : Option Load := none
  tsNeed    : List Nat := []
  jtAt      : Nat := 0
  jtVec     : Nat := 0
  jtFrom    : Option Nat := none
  jumps     : List JumpReq := []
  events    : List (Nat × Nat) := []
  fires     : List (Nat × Nat) := []
  cycAt     : Nat := 0
  mapLost   : Bool := false
  deriving DecidableEq, Repr

/-! ### Triggers (06) -/

/-- A trigger input (R145–R147): whether it is active, the edges of its latest activation and
deactivation, and the consumers that have fired on the activation in progress (0–15 start of a group,
16–31 jump map of a sequencer, 32–47 WAITT of a sequencer). -/
structure Trig where
  active   : Bool := false
  since    : Nat := 0
  ended    : Option Nat := none
  firedBy  : List Nat := []
  stuck    : Bool := false
  deriving DecidableEq, Repr

/-- A trigger output (R149): its pulses to come and in progress, as begin and end instants in Tref/1024, in rising
order and apart. -/
structure Tout where
  pulses : List (Nat × Nat) := []
  deriving DecidableEq, Repr

/-! ### Microcode patches (07) -/

/-- The patch stage buffer, the base image's stores as loaded at boot, the master image, what stands in each
sequencer's stores (R164, R181), whether the next patch is taken without its signature (R409), and whether VERIFY
checked that of the staged one (R183). -/
structure Patch where
  stage     : Bytes := []
  base      : Bytes := []
  master    : Bytes := []
  stores    : Tab Bytes := []
  diagNext  : Bool := false
  signed    : Bool := false
  deriving DecidableEq, Repr

/-! ### DRAM (08) -/

/-- Who a DRAM request serves. One that is `dropped` served a unit that wants its data no more. -/
inductive Owner where
  | fetch (g : Nat) (k : FetchKind)
  | dropped (was : Owner)
  | capSpill (g : Nat)
  | failSpill (g : Nat)
  | header (page : Nat)
  | source (burst : Nat)
  | dma (e c : Nat)
  | rqSpill (slot : Nat) (words : List (BitVec 32))
  | rqFetch (q slot : Nat)
  | scrub
  | writeBack
  deriving DecidableEq, Repr

/-- A DRAM request of one burst (R191). `issued` is set when its command has been issued. -/
structure DReq where
  port   : Nat
  addr   : Nat
  write  : Bool
  owner  : Owner
  at0    : Nat
  issued : Bool := false
  deriving DecidableEq, Repr

/-- The DDR5 controller: the memory's bytes in canonical form, the bursts that hold an uncorrectable
codeword, the requests, the instant up to which each bank index (4 × subchannel + bank) has had the REFsb of every
interval, `refFrom` where none is listed, and the end of each blocked one, the pause and the passes in progress, the passes reported as deferred, a held
speed request, the subchannels with a doubled refresh rate, the speed of a change in progress, whether
the step in progress is to be discarded, the channel that trains for its release, the engine that each subchannel has
served last in DP0's rotation, the burst that the patrol scrubber reads next, and since when it has waited to. -/
structure Dram where
  mem       : List Host.Cell := []
  bad       : List Nat := []
  reqs      : List DReq := []
  refAt     : Tab Nat := []
  refFrom   : Nat := 0
  blocked   : List (Nat × Nat) := []
  pause     : Option Nat := none
  passing   : List Nat := []
  deferred  : List Nat := []
  heldReq   : Option Nat := none
  hot       : Nat := 0
  target    : Nat := 0
  discard   : Bool := false
  retrain   : List Nat := []
  turn      : Tab Nat := []
  scrubAt   : Nat := 0
  scrubFrom : Nat := 0
  deriving DecidableEq, Repr

/-! ### Pacer engines (09, 10) -/

/-- A late write of R227: the destination and the value. -/
inductive Late where
  | x (r : Fin 8) (v : Word)
  | acc (n : Fin 4) (v : Acc)
  | pt (n : Fin 8) (v : BitVec 16)
  | ds (n : Fin 8) (v : BitVec 16)
  | cwBase (n : Fin 8) (v : BitVec 16)
  | cwLen (n : Fin 8) (v : BitVec 16)
  | cw (n : Fin 8) (v : Word)
  | srBit (bit : Nat) (v : Bool)
  | srScale (v : BitVec 5)
  | spr (n : Nat) (v : Word)
  deriving DecidableEq, Repr

/-- A late write with the position of the instruction that made it. -/
structure LateW where
  pos : Nat
  w   : Late
  deriving DecidableEq, Repr

/-- A store that later reads may not see yet (R249): position, space (1 XM, 2 YM), address, value, and the SYSCLK cycle
in which it issued. -/
structure StoreW where
  pos   : Nat
  space : Nat
  addr  : Nat
  v     : Word
  at_   : Nat := 0
  deriving DecidableEq, Repr

/-- A branch whose delay slots are not all issued (R228), whether it is a RETI, and whether it is taken: one that is not
only marks its slots. -/
structure Branch where
  target : BitVec 14
  left   : Nat
  reti   : Bool
  taken  : Bool := true
  deriving DecidableEq, Repr

/-- A DMA channel (R256–R258): its running descriptor and its status, the DRAM burst that it has read and not yet written
to DRAM again, and since when it asks for its next burst. -/
structure Dma where
  busy  : Bool := false
  desc  : List Word := []
  err   : Nat := 0
  done  : Nat := 0
  epoch : Nat := 0
  hold  : Option (List Word) := none
  at0   : Nat := 0
  deriving DecidableEq, Repr

/-- A Pacer engine: the registers of R213, its pipeline's pending writes, its memories, its DMA
channels and its push buffer. `cycl` counts cycles since it was last enabled and `issue` is the SYSCLK cycle
up to which it has counted; `tended` is the code of a TEND that has issued, `stalled` a wait in issue, `freeAt` the
SYSCLK cycle in which the latest DMA descriptor ended or item left the push buffer, `resume` a RETI whose SR ← ISR
comes with the next instruction (R234), and `cacheAt`, `cached`, `served`, `stale`, `cache` the loop cache of R232. `window` is
the busy cycles of the load window (R269), less those counted ahead. -/
structure Pe where
  pc      : BitVec 14 := 0
  x       : Vector Word 8 := Vector.replicate 8 0
  acc     : Vector Acc 4 := Vector.replicate 4 0
  pt      : Vector (BitVec 16) 8 := Vector.replicate 8 0
  ds      : Vector (BitVec 16) 8 := Vector.replicate 8 0
  cw      : Vector Word 8 := Vector.replicate 8 0
  sr      : Word := 0
  ipc     : BitVec 14 := 0
  isr     : Word := 0
  icause  : BitVec 8 := 0
  ivec    : BitVec 14 := 0
  taskid  : BitVec 16 := 0
  targ    : Word := 0
  lc      : Vector Word 3 := Vector.replicate 3 0
  ls      : Vector (BitVec 14) 3 := Vector.replicate 3 0
  le      : Vector (BitVec 14) 3 := Vector.replicate 3 0
  sv      : Word := 0
  si      : Word := 0xFFFFFFFF
  sc      : Word := 0
  cycl    : Nat := 0
  cych    : Word := 0
  capg    : BitVec 4 := 0
  pos     : Nat := 0
  late    : List LateW := []
  stores  : List StoreW := []
  branch  : Option Branch := none
  tended  : Option Nat := none
  issue   : Nat := 0
  freeAt  : Nat := 0
  resume  : Bool := false
  window  : Int := 0
  cacheAt : Option (BitVec 14 × BitVec 14) := none
  cached  : Bool := false
  served  : Bool := false
  stale   : Bool := false
  cache   : Tab Word := []
  stalled : Bool := false
  pm      : Tab Word := []
  xm      : Tab Word := []
  ym      : Tab Word := []
  dma     : Vector Dma 4 := Vector.replicate 4 {}
  dmaEvt  : Bool := false
  buffer  : List (Nat × List Word) := []
  req     : Bool := false
  lastReq : Option Nat := none
  deriving DecidableEq, Repr

/-! ### Starter and queues (11) -/

/-- A task control block (R261, R270). `since` is the SYSCLK cycle of the entry to READY, `order` the
place among tasks of equal priority, and `argRun` the argument delivered with its run (R267). -/
structure Tcb where
  state    : Nat := 0
  pri      : Nat := 31
  mask     : Nat := 0
  service  : Nat := 0
  arg      : Nat := 0
  delay    : Nat := 0
  period   : Nat := 0
  next     : Nat := 0xFFFF
  rpt      : Bool := false
  res      : Bool := false
  sched    : Bool := false
  last     : Nat := 0
  engine   : Nat := 0xFF
  runs     : Nat := 0
  coal     : Nat := 0
  waitLast : Nat := 0
  waitMax  : Nat := 0
  since    : Nat := 0
  order    : Int := 0
  left     : Nat := 0
  toGo     : Nat := 0
  stopReq  : Bool := false
  argRun   : Nat := 0
  deriving DecidableEq, Repr

/-- The Starter's own registers: the order counter of its ready lists, the ticks of 4 ns since the
last Starter tick, the tick in force, the busy cycles of each engine's load window and the cycle at
which each engine became eligible. -/
structure Starter where
  order  : Nat := 0
  phase  : Nat := 0
  tickNs : Nat := 1000
  busy   : Tab Int := []
  elig   : Tab Nat := []
  window : Nat := 0
  deriving DecidableEq, Repr

/-- A result item (R272) and where it is held: on chip, or in a slot of 32 bytes of the spill region. -/
structure Item where
  words   : List Word
  slot    : Option Nat := none
  deriving DecidableEq, Repr

/-- A result queue (R271–R277). -/
structure RQueue where
  items   : List Item := []
  level   : Nat := 0xFFFFFFFF
  dropped : Nat := 0
  lost    : Nat := 0
  deriving DecidableEq, Repr

/-- The Result Queue Manager's own state: the queue hit maps by site, the items of control-core
services that wait to be pushed, the source whose turn comes next in the rotation (R273), and whether the spill region
counts as empty after a map change. -/
structure Rqm where
  turn    : Nat := 0
  hits    : Tab Nat := []
  ccItems : Tab (List (Nat × List Word)) := []
  noSpill : Bool := false
  deriving DecidableEq, Repr

/-! ### Time unit (12) -/

/-- Writes to a domain that take effect at the next tick (R284). -/
structure TdStage where
  inc    : Option Nat := none
  offset : Int := 0
  moved  : Bool := false
  set    : Option Nat := none
  deriving DecidableEq, Repr

/-- The time unit: ACT and the domain counters in 2^−32 ns, H of R292, the latched Tref count Ck, the
Tref counts of the latest 65,536 ticks, newest first, and the rate advance A(k) of R283. -/
structure TimeUnit where
  act    : Nat := 0
  td     : Tab Nat := []
  h      : Int := 0
  ck     : Nat := 0
  hist   : List Nat := []
  rate   : Nat := 0x400000000
  stage  : Tab TdStage := []
  sel    : Nat := 0
  newSel : Option Nat := none
  held   : Nat := 0x400000000
  sys    : Nat := 0
  fenceSw : Bool := false
  deriving DecidableEq, Repr

/-- A timer's staged writes (R291) and whether the current tick has already judged it. -/
structure TimerSt where
  cmp     : Option Nat := none
  period  : Option Nat := none
  mode    : Option Nat := none
  judged  : Bool := false
  deriving DecidableEq, Repr

/-- A PTP instance (R286, R288): the stamps of the exchange in progress, t1–t3 of Sync and Delay_Req, p1, p2 and p4 of a
peer delay exchange; the stamp that it writes into a frame, with the messageType that the stamp is of; and the best Announce
that it has heard. -/
structure Ptp where
  t1    : Option Int := none
  t2    : Option Int := none
  t3    : Option Int := none
  p1    : Option Int := none
  p2    : Option Int := none
  p4    : Option Int := none
  frame : Option (Nat × Int) := none
  best  : Option Announce := none
  deriving DecidableEq, Repr

/-! ### Relay ring (13) -/

/-- A Relay message (R299), with its whole origin count. For FAIL, `chips` holds the group and `groups` the
site. A message in the queue leaves in no frame before the ring count `after`. -/
structure Msg where
  kind   : Nat
  origin : Nat
  s      : Nat
  chips  : Nat
  groups : Nat
  entry  : Nat
  after  : Nat := 0
  deriving DecidableEq, Repr

/-- The Relay port: the queue of own messages, the messages and results on their way to landing, what the
last frame received passes on and which of its slots the chip has just emptied (R302), the flag round and the result of
the next frame, the offset of the ring count from the Tref count, the poison count, the ring counts of the next frame to
send and to receive, and the latest frames sent and received, whose last bits are what the scrambling of the next ones
starts from (R299). `past` holds the MATCH blocks of runs that have ended lately, each with its gang's leader, for the flag
rounds whose sample lies in them (R307). -/
structure Relay where
  txq     : List Msg := []
  landing : List Msg := []
  results : List (Nat × Nat) := []
  fwd     : List (Option Msg) := [none, none, none]
  held    : List Bool := [false, false, false]
  round   : Nat × Nat := (0, 0)
  result  : Nat × Nat := (0, 0)
  base    : Nat := 0
  poison  : Option Nat := none
  txAt    : Nat := 0
  rxDue   : Nat := 0
  tx      : Option RelayFrame := none
  rx      : Option RelayFrame := none
  past    : List (Nat × Block) := []
  deriving DecidableEq, Repr

/-! ### Mixed-signal ports (14) -/

/-- A source image of the chain (R317). `first` is the number, counted along the chain, of its first burst
of samples. -/
structure SrcImg where
  page    : Nat
  chans   : Nat
  nco     : Bool
  samples : Nat
  dataOff : Nat
  next    : Nat
  first   : Nat
  deriving DecidableEq, Repr

/-- The LEMC of a direction since its latest alignment (R315): the DEVCLK edge that aligned it, which is a boundary, and the
latest SYSREF edge's DEVCLK edge with its instant, from which the instants of boundaries are reckoned. -/
structure Lemc where
  edge : Nat
  seen : Nat
  on   : Nat
  deriving DecidableEq, Repr

/-- The transmit direction: whether an arming is in progress, the images checked and not yet played out, in
play order, the bursts requested so far, whether a header is being fetched, whether the chain has come to
its end, the source buffer by burst number, the next 16-bit value, the start, the NCO with its
staged tuning word and the instant of the write, the latest samples at the converters, the LEMC where it is aligned,
the samples still zeroed by a relock, the LEMC boundary from which samples are timed and the samples that have left since,
the instant of the latest sample with which the phase was set (R324), the
converters' samples of the frame in progress, and the octets of the latest frame on each lane, as they are inverted by JTX_POL
(R313). -/
structure Jtx where
  arming  : Bool := false
  imgs    : List SrcImg := []
  asked   : Nat := 0
  header  : Bool := false
  closed  : Bool := false
  buffer  : Tab Bytes := []
  pos     : Nat := 0
  startAt : Option Nat := none
  phase   : Nat := 0
  ftwNew  : Option (Nat × Nat) := none
  resync  : Bool := false
  out     : List Int := []
  lemc    : Option Lemc := none
  zeros   : Nat := 0
  origin  : Nat := 0
  sent    : Nat := 0
  resetAt : Option Nat := none
  frame   : List (List Int) := []
  lanes   : List (List Nat) := []
  deriving DecidableEq, Repr

/-- The receive direction: whether samples are captured, whether the next one is the first of a capture, the
units of the record, the units whose fence ended a record and whose release posts its task (R322), the LEMC where it is
aligned, the LEMC boundary from which on samples are written (R322, R323), the samples of the unit in progress, earliest
first, and the SYSCLK cycle of the latest STOP with whether it ended a capture (R324). -/
structure Jrx where
  capturing : Bool := false
  fresh     : Bool := false
  recorded  : Nat := 0
  ended     : List Nat := []
  lemc      : Option Lemc := none
  base      : Nat := 0
  part      : List Nat := []
  stopAt    : Option (Nat × Bool) := none
  deriving DecidableEq, Repr

/-! ### Calibration (15) -/

/-- An edge path (R326–R335): live correction C, residual R, consecutive valid measurements that found the path in place,
consecutive invalid ones, whether it has converged, the instant of its latest one-tap move, whether its target is out of
range, whether the latest measurement still waits for the moves that follow it (R335), the coarse step in fine taps that was
last measured on the shadow path (R327), the coarse and fine setting of the shadow path at its latest measurement (R329), and
the instant of the latest move with C before it (R341). -/
structure CalPath where
  c       : Int := 0
  r       : Int := 0
  good    : Nat := 0
  invalid : Nat := 0
  conv    : Bool := false
  moved   : Option Nat := none
  rangeBad : Bool := false
  await   : Bool := false
  step    : Nat := 32
  shadow  : Int × Int := (0, 0)
  was     : Option (Nat × Int) := none
  deriving DecidableEq, Repr

/-- The calibration engine: the paths (slot × 6 + path), the instant of its first slot, the next slot of the rotation,
the slots measured since power-up, the channels in an episode of lag beyond CAL_STALL_MS, for each path (numbered as in
`paths`) whose lag exceeds 8 taps the instant since which it does (R337), the system channels whose moves resume one tap at a
time after a hold (R340), the sensors read since power-up, and the slot in progress with the paths of its channel before its
measurement (R341). -/
structure Cal where
  paths   : Tab CalPath := []
  startAt : Nat := 0
  slot    : Nat := 0
  slots   : Nat := 0
  lagging : List Nat := []
  lagAt   : Tab Nat := []
  single  : List Nat := []
  sensed  : List Nat := []
  undo    : Option (Nat × List CalPath) := none
  deriving DecidableEq, Repr

/-! ### Faults (16) -/

/-- The fault collector: the sticky bits, the level conditions that hold, the class U faults and whether a
class F fault whose reaction is pending, whether the reaction window is open and since when, the units that the fatal
reaction covered, and whether a class C NOTIFY is due. -/
structure Flt where
  sticky   : Nat := 0
  active   : List Nat := []
  pendU    : List Nat := []
  pendF    : Bool := false
  window   : Bool := false
  windowAt : Nat := 0
  covered  : List Nat := []
  cDue     : Bool := false
  deriving DecidableEq, Repr

/-- A board fault input (R356), in SYSCLK cycles. -/
structure FltIn where
  active : Bool := false
  ended  : Option Nat := none
  deriving DecidableEq, Repr

/-! ### Baton (17) -/

/-- A subscription (R379, R380): the object, the pointer value, and for a change subscription the
value last sent and the SYSCLK cycle of the latest NOTIFY. -/
structure Subscr where
  key    : Nat
  ptr    : Nat
  last   : Bytes := []
  sentAt : Option Nat := none
  deriving DecidableEq, Repr

/-- An unacknowledged NOTIFY (R380, R381): `at0` is the SYSCLK cycle of its latest sending. -/
structure Notify where
  seq   : BitVec 32
  key   : Nat
  ptr   : Nat
  value : Bytes
  event : Bool
  sends : Nat := 1
  at0   : Nat := 0
  deriving DecidableEq, Repr

/-- A request in the record of a session (R367, R368). -/
structure RecEnt where
  seq     : BitVec 32
  op      : Nat
  key     : Nat
  length  : Nat
  status  : Nat
  payload : Option Bytes
  deriving DecidableEq, Repr

/-- The staged object of a session (R377). -/
structure Staged where
  key   : Nat
  total : Nat
  bytes : Tab Byte
  deriving DecidableEq, Repr

/-- A Baton session: its binding (R364), role, sequence record (R367), per-session objects (R375),
subscriptions, notifications, staged block and the keys of an authenticated session (R398). `opened` and
`last` are the SYSCLK cycles of its OPEN and of its latest request. -/
structure Session where
  id         : BitVec 16
  port       : Nat
  v6         : Bool
  addr       : Nat
  udp        : Nat
  role       : Nat
  s0         : BitVec 32
  opened     : Nat
  last       : Nat
  h          : BitVec 32
  recs       : List RecEnt := []
  expert     : Bool := false
  tsPtr      : Nat := 0
  memAddr    : Tab Nat := []
  tcbPtr     : Nat := 0
  qPtr       : Nat := 0
  readMax    : Nat := 16
  replays    : Nat := 0
  notifyLost : Nat := 0
  notifySeq  : BitVec 32 := 0
  subs       : List Subscr := []
  pend       : List Notify := []
  staged     : Option Staged := none
  hello      : Bytes := []
  kh         : Bytes := []
  kd         : Bytes := []
  ctrHigh    : Nat := 0
  ctrSeen    : List Nat := []
  ctrTx      : Nat := 0
  deriving DecidableEq, Repr

/-- A frame that the device has sent (R361): the answer to a request or a NOTIFY. `data` is the
plain payload, or the protected one of R398. -/
structure Frame where
  op      : Nat
  session : BitVec 16
  seq     : BitVec 32
  key     : Nat
  status  : Nat
  data    : Bytes
  deriving DecidableEq, Repr

/-- Baton's own state: the session identifiers closed and the SYSCLK cycle of closing (R365), and the
latest frames sent. -/
structure Baton where
  closed : List (Nat × Nat) := []
  nextId : Nat := 1
  answer : Option Frame := none
  notify : Option Frame := none
  reply  : Option (Nat × NetFrame) := none
  deriving DecidableEq, Repr

/-! ### Security (19) -/

/-- A segment key slot (R402, R414). -/
structure KeySlot where
  loaded : Bool := false
  keyId  : Nat := 0
  key    : Bytes := []
  uses   : Nat := 0
  fails  : Nat := 0
  deriving DecidableEq, Repr

/-- The security unit: KEK0–KEK3 with their KEK_ID, the segment key slots, and the DRBG state as a
count of draws. -/
structure Sec where
  keks     : Tab (Nat × Bytes) := []
  slots    : Tab KeySlot := []
  drbg     : Nat := 0
  deriving DecidableEq, Repr

/-! ### One-time memory, boot and JTAG (19, 20, 21) -/

/-- The OTP contents (R331, R400, R403, R408, R420): what manufacture and enrolment have written, and the fuse
that disables the device unique key (R411). -/
structure Otp where
  stepping : Nat := 0
  serial   : Nat := 0
  uidTag   : Nat := 0
  macs     : Tab Bytes := []
  anchors  : Tab Bytes := []
  anchorsRevoked : Nat := 0
  officers : Tab Bytes := []
  officersRevoked : Nat := 0
  vendorHash : Bytes := []
  devCert  : Bytes := []
  duk      : Nat := 0
  dukOff   : Bool := false
  minLevel : Nat := 0
  factory  : Tab (Int × Int × Int × Int) := []
  deriving DecidableEq, Repr

/-- Start-up and the boot sources (R419–R425): the SPI flash, the BOOTSEL ball, whether the loader runs, its
staged bytes, the boot image in force, and the density of the DRAM devices on the board. -/
structure Boot where
  flash   : Tab Byte := []
  bootsel : Bool := false
  loader  : Bool := false
  stage   : Tab Byte := []
  image   : Bytes := []
  density : Nat := 32
  deriving DecidableEq, Repr

/-- The JTAG TAP (R439–R441): instruction register, boundary register, captured data register, and
whether a boundary instruction acts. -/
structure Jtag where
  ir       : BitVec 8 := 0x02
  boundary : BitVec 1657 := 0
  dr       : Nat := 0
  acting   : Bool := false
  safeHold : Bool := false
  deriving DecidableEq, Repr

/-- The whole machine. -/
structure State where
  pending  : List Instr := []
  objs     : Tab Nat := []
  blobs    : Tab Bytes := []
  now      : Nat := 0
  free     : Nat := 0
  sets     : Tab TimingSet := []
  periods  : Tab Nat := []
  chans    : Tab Chan := []
  sysch    : Tab SysChain := []
  grps     : Tab Grp := []
  seqs     : Tab Seq := []
  trigs    : Tab Trig := []
  touts    : Tab Tout := []
  patch    : Patch := {}
  dram     : Dram := {}
  pes      : Tab Pe := []
  tcbs     : Tab Tcb := []
  starter  : Starter := {}
  queues   : Tab RQueue := []
  rqm      : Rqm := {}
  time     : TimeUnit := {}
  timers   : Tab TimerSt := []
  ptps     : Tab Ptp := []
  rly      : Relay := {}
  jtx      : Jtx := {}
  jrx      : Jrx := {}
  cal      : Cal := {}
  flt      : Flt := {}
  fltins   : Tab FltIn := []
  sessions : List Session := []
  baton    : Baton := {}
  sec      : Sec := {}
  otp      : Otp := {}
  boot     : Boot := {}
  jtag     : Jtag := {}
  deriving DecidableEq, Repr

/-- The machine right after a cold reset (R419, R420): start-up stands at step 1, every object at its
default (R374), every group in OFF, memory with nothing listed (R187). -/
def State.reset : State :=
  { objs := [(0xE00001, 1)] }

end Sys2Proof.Machine
end

