-- ==== Sys2Proof/Machine/Ops.lean ====
section
/-! DEFINITION. The named operations over tables, memory, objects and instances that every meaning
uses. -/
namespace Sys2Proof.Machine

/-! ### Sparse tables -/

/-- The entry of a table at a key; `d` where the table lists none. -/
def Tab.get {α : Type} (d : α) (k : Nat) : Tab α → α
  | [] => d
  | (j, v) :: t => if j = k then v else Tab.get d k t

/-- The entry of a table at a key, if listed. -/
def Tab.find {α : Type} (k : Nat) : Tab α → Option α
  | [] => none
  | (j, v) :: t => if j = k then some v else Tab.find k t

/-- The table with an entry replaced or inserted in rising order of keys. -/
def Tab.set {α : Type} (k : Nat) (v : α) : Tab α → Tab α
  | [] => [(k, v)]
  | (j, w) :: t =>
    if k < j then (k, v) :: (j, w) :: t
    else if j = k then (k, v) :: t
    else (j, w) :: Tab.set k v t

/-- The table without a key. -/
def Tab.erase {α : Type} (k : Nat) (t : Tab α) : Tab α := t.filter (fun p => p.1 != k)

/-! ### DRAM bytes (R187, R191) -/

/-- What a byte of DRAM that nothing has written reads as: initialisation writes zeros (R187). -/
def Mem.blank : Byte := 0

/-- One byte of memory. -/
def Mem.read (a : Nat) (m : List Host.Cell) : Byte := Tab.get Mem.blank a m

/-- Memory with one byte written, in canonical form: a byte equal to what an unlisted address reads as
is not listed. -/
def Mem.write (a : Nat) (v : Byte) (m : List Host.Cell) : List Host.Cell :=
  if v = Mem.blank then Tab.erase a m else Tab.set a v m

/-- The canonical form: addresses strictly rising and no entry equal to what an unlisted one reads as. -/
abbrev Mem.wf (m : List Host.Cell) : Prop :=
  m.Pairwise (fun a b => a.1 < b.1) ∧ ∀ c ∈ m, c.2 ≠ Mem.blank

/-- `n` bytes from an address upwards. -/
def Mem.readN (a : Nat) : Nat → List Host.Cell → Bytes
  | 0, _ => []
  | n + 1, m => Mem.read a m :: Mem.readN (a + 1) n m

/-- Bytes written from an address upwards. -/
def Mem.writeN (a : Nat) : Bytes → List Host.Cell → List Host.Cell
  | [], m => m
  | b :: bs, m => Mem.writeN (a + 1) bs (Mem.write a b m)

/-! ### Little-endian values (R361, R82) -/

/-- The value of a little-endian byte string. -/
def leNat : Bytes → Nat
  | [] => 0
  | b :: t => b.toNat + 256 * leNat t

/-- The n bytes of a value, lowest first. -/
def leBytes : Nat → Nat → Bytes
  | 0, _ => []
  | n + 1, v => BitVec.ofNat 8 v :: leBytes n (v / 256)

/-- `n` bytes of a string from an offset. -/
def slice (o n : Nat) (b : Bytes) : Bytes := (b.drop o).take n

/-- The little-endian value of `n` bytes at an offset. -/
def leAt (o n : Nat) (b : Bytes) : Nat := leNat (slice o n b)

/-- A byte string with bytes replaced from an offset. -/
def splice (o : Nat) (v b : Bytes) : Bytes := b.take o ++ v ++ b.drop (o + v.length)

/-- The signed reading of an n-bit two's complement value. -/
def toSigned (w v : Nat) : Int :=
  if v % 2 ^ w < 2 ^ (w - 1) then ((v % 2 ^ w : Nat) : Int) else ((v % 2 ^ w : Nat) : Int) - (2 ^ w : Nat)

/-- The n-bit two's complement pattern of an integer. -/
def ofSigned (w : Nat) (i : Int) : Nat := (i % ((2 ^ w : Nat) : Int)).toNat

/-- Whether a bit of a mask is set. -/
def bitAt (m i : Nat) : Bool := m.testBit i

/-- A mask with one bit set. -/
def setBit (m i : Nat) : Nat := if m.testBit i then m else m + 2 ^ i

/-- A mask with one bit clear. -/
def clearBit (m i : Nat) : Nat := if m.testBit i then m - 2 ^ i else m

/-- A mask with one bit given. -/
def putBit (m i : Nat) (v : Bool) : Nat := if v then setBit m i else clearBit m i

/-- The numbers below n whose bit is set in a mask, lowest first. -/
def bitsOf (m n : Nat) : List Nat := (List.range n).filter (fun i => m.testBit i)

/-- The mask of a list of bit numbers. -/
def maskOf (l : List Nat) : Nat := l.foldl setBit 0

/-- Integer quotient rounded up. -/
def ceilDiv (a b : Nat) : Nat := (a + b - 1) / b

/-- Quotient to nearest, ties up (R48). -/
def roundDiv (a b : Nat) : Nat := (2 * a + b) / (2 * b)

/-- Integer quotient to nearest, ties up (R48). -/
def roundDivI (a : Int) (b : Nat) : Int := (2 * a + b) / (2 * b : Nat)

/-! ### Objects -/

/-- The value of an object. -/
def rd (k : Nat) (s : State) : Nat := Tab.get (objDefault k) k s.objs

/-- The object with a value written. -/
def wr (k v : Nat) (s : State) : State := { s with objs := Tab.set k v s.objs }

/-- An object increased, saturating at 2^w − 1. -/
def incSat (w k n : Nat) (s : State) : State := wr k (min (2 ^ w - 1) (rd k s + n)) s

/-- A 32-bit saturating counter increased by one. -/
def bump (k : Nat) (s : State) : State := incSat 32 k 1 s

/-- A 16-bit saturating counter increased by one. -/
def bump16 (k : Nat) (s : State) : State := incSat 16 k 1 s

/-- A counter of w bits increased, wrapping. -/
def incWrap (w k n : Nat) (s : State) : State := wr k ((rd k s + n) % 2 ^ w) s

/-- Several objects written. -/
def wrs : List (Nat × Nat) → State → State
  | [], s => s
  | (k, v) :: t, s => wrs t (wr k v s)

/-- The bytes of a BLOB object; where none are stored, the default. -/
def blob (d : Bytes) (k : Nat) (s : State) : Bytes := Tab.get d k s.blobs

/-- A BLOB object written. -/
def setBlob (k : Nat) (b : Bytes) (s : State) : State := { s with blobs := Tab.set k b s.blobs }

/-- Bit `i` of an object set. -/
def setObjBit (k i : Nat) (s : State) : State := wr k (setBit (rd k s) i) s

/-! ### Instances -/

/-- Channel group g. -/
def grp (g : Nat) (s : State) : Grp := Tab.get {} g s.grps
/-- Channel group g replaced. -/
def setGrp (g : Nat) (v : Grp) (s : State) : State := { s with grps := Tab.set g v s.grps }
/-- Channel group g changed. -/
def modGrp (g : Nat) (f : Grp → Grp) (s : State) : State := setGrp g (f (grp g s)) s

/-- Channel unit n: CH000–CH255, then SYS0–SYS7. -/
def chan (n : Nat) (s : State) : Chan := Tab.get {} n s.chans
/-- Channel unit n replaced. -/
def setChan (n : Nat) (v : Chan) (s : State) : State := { s with chans := Tab.set n v s.chans }
/-- Channel unit n changed. -/
def modChan (n : Nat) (f : Chan → Chan) (s : State) : State := setChan n (f (chan n s)) s

/-- The chain of SYSk. -/
def sysch (k : Nat) (s : State) : SysChain := Tab.get {} k s.sysch
/-- The chain of SYSk changed. -/
def modSysch (k : Nat) (f : SysChain → SysChain) (s : State) : State :=
  { s with sysch := Tab.set k (f (sysch k s)) s.sysch }

/-- Sequencer k, as the leader of its gang runs it. -/
def seq (k : Nat) (s : State) : Seq := Tab.get {} k s.seqs
/-- Sequencer k replaced. -/
def setSeq (k : Nat) (v : Seq) (s : State) : State := { s with seqs := Tab.set k v s.seqs }
/-- Sequencer k changed. -/
def modSeq (k : Nat) (f : Seq → Seq) (s : State) : State := setSeq k (f (seq k s)) s

/-- The Relay port changed. -/
def modRly (f : Relay → Relay) (s : State) : State := { s with rly := f s.rly }

/-- Trigger input i. -/
def trig (i : Nat) (s : State) : Trig := Tab.get {} i s.trigs
/-- Trigger input i changed. -/
def modTrig (i : Nat) (f : Trig → Trig) (s : State) : State :=
  { s with trigs := Tab.set i (f (trig i s)) s.trigs }

/-- Trigger output j. -/
def tout (j : Nat) (s : State) : Tout := Tab.get {} j s.touts
/-- Trigger output j changed. -/
def modTout (j : Nat) (f : Tout → Tout) (s : State) : State :=
  { s with touts := Tab.set j (f (tout j s)) s.touts }

/-- Engine PEe. -/
def pe (e : Nat) (s : State) : Pe := Tab.get {} e s.pes
/-- Engine PEe replaced. -/
def setPe (e : Nat) (v : Pe) (s : State) : State := { s with pes := Tab.set e v s.pes }
/-- Engine PEe changed. -/
def modPe (e : Nat) (f : Pe → Pe) (s : State) : State := setPe e (f (pe e s)) s

/-- Task t. -/
def tcb (t : Nat) (s : State) : Tcb := Tab.get {} t s.tcbs
/-- Task t changed. -/
def modTcb (t : Nat) (f : Tcb → Tcb) (s : State) : State :=
  { s with tcbs := Tab.set t (f (tcb t s)) s.tcbs }

/-- Result queue q. -/
def rqueue (q : Nat) (s : State) : RQueue := Tab.get {} q s.queues
/-- Result queue q changed. -/
def modQueue (q : Nat) (f : RQueue → RQueue) (s : State) : State :=
  { s with queues := Tab.set q (f (rqueue q s)) s.queues }

/-- Whether an item is held in DRAM (R274). -/
def Item.inDram (i : Item) : Bool := i.slot.isSome

/-- Timer TMRt. -/
def timer (t : Nat) (s : State) : TimerSt := Tab.get {} t s.timers
/-- Timer TMRt changed. -/
def modTimer (t : Nat) (f : TimerSt → TimerSt) (s : State) : State :=
  { s with timers := Tab.set t (f (timer t s)) s.timers }

/-- The PTP instance of domain d. -/
def ptp (d : Nat) (s : State) : Ptp := Tab.get {} d s.ptps
/-- The PTP instance of domain d changed. -/
def modPtp (d : Nat) (f : Ptp → Ptp) (s : State) : State :=
  { s with ptps := Tab.set d (f (ptp d s)) s.ptps }

/-- Fault input i. -/
def fltin (i : Nat) (s : State) : FltIn := Tab.get {} i s.fltins
/-- Fault input i changed. -/
def modFltin (i : Nat) (f : FltIn → FltIn) (s : State) : State :=
  { s with fltins := Tab.set i (f (fltin i s)) s.fltins }

/-- Segment key slot i. -/
def keySlot (i : Nat) (s : State) : KeySlot := Tab.get {} i s.sec.slots
/-- Segment key slot i changed. -/
def modSlot (i : Nat) (f : KeySlot → KeySlot) (s : State) : State :=
  { s with sec := { s.sec with slots := Tab.set i (f (keySlot i s)) s.sec.slots } }

/-- Timing set t of channel n (R47). -/
def tset (n t : Nat) (s : State) : TimingSet := Tab.get {} (n * 64 + t) s.sets
/-- Timing set t of channel n replaced. -/
def setTset (n t : Nat) (v : TimingSet) (s : State) : State :=
  { s with sets := Tab.set (n * 64 + t) v s.sets }

/-- Entry t of the period table of group g (R26). -/
def tsPeriodOf (g t : Nat) (s : State) : Nat := Tab.get 0 (g * 64 + t) s.periods
/-- Entry t of the period table of group g replaced. -/
def setTsPeriod (g t v : Nat) (s : State) : State :=
  { s with periods := Tab.set (g * 64 + t) v s.periods }

/-- The session with an identifier. -/
def session (id : BitVec 16) (s : State) : Option Session := s.sessions.find? (fun x => x.id == id)
/-- The session with an identifier changed. -/
def modSession (id : BitVec 16) (f : Session → Session) (s : State) : State :=
  { s with sessions := s.sessions.map (fun x => if x.id == id then f x else x) }

/-- The DRAM state changed. -/
def modDram (f : Dram → Dram) (s : State) : State := { s with dram := f s.dram }
/-- The DRAM bytes. -/
def memByte (a : Nat) (s : State) : Byte := Mem.read a s.dram.mem
/-- Bytes of DRAM. -/
def memBytes (a n : Nat) (s : State) : Bytes := Mem.readN a n s.dram.mem
/-- DRAM with bytes written. -/
def memWrite (a : Nat) (b : Bytes) (s : State) : State :=
  modDram (fun d => { d with mem := Mem.writeN a b d.mem }) s

/-- Time advanced to an instant; never back (assumption log 6). -/
def toTime (t : Nat) (s : State) : State := { s with now := max s.now t }

/-! ### Free values (assumption log 2) -/

/-- The next free natural number. -/
def drawNat (s : State) : Nat × State := (Config.freeNat s.free, { s with free := s.free + 1 })

/-- The next free truth value. -/
def drawBool (s : State) : Bool × State := (Config.freeBool s.free, { s with free := s.free + 1 })

/-- Whether a free choice of the spec falls on the first of two outcomes, drawn as one value. -/
def drawBelow (n : Nat) (s : State) : Nat × State :=
  (Config.freeNat s.free % n, { s with free := s.free + 1 })

/-! ### Folds over a list of instances -/

/-- A state transformer applied for each element of a list, in order. -/
def forEach {α : Type} (l : List α) (f : α → State → State) (s : State) : State :=
  l.foldl (fun s a => f a s) s

/-- A state transformer applied where a condition of the state holds. -/
def onlyIf (c : Bool) (f : State → State) (s : State) : State := if c then f s else s

end Sys2Proof.Machine
end

