-- ==== Sys2Proof/Machine/Micro.lean ====
section
/-! DEFINITION. The control store of a sequencer: dispatch entries, micro-words and nano-words, and the nano-steps of
the long context (07_sequencer_microcode.md, R164–R168). The conditions of one stepping are free (R167). -/
namespace Sys2Proof.Machine

/-! ### The stores (R164, R423) -/

/-- A store's place in the image of the three stores, its words, and the bytes of a word: dispatch, micro,
nano (R164, R423). -/
def storeOf (n : Nat) : Option (Nat × Nat × Nat) :=
  match n with
  | 0 => some (0, 256, 2)
  | 1 => some (512, 8192, 2)
  | 2 => some (16896, 2048, 24)
  | _ => none

/-- Bytes of the three stores together. -/
def storeBytes : Nat := 66048

/-- A word of a store of sequencer k. -/
def storeWord (k store addr : Nat) (s : State) : Nat :=
  match storeOf store with
  | some (base, words, w) => leAt (base + addr % words * w) w (Tab.get [] k s.patch.stores)
  | none => 0

/-! ### Dispatch entries (R165) -/

/-- Whether an opcode has a routine. A store that nothing has written yet stands for the shipped image's entries
0x01–0x11. -/
def dispatchValid (k op : Nat) (s : State) : Bool :=
  match Tab.find k s.patch.stores with
  | some _ => (storeWord k 0 op s).testBit 15
  | none => 1 ≤ op && op ≤ 0x11

/-- Whether an opcode's routine runs in the long context. -/
def dispatchLong (k op : Nat) (s : State) : Bool :=
  match Tab.find k s.patch.stores with
  | some _ => (storeWord k 0 op s).testBit 14
  | none => op == 0x0E

/-- The micro address of a routine's first micro-word. -/
def dispatchUaddr (k op : Nat) (s : State) : Nat := storeWord k 0 op s % 8192

/-! ### Nano-words (R167) -/

/-- A nano-word by its fields. -/
structure Nano where
  utgt   : Nat
  cond   : Nat
  aluop  : Nat
  srcA   : Nat
  srcB   : Nat
  dst    : Nat
  shw    : Bool
  rq     : Nat
  ppc    : Nat
  lstk   : Nat
  cstk   : Nat
  memreq : Nat
  flog   : Nat
  tsb    : Nat
  site   : Nat
  obj    : Nat
  mask   : Nat
  const  : Nat
  deriving DecidableEq, Repr

/-- The field map of a nano-word. -/
def nanoOf (w : Nat) : Nano :=
  let f := fun (hi lo : Nat) => w / 2 ^ lo % 2 ^ (hi + 1 - lo)
  { utgt := f 191 179, cond := f 178 173, aluop := f 172 168, srcA := f 167 163, srcB := f 162 158, dst := f 157 153
    shw := w.testBit 152, rq := f 151 148, ppc := f 147 144, lstk := f 143 140, cstk := f 139 136, memreq := f 135 132
    flog := f 131 128, tsb := f 127 120, site := f 119 112, obj := f 111 96, mask := f 95 64, const := f 63 32 }

/-! ### Micro-words and nano-steps (R166, R168) -/

/-- The nano-word that a micro-word of sequencer k names. -/
def microNano (k upc : Nat) (s : State) : Nano := nanoOf (storeWord k 2 (storeWord k 1 upc s % 2048) s)

/-- One nano-step of a micro-state: the next one with the units closed so far, or how the routine leaves it. `cond` is
the value of the nano-word's condition. A return stack that a word overruns or underruns, and a reserved SEQ, leave
nothing to go on with. -/
inductive MicroNext where
  | goes (m : Micro) (closes : Bool)
  | ends
  | dispatches
  | returns
  | fails (code : Nat)
  deriving DecidableEq, Repr

/-- One nano-step (R166, R168). -/
def microStep (k : Nat) (cond : Bool) (m : Micro) (s : State) : MicroNext :=
  let n := microNano k m.upc s
  let next := (m.upc + 1) % 8192
  let goto := fun (a : Nat) => MicroNext.goes { m with upc := a } false
  match storeWord k 1 m.upc s / 2048 with
  | 0x00 => goto next
  | 0x01 => .goes { m with upc := next } true
  | 0x02 => .ends
  | 0x03 => goto n.utgt
  | 0x04 => goto (if cond then n.utgt else next)
  | 0x05 => goto (if cond then next else n.utgt)
  | 0x06 => if m.urs.length < 2 then .goes { m with upc := n.utgt, urs := next :: m.urs } false else .ends
  | 0x07 => (match m.urs with
      | a :: t => .goes { m with upc := a, urs := t } false
      | [] => .ends)
  | 0x08 =>
    let c := (m.ucnt + 2 ^ 16 - 1) % 2 ^ 16
    .goes { m with ucnt := c, upc := if c = 0 then next else n.utgt } false
  | 0x09 => goto (if cond then next else m.upc)
  | 0x0A => .dispatches
  | 0x0B => .returns
  | 0x0C => .fails (n.const % 256)
  | _ => .ends

/-- What the datapath of a nano-step leaves in the temporaries, the shadow lines and the condition bits: one stepping's,
and so free (R167). A unit that closes empties its shadow (R169). -/
def stir (free : Nat) (closes : Bool) (m : Micro) : Micro :=
  { m with
    temps := (List.range 8).map (fun i => Config.freeNat (free + i) % 2 ^ 32)
    shadow := if closes then 0 else Config.freeNat (free + 8) % 256
    condl := Config.freeNat (free + 9) % 2 ^ 32 }

/-- Free values that one nano-step draws. -/
def stepDraws : Nat := 11

/-- The micro-state after n nano-steps of the long context. Each condition is free: the datapath that decides it is one
stepping's (R167). A WAITC whose condition is false changes nothing (R168). A routine that leaves the walk stays where it
is, since when it ends, and with which error, is what R128 and R179 say of it (log 30). -/
def microRun (k free : Nat) : Nat → Micro → State → Micro
  | 0, m, _ => m
  | n + 1, m, s =>
    let at_ := free + n * stepDraws
    let cond := Config.freeBool at_
    if storeWord k 1 m.upc s / 2048 = 0x09 ∧ ¬ cond then microRun k free n m s
    else match microStep k cond m s with
      | .goes x closes => microRun k free n (stir (at_ + 1) closes x) s
      | _ => m

end Sys2Proof.Machine
end

