-- ==== Sys2Proof/Machine/Collect.lean ====
section
/-! DEFINITION. What any unit may do to the chip as a whole: send a notification to subscribers (R380),
report to the fault collector (R343–R355), and post a task (R262). -/
namespace Sys2Proof.Machine

/-! ### Notifications (R379–R381) -/

/-- Whether a session is authenticated (R397). -/
def Session.auth (x : Session) : Bool := 2 ≤ x.role

/-- A frame's 16-byte header (R361). -/
def header (op session seq key status length : Nat) : Bytes :=
  [1, BitVec.ofNat 8 op] ++ leBytes 2 session ++ leBytes 4 seq ++ leBytes 2 (key / 256) ++
  [BitVec.ofNat 8 key, BitVec.ofNat 8 status] ++ leBytes 4 length

/-- The payload of a NOTIFY (R380): the pointer value, then the value. For ST_NOTE the value ends in the number
of the task. -/
def notifyPayload (ptr : Nat) (value : Bytes) : Bytes := leBytes 4 ptr ++ value

/-- A NOTIFY leaves for a session, protected where the session is authenticated (R380, R398). -/
def sendNotify (id : BitVec 16) (n : Notify) (s : State) : State :=
  match session id s with
  | none => s
  | some x =>
    let data := notifyPayload n.ptr n.value
    let h := header 8 id.toNat n.seq.toNat n.key 0 (data.length + 24)
    let out := if x.auth then Config.frameSeal x.kd (x.ctrTx + 1) h data else data
    let s := if x.auth then modSession id (fun y => { y with ctrTx := y.ctrTx + 1 }) s else s
    let f : Frame := { op := 8, session := id, seq := n.seq, key := n.key, status := 0, data := out }
    { s with baton := { s.baton with notify := some f } }

/-- A notification discarded (R381). -/
def Session.lose (x : Session) : Session := { x with notifyLost := min (2 ^ 32 - 1) (x.notifyLost + 1) }

/-- An event notification of one session: sent, or discarded where 16 wait (R381). -/
def notifyOne (id : BitVec 16) (key ptr : Nat) (value : Bytes) (s : State) : State :=
  match session id s with
  | none => s
  | some x =>
    if (x.pend.filter (·.event)).length ≥ 16 then modSession id Session.lose s
    else
      let n : Notify := { seq := x.notifySeq + 1, key, ptr, value, event := true, at0 := s.time.sys }
      sendNotify id n (modSession id (fun y => { y with notifySeq := n.seq, pend := y.pend ++ [n] }) s)

/-- An event notification sent to every subscriber of an object (R380). -/
def notifyEvent (key ptr : Nat) (value : Bytes) (s : State) : State :=
  (s.sessions.filter (fun x => x.subs.any (fun u => u.key == key && u.ptr == ptr))).foldl
    (fun s x => notifyOne x.id key ptr value s) s

/-- The pointer value of an object without a pointer (R380). -/
def noPtr : Nat := 0xFFFFFFFF

/-! ### Fault sources (R345) -/

/-- A row of the source table: level-type or event-type, class (1 C, 2 U, 3 F, 0 as FLTIN_CLASS
gives), and the unit IDs of R347 its reaction fences. -/
structure FaultSrc where
  level : Bool
  cls   : Nat
  units : List Nat
  deriving DecidableEq, Repr

/-- The sources of a DRAM channel (R345). -/
def faultSrcDc (c : Nat) : Nat → Option FaultSrc
  | 0 => some ⟨false, 2, [0x20 + c]⟩
  | 1 => some ⟨false, 1, []⟩
  | 2 => some ⟨false, 2, [0x20 + c]⟩
  | 3 => some ⟨false, 1, []⟩
  | _ => none

/-- The sources of a Pacer engine (R345). -/
def faultSrcPe (e : Nat) : Nat → Option FaultSrc
  | 0 => some ⟨false, 1, []⟩
  | 1 => some ⟨false, 2, [0x10 + e]⟩
  | 2 => some ⟨false, 1, []⟩
  | _ => some ⟨false, 2, [0x10 + e]⟩

/-- The sources of a channel group (R345). -/
def faultSrcCg (g : Nat) : Nat → Option FaultSrc
  | 0 => some ⟨false, 2, []⟩
  | 1 | 2 | 3 | 4 | 5 | 7 | 11 => some ⟨false, 1, []⟩
  | 6 | 8 | 9 | 10 | 12 | 13 | 14 => some ⟨false, 2, [g]⟩
  | _ => none

/-- The source table of R345; an ID not listed has no source. -/
def faultSrc (n : Nat) : Option FaultSrc :=
  if n ≤ 4 ∨ (8 ≤ n ∧ n ≤ 14) ∨ n = 17 ∨ n = 18 then some ⟨true, 3, []⟩
  else if n = 16 then some ⟨true, 1, []⟩
  else if n = 19 ∨ n = 20 ∨ n = 21 ∨ (24 ≤ n ∧ n ≤ 27) then some ⟨false, 3, []⟩
  else if n = 22 ∨ n = 40 then some ⟨false, 1, []⟩
  else if 28 ≤ n ∧ n ≤ 31 then some ⟨true, 0, []⟩
  else if 32 ≤ n ∧ n ≤ 39 then some ⟨true, 1, []⟩
  else if n = 41 ∨ n = 42 then some ⟨false, 2, []⟩
  else if 48 ≤ n ∧ n ≤ 55 then some ⟨false, 1, []⟩
  else if 64 ≤ n ∧ n ≤ 95 then faultSrcDc ((n - 64) / 8) ((n - 64) % 8)
  else if n = 96 then some ⟨false, 1, []⟩
  else if 128 ≤ n ∧ n ≤ 191 then faultSrcPe ((n - 128) / 4) ((n - 128) % 4)
  else if 192 ≤ n ∧ n ≤ 199 then
    (if n % 2 = 0 then some ⟨true, 1, []⟩ else some ⟨false, 2, [0x24 + (n - 193) / 2]⟩)
  else if n = 200 ∨ n = 202 then some ⟨true, 1, []⟩
  else if n = 201 then some ⟨false, 2, [0x28]⟩
  else if n = 203 then some ⟨false, 2, [0x29]⟩
  else if n = 204 then some ⟨false, 2, [0x2A]⟩
  else if n = 205 then some ⟨true, 1, []⟩
  else if n = 208 ∨ n = 209 ∨ n = 212 ∨ n = 213 then some ⟨false, 1, []⟩
  else if n = 210 then some ⟨true, 2, [0x2B, 0x2C]⟩
  else if n = 211 then some ⟨false, 2, [0x2B]⟩
  else if 256 ≤ n ∧ n ≤ 511 then faultSrcCg ((n - 256) / 16) ((n - 256) % 16)
  else none

/-- The unit IDs of R347. -/
def unitIdDefined (u : Nat) : Bool := u ≤ 0x29 || u = 0x2A || u = 0x2B || u = 0x2C || u = 0x3F

/-- Whether a unit is fenced (0xC000.02 FLT_FENCED, R347). -/
def fenced (u : Nat) (s : State) : Bool := bitAt (rd K.fltFenced s) u

/-- Whether the chip is in the fatal state (R349). -/
def fatal (s : State) : Bool := rd K.fltFatal s = 1

/-- Whether any DRAM channel is fenced. -/
def anyDcFenced (s : State) : Bool := (List.range 4).any (fun c => fenced (0x20 + c) s)

/-- The fence window of a DRAM channel for detectors outside the channel (R354). -/
def dcWindow (s : State) : Bool := anyDcFenced s && rd K.dramReady s = 0

/-- The suppression of the detectors of a group (R355). -/
def suppressedCg (g r : Nat) (s : State) : Bool :=
  fatal s || (fenced g s && (r ≤ 5 || (9 ≤ r && r ≤ 11) || r = 14)) || (dcWindow s && (r = 9 || r = 10))

/-- The suppression of the detectors of an engine (R355). -/
def suppressedPe (e r : Nat) (s : State) : Bool :=
  fatal s || (fenced (0x10 + e) s && r ≥ 2) || (dcWindow s && r = 3)

/-- Whether a detector is suppressed (R355). -/
def suppressed (n : Nat) (s : State) : Bool :=
  if 256 ≤ n then suppressedCg ((n - 256) / 16) ((n - 256) % 16) s
  else if 128 ≤ n ∧ n ≤ 191 then suppressedPe ((n - 128) / 4) ((n - 128) % 4) s
  else if 64 ≤ n ∧ n ≤ 95 then (n - 64) % 8 = 3 && fenced (0x20 + (n - 64) / 8) s
  else if n = 42 then dcWindow s
  else if 192 ≤ n ∧ n ≤ 199 then n % 2 = 0 && fenced (0x24 + (n - 192) / 2) s
  else if n = 200 then fenced 0x28 s || fenced (0x24 + rd (K.ptpPort 0) s) s
  else if n = 202 then fenced 0x29 s || fenced (0x24 + rd (K.ptpPort 1) s) s
  else if n = 205 then fatal s || fenced 0x2A s
  else if n = 208 then fatal s || (fenced 0x2B s && fenced 0x2C s)
  else if n = 209 then fatal s || fenced 0x2C s
  else if n = 210 then fatal s
  else if n = 211 then fatal s || fenced 0x2B s || dcWindow s
  else if n = 212 ∨ n = 213 then fatal s || fenced 0x2B s
  else false

/-- Whether fencing a unit would take a second DRAM channel out of service (R346). -/
def secondDc (u : Nat) (s : State) : Bool :=
  0x20 ≤ u && u < 0x24 && !fenced u s && anyDcFenced s

/-- The class of a source as its table row or FLTIN_CLASS gives it (R345, R356). -/
def tableClass (n : Nat) (f : FaultSrc) (s : State) : Nat :=
  if 28 ≤ n ∧ n ≤ 31 then rd (K.fltinClass (n - 28)) s else f.cls

/-- The units that a class U fault of a source would fence: those of the table, or FLTIN_TARGET (R345, R356). -/
def targetUnits (n : Nat) (f : FaultSrc) (s : State) : List Nat :=
  if 28 ≤ n ∧ n ≤ 31 then [rd (K.fltinTarget (n - 28)) s] else f.units

/-- The class of a source now: class U rises to F where its fence would take a second DRAM channel (R346). -/
def faultClass (n : Nat) (f : FaultSrc) (s : State) : Nat :=
  if tableClass n f s = 2 ∧ (targetUnits n f s).any (fun u => secondDc u s) then 3 else tableClass n f s

/-- The collector notes a source: sticky bit and pending class bit (R352, R353). -/
def noteFault (n cls : Nat) (level : Bool) (s : State) : State :=
  let s := setObjBit K.fltIntPending (cls - 1) s
  { s with flt := { s.flt with
      sticky := setBit s.flt.sticky n
      active := if level && !s.flt.active.contains n then n :: s.flt.active else s.flt.active } }

/-- A source reports to the collector: suppressed (R355), or a sticky bit and the reaction of its class
(R343, R352). The reaction of a class U or F fault is pending until REACTION_START, which also merges it into a
reaction in progress. -/
def raiseFault (n : Nat) (s : State) : State :=
  match faultSrc n with
  | none => s
  | some f =>
    let cls := faultClass n f s
    if cls = 0 ∨ suppressed n s ∨ (f.level ∧ s.flt.active.contains n) then s
    else
      let s := noteFault n cls f.level s
      if cls = 1 then
        (if s.flt.window then s else { s with flt := { s.flt with cDue := true } })
      else if cls = 3 then { s with flt := { s.flt with pendF := true } }
      else { s with flt := { s.flt with pendU := s.flt.pendU ++ [n] } }

/-- The condition of a level-type source ends (R344). -/
def endFault (n : Nat) (s : State) : State :=
  { s with flt := { s.flt with active := s.flt.active.filter (· != n) } }

/-- Whether a source is a supply fault or F017, which holds start-up before step 8 (R421). -/
def holdsStart (n : Nat) : Bool := (8 ≤ n && n ≤ 14) || n = 17

/-- A source of supplies, clocks or F017 before step 8 (R421): the sticky bit sets; start-up returns to step 2, or
stops where it stands. What has failed at steps 4 to 7 before stays the outcome that START_FAIL shows. -/
def reportEarly (n : Nat) (s : State) : State :=
  if s.flt.active.contains n then s
  else
    let s := noteFault n 3 true s
    if n ≤ 4 then (if 1 ≤ rd K.startFail s ∧ rd K.startFail s ≤ 3 then s else wr K.startStep 2 s)
    else if rd K.startFail s = 0 then wr K.startFail 5 s
    else s

/-- A source reports at the step that start-up has come to (R421). -/
def reportSource (n : Nat) (s : State) : State :=
  if rd K.startStep s < 8 ∧ (n ≤ 4 ∨ holdsStart n) then reportEarly n s else raiseFault n s

/-- The condition of a source ends; start-up goes on where it was the last that held it (R421). -/
def endSource (n : Nat) (s : State) : State :=
  let s := endFault n s
  if rd K.startFail s = 5 ∧ ¬ s.flt.active.any holdsStart then wr K.startFail 0 s else s

/-- FLT_STICKY as the 64 bytes of R359. -/
def stickyBytes (s : State) : Bytes := leBytes 64 s.flt.sticky

/-- The NOTIFY of FLT_STICKY (R352, R380). -/
def notifySticky (s : State) : State := notifyEvent K.fltSticky noPtr (stickyBytes s) s

/-- Whether the ball INT_N is driven low (R437): a request of R277 or R352, or a stop of R421 or R349; never
during steps 1 to 3 of start-up. -/
def intN (s : State) : Bool :=
  3 < rd K.startStep s &&
  ((rd K.fltIntPending s &&& rd K.fltIntEnable s) != 0 || (rd K.rqIntEnable s = 1 && rd K.rqHitSites s != 0) ||
    fatal s || (rd K.startFail s != 0 && rd K.startFail s != 4))

/-! ### The Relay port's own messages (R303) -/

/-- A message of this chip joins the queue of 8 while the ring is trained; a message that finds the queue
full is not sent and is counted. -/
def relayQueue (m : Msg) (s : State) : State :=
  if rd K.rlyState s ≠ 2 then s
  else if s.rly.txq.length ≥ 8 then bump K.rlyTxDropped s
  else { s with rly := { s.rly with txq := s.rly.txq ++ [{ m with origin := rd K.rlyPosition s }] } }

/-! ### Posts (R262, R268) -/

/-- A TCB's counter of absorbed posts, increased (R262). -/
def Tcb.absorb (t : Tcb) : Tcb := { t with coal := min (2 ^ 32 - 1) (t.coal + 1) }

/-- Whether a task's mask names Pacer engines (R263). -/
def Tcb.pacerMask (t : Tcb) : Bool := 0 < t.mask && t.mask < 2 ^ 16

/-- A value of TCB_ARG with its rsv field zero (R5): bits [15:4] where the task runs FAIL_FWD (R267), none otherwise. -/
def Tcb.argClean (t : Tcb) (v : Nat) : Nat := if !t.pacerMask && t.service == 1 then v - (v / 16 % 4096) * 16 else v

/-- A task enters READY at a SYSCLK cycle: at the tail of its priority, or at its head after a yield (R264, R265). Its
schedule begins where it has a period and none runs (R268). -/
def enterReady (t cycle : Nat) (head : Bool) (s : State) : State :=
  let o : Int := s.starter.order
  let s := modTcb t (fun c => { c with
    state := 1, since := cycle, order := if head then -o else o
    sched := c.sched || (!head && 0 < c.period)
    toGo := if !c.sched && !head && 0 < c.period then c.period else c.toGo }) s
  { s with starter := { s.starter with order := s.starter.order + 1 } }

/-- A post of a task at a SYSCLK cycle (R262); `direct` for a period expiry, which bypasses TCB_DELAY (R268). A number
above 4,095 names no task (R260). -/
def postWith (direct : Bool) (t cycle : Nat) (s : State) : State :=
  if t ≥ 4096 then s
  else
    let c := tcb t s
    if c.mask = 0 ∨ c.state = 4 ∨ c.state = 1 then modTcb t Tcb.absorb s
    else if c.state = 3 then (if direct then enterReady t cycle false s else modTcb t Tcb.absorb s)
    else if c.state = 2 then
      modTcb t (fun c => if c.rpt then c.absorb else { c with rpt := true }) s
    else if c.delay = 0 ∨ direct then enterReady t cycle false s
    else modTcb t (fun c => { c with state := 3, left := c.delay }) s

/-- A post of a task (R262). -/
def post (t : Nat) (s : State) : State := postWith false t s.time.sys s

end Sys2Proof.Machine
end

