-- ==== Sys2Proof/Machine/Timing.lean ====
section
/-! DEFINITION. Edges, formats, the pulse-width guard, timing sets and the arm-time check
(02_edges_and_timing_sets.md). Instants are counted in Tref/1024 from TCLK lock. -/
namespace Sys2Proof.Machine

/-- One Tref in the units of an instant (R4). -/
def tref : Nat := 1024

/-- One SEQCLK cycle: two Tref (R9). -/
def seqclk : Nat := 2048

/-- The first Tref edge at or after an instant. -/
def nextTref (t : Nat) : Nat := ceilDiv t tref * tref

/-- The first SEQCLK edge at or after an instant. -/
def nextSeqclk (t : Nat) : Nat := ceilDiv t seqclk * seqclk

/-- The SEQCLK edge at which a firing of a trigger or timer reaches the sequencers (R148). -/
def reachesSeq (edge : Nat) : Nat := nextSeqclk (edge + 16 * tref)

/-- A code's duration in fs, to nearest, ties up (R4, R48). -/
def codeToFs (c : Nat) : Nat := roundDiv (c * 625000) 1024

/-- The code nearest a duration in fs, ties up (R48). -/
def fsToCode (fs : Nat) : Nat := roundDiv (fs * 1024) 625000

/-- A signed code's duration in fs (R48). -/
def codeToFsI (c : Int) : Int := roundDivI (c * 625000) 1024

/-- The signed code nearest a duration in fs (R48). -/
def fsToCodeI (fs : Int) : Int := roundDivI (fs * 1024) 625000

/-! ### Groups, gangs and modes (R14–R17) -/

/-- The leader of a group's gang (R17). -/
def leader (g : Nat) (s : State) : Nat := rd (K.cgGang g) s

/-- The members of the gang a group belongs to, lowest first (R17). -/
def members (g : Nat) (s : State) : List Nat :=
  (List.range 16).filter (fun m => leader m s == leader g s)

/-- The run mode of a group: 0 Distance, 1 Sprint, 2 Dash (R14). -/
def mode (g : Nat) (s : State) : Nat := rd (K.cgMode g) s

/-- The run state of a group (R136): 0 OFF, 1 READY, 2 ARMED, 3 RUNNING, 4 PAUSED, 5 HALTED, 6 FENCED. -/
def runState (g : Nat) (s : State) : Nat := rd (K.runState g) s

/-- ARMED, RUNNING or PAUSED: the states in which RWS objects refuse a write (R372). -/
def busyState (r : Nat) : Bool := r = 2 || r = 3 || r = 4

/-- The channels of a group that carry pattern (CG_ACTIVE_CH, R21): bit k is channel 16g + k. -/
def activeMask (g : Nat) (s : State) : Nat :=
  if fenced g s then 0 else if mode g s = 2 then 0x5555 else 0xFFFF

/-- The numbers within the group of the channels that carry pattern. -/
def activeCh (g : Nat) (s : State) : List Nat := bitsOf (activeMask g s) 16

/-- Whether TCLK is locked (R12). -/
def tclkLocked (s : State) : Bool := (rd K.clkStatus s).testBit 2

/-! ### Deskew (R44) -/

/-- The drive deskew of a channel unit, test or system. -/
def deskewDrv (n : Nat) (s : State) : Int :=
  toSigned 32 (if n < 256 then rd (K.chDeskewDrv n) s else rd (K.sysDeskew (n - 256)) s)

/-- The compare deskew of a test channel. -/
def deskewCmp (n : Nat) (s : State) : Int := toSigned 32 (rd (K.chDeskewCmp n) s)

/-- The instant at the balls of an edge: its time with the deskew of its kind (R44). -/
def ballTime (n : Nat) (e : Edge) (s : State) : Int :=
  (e.t : Int) + if e.gen = 6 ∨ e.gen = 7 ∨ e.gen = 9 then deskewCmp n s
    else if e.act = .safeDen ∨ e.act = .safeDrv then 0 else deskewDrv n s

/-! ### From pin code to events (R30–R32, R86, R87) -/

/-- The drive events of a built-in format for P or N (R31): generator and action. -/
def formatDrive (sel : Nat) (p : Bool) : List (Nat × EdgeAct) :=
  let up := EdgeAct.drv true
  let dn := EdgeAct.drv false
  match sel with
  | 0 => [(0, .drv p)]
  | 1 => [(1, .drv p)]
  | 2 => if p then [(0, up), (1, dn)] else [(0, dn)]
  | 3 => if p then [(0, up)] else [(0, dn), (1, up)]
  | 4 => if p then [(0, up), (1, dn)] else [(0, dn), (1, up)]
  | 5 => if p then [(0, dn), (1, up), (2, dn)] else [(0, up), (1, dn), (2, up)]
  | 6 => if p then [(0, up), (1, dn), (2, up), (3, dn)] else [(0, dn)]
  | 7 => if p then [(0, .toggle)] else []
  | 8 => if p then [(0, up), (2, dn)] else [(0, up), (1, dn)]
  | 9 => if p then [(0, dn), (1, up)] else [(0, up), (1, dn)]
  | 10 => [(0, .drv p)]
  | _ => []

/-- The enable events of a built-in format: "on at EE0", or the drive window of IOW (R31). -/
def formatEnable (sel : Nat) : List (Nat × EdgeAct) :=
  if sel = 10 then [(4, .den true), (5, .den false)] else [(4, .den true)]

/-- The drive action of a two-bit field of a user waveform table (R32). -/
def uwtDrive (w pos gen : Nat) : List (Nat × EdgeAct) :=
  match (w >>> pos) % 4 with
  | 1 => [(gen, .drv false)]
  | 2 => [(gen, .drv true)]
  | 3 => [(gen, .toggle)]
  | _ => []

/-- The enable action of a two-bit field of a user waveform table (R32). -/
def uwtEnable (w pos gen : Nat) : List (Nat × EdgeAct) :=
  match (w >>> pos) % 4 with
  | 1 => [(gen, .den true)]
  | 2 => [(gen, .den false)]
  | _ => []

/-- The events of a user waveform table for P or N (R32). -/
def uwtEvents (w : Nat) (p : Bool) : List (Nat × EdgeAct) :=
  let b := if p then 0 else 12
  let drive := (List.range 4).flatMap (fun i => uwtDrive w (b + 2 * i) i)
  let enable := uwtEnable w (b + 8) 4 ++ uwtEnable w (b + 10) 5
  drive ++ if enable.isEmpty then [(4, .den true)] else enable

/-- The events of P or N under a selector in Distance. -/
def formatEvents (g sel : Nat) (p : Bool) (s : State) : List (Nat × EdgeAct) :=
  if sel < 16 then formatDrive sel p ++ formatEnable sel else uwtEvents (rd (K.uwt g (sel - 16)) s) p

/-- What a compare code asks for: 1 L, 2 H, 3 M, 4 C, 5 E; 0 no strobe. -/
def distanceCmp (code : Nat) : Nat :=
  match code with
  | 0x2 => 1
  | 0x3 => 2
  | 0x4 => 3
  | 0x8 => 4
  | 0x9 => 5
  | _ => 0

/-- The drive and enable events of a Distance pin code (R30, R86). -/
def distanceEvents (g n code sel : Nat) (s : State) : List (Nat × EdgeAct) :=
  match code with
  | 0x0 => [(0, .drv false), (4, .den true)]
  | 0x1 => [(0, .drv true), (4, .den true)]
  | 0xA => formatEvents g sel true s
  | 0xB => formatEvents g sel false s
  | 0x7 => [(4, .den true)]
  | 0x6 => [(5, .den false)]
  | 0xC => [(0, .drv (rd (K.chTermSel n) s = 1)), (5, .den false)]
  | 0x2 | 0x3 | 0x4 | 0x8 | 0x9 => [(5, .den false)]
  | _ => []

/-- What a Sprint or Dash code asks for on a compare-only lane (R87), as `distanceCmp`. -/
def laneCmp (code : Nat) : Nat :=
  match code with
  | 0 => 1
  | 1 => 2
  | 2 => 3
  | _ => 0

/-- The drive events of a Sprint code on a drive-only lane (R87). -/
def sprintEvents (code sel : Nat) : List (Nat × EdgeAct) :=
  match code with
  | 0 => [(0, .drv false)]
  | 1 => [(0, .drv true)]
  | 2 => formatDrive sel true
  | _ => formatDrive sel false

/-- The drive event of a Dash code on a drive-only lane: P drives as 1 and N as 0 (R87). -/
def dashEvents (code : Nat) : List (Nat × EdgeAct) := [(0, .drv (code = 1 ∨ code = 2))]

/-! ### The outputs and the pulse-width guard (R33, R34) -/

/-- The least pulse of R27 in Tref/1024: 200 ps rounded up, or one UI in Dash (DEDUCED, log 17). -/
def guardOf (n : Nat) (s : State) : Nat :=
  if n < 256 ∧ mode (n / 16) s = 2 then 256 else 328

/-- A transition to a level at an instant: none where the level is held; both transitions removed where
it follows the last one emitted too closely. The second component says that a pair was removed. -/
def OutPin.emit (guard t : Nat) (v : Bool) (p : OutPin) : OutPin × Bool :=
  if v = p.level then (p, false)
  else match p.last with
    | some l =>
      if t < l + guard then ({ level := v, last := p.prev, prev := none }, true)
      else ({ level := v, last := some t, prev := some l }, false)
    | none => ({ level := v, last := some t, prev := none }, false)

/-- A level forced on an output, outside the guard (R350). -/
def OutPin.force (t : Nat) (v : Bool) (p : OutPin) : OutPin :=
  if v = p.level then p else { level := v, last := some t, prev := p.last }

/-- The first edge conflict of a run raises F261 + 16g (R36). -/
def edgeConflict (n : Nat) (s : State) : State :=
  if n < 256 then
    let g := n / 16
    if (grp g s).conflict then s
    else raiseFault (261 + 16 * g) (modGrp g (fun x => { x with conflict := true }) s)
  else s

/-- A pair removed by the guard is counted (R34, R36). System channels have no counter. -/
def countGuard (n : Nat) (s : State) : State :=
  if n < 256 then edgeConflict n (bump16 (K.chGuardCancels n) s) else s

/-- An edge dropped by R35 is counted (R36). -/
def countDrop (n : Nat) (s : State) : State :=
  if n < 256 then edgeConflict n (bump16 (K.chEdgeDrops n) s) else s

/-- A drive event at its instant at the balls. -/
def emitDrv (n t : Nat) (v : Bool) (s : State) : State :=
  let r := (chan n s).drv.emit (guardOf n s) t v
  let s' := modChan n (fun c => { c with drv := r.1 }) s
  if r.2 then countGuard n s' else s'

/-- An enable event at its instant at the balls. -/
def emitDen (n t : Nat) (v : Bool) (s : State) : State :=
  let r := (chan n s).den.emit (guardOf n s) t v
  let s' := modChan n (fun c => { c with den := r.1 }) s
  if r.2 then countGuard n s' else s'

/-! ### Acceptance and dropping of edges (R28, R29, R35) -/

/-- The time of the latest edge of a generator that is accepted and not dropped (R35). -/
def Chan.latest (gen : Nat) (c : Chan) : Option Nat :=
  match (c.sched.filter (fun e => e.gen == gen)).getLast? with
  | some e => some e.t
  | none => Tab.find gen c.fired

/-- An edge that the chain places: accepted into the schedule, or dropped as an order violation (R35).
A dropped ST1 leaves the closing of a TDC window at the instant it was due (generator 9, R59). -/
def placeEdge (n : Nat) (ghost : Bool) (e : Edge) (s : State) : State :=
  let c := chan n s
  let late := match c.latest e.gen with
    | some l => decide (e.t ≤ l)
    | none => false
  if late then
    let s := countDrop n s
    if ghost then setChan n { chan n s with sched := (chan n s).sched ++ [{ e with gen := 9 }] } s else s
  else setChan n { c with sched := c.sched ++ [e] } s

/-- An edge placed without judgement of order: an entry to the safe state or a lane change (R350, R87). -/
def placeFree (n : Nat) (e : Edge) (s : State) : State :=
  modChan n (fun c => { c with sched := c.sched ++ [e] }) s

/-- The entry of a channel into the safe state at or after an instant: DEN off at the first Tref edge,
DRV to its level 4 Tref later (R350). Edges scheduled earlier are gone. -/
def enterSafe (n t : Nat) (s : State) : State :=
  let t0 := nextTref t
  modChan n (fun c => { c with
    sched := [{ t := t0, cyc := 0, gen := 8, vec := 0, act := .safeDen },
              { t := t0 + 4 * tref, cyc := 0, gen := 8, vec := 0, act := .safeDrv }]
    win := [], tdcH := [], tdcL := [] }) s

/-- The DRV level of the safe state: CH_TERM_SEL of a test channel, low on a system channel (R350). -/
def safeDrvLevel (n : Nat) (s : State) : Bool := n < 256 && rd (K.chTermSel n) s = 1

/-! ### Periods (R26) -/

/-- The period code in force of timing set t of a group, inherited where zero (R26). -/
def periodOf (g t : Nat) (s : State) : Nat :=
  let p := tsPeriodOf (leader g s) t s
  if p = 0 then rd (K.cgBasePeriodAct (leader g s)) s else p

/-- The length of the cycle of a vector: the period in Distance, Tref/2 in Sprint, one UI in Dash. -/
def cycleLen (g t : Nat) (s : State) : Nat :=
  match mode g s with
  | 0 => periodOf g t s
  | 1 => 512
  | _ => 256

/-- Cycles after which an edge not fired is dropped (R35). -/
def carryCycles (g : Nat) (s : State) : Nat := if mode g s = 2 then 16 else 4

/-! ### The arm-time check (R27, R42) -/

/-- The drive edges that a format uses in either case (R31, R32). -/
def usedDrive (w sel : Nat) : List Nat :=
  let ev := fun p => if sel < 16 then formatDrive sel p else uwtEvents w p
  (List.range 4).filter (fun i => (ev true ++ ev false).any (fun e => e.1 == i))

/-- Whether drive edges stand in strictly increasing order with at least 200 ps between (rule 5). -/
def spaced (edges : List Nat) : List Nat → Bool
  | i :: j :: t => (edges.getD i 0 + 328 ≤ edges.getD j 0) && spaced edges (j :: t)
  | _ => true

/-- Whether a user table uses both enable edges in one case (rule 6). -/
def bothEnables (w : Nat) (p : Bool) : Bool :=
  let b := if p then 0 else 12
  (w >>> (b + 8)) % 4 != 0 && (w >>> (b + 10)) % 4 != 0

/-- Whether a user table holds the reserved enable action (rule 7). -/
def reservedEnable (w : Nat) : Bool :=
  [8, 10, 20, 22].any (fun b => (w >>> b) % 4 == 3)

/-- The rule of R42 that a timing-set entry breaks, in the order of report; 0 none. `m` is the mode,
`p` the period, `w` the user table that the entry references. -/
def entryRule (m p w : Nat) (ts : TimingSet) : Nat :=
  let e := fun i => ts.edges.getD i 0
  let used := usedDrive w ts.fmt
  if m = 0 ∧ p < 0x400 then 1
  else if 11 ≤ ts.fmt ∧ ts.fmt ≤ 15 then 4
  else if m = 2 ∧ ts.fmt ≠ 0 then 8
  else if m = 1 ∧ ¬ [0, 1, 2, 3, 4, 7, 9].contains ts.fmt then 3
  else if m = 0 ∧ 16 ≤ ts.fmt ∧ reservedEnable w then 7
  else if m = 0 ∧ ([0, 4, 5, 6, 7] ++ used).any (fun i => 4 * p ≤ e i) then 2
  else if m = 1 ∧ ([0, 4, 6] ++ used).any (fun i => 2048 ≤ e i) then 2
  else if m = 2 ∧ (2048 ≤ e 0 ∨ 4096 ≤ e 6) then 2
  else if m ≠ 2 ∧ ¬ spaced ts.edges used then 5
  else if m = 0 ∧ (ts.fmt = 10 ∨ (16 ≤ ts.fmt ∧ (bothEnables w true ∨ bothEnables w false))) ∧
      ¬ (e 4 + 328 ≤ e 5) then 6
  else 0

/-- Timing sets per channel that a mode has (R27). -/
def setsOf (m : Nat) : Nat := match m with | 0 => 64 | 1 => 16 | _ => 4

/-- The user table that a timing set references, of the member group (R42). -/
def uwtOf (g : Nat) (ts : TimingSet) (s : State) : Nat :=
  if 16 ≤ ts.fmt then rd (K.uwt g (ts.fmt - 16)) s else 0

/-- The rule that set t of channel k of member g breaks; 0 none. -/
def setRule (g k t : Nat) (s : State) : Nat :=
  let ts := tset (16 * g + k) t s
  entryRule (mode g s) (periodOf g t s) (uwtOf g ts s) ts

/-- The value of TS_CHECK for the first failing entry of the gang, in order of channel and then set
index; 0 where every entry passes (R42, R43). -/
def tsCheck (g : Nat) (s : State) : Nat :=
  let entries := (members g s).flatMap (fun m => (activeCh m s).flatMap (fun k =>
    (List.range (setsOf (mode g s))).map (fun t => (m, k, t))))
  match entries.find? (fun x => setRule x.1 x.2.1 x.2.2 s != 0) with
  | some x => 2 ^ 31 + setRule x.1 x.2.1 x.2.2 s * 2 ^ 27 + x.2.2 * 2 ^ 21 + x.2.1 * 2 ^ 12 + x.1 * 2 ^ 8
  | none => 0

/-- Whether every inheriting set of an active channel passes with a base period (R40). -/
def basePeriodOk (g p : Nat) (s : State) : Bool :=
  (members g s).all (fun m => (activeCh m s).all (fun k => (List.range (setsOf (mode g s))).all (fun t =>
    tsPeriodOf (leader g s) t s != 0 ||
    (let ts := tset (16 * m + k) t s
     entryRule (mode m s) p (uwtOf m ts s) ts == 0))))

/-! ### System channels (R45, R46, R49) -/

/-- Whether a system channel's period, edges and format satisfy R49. -/
def sysTimingOk (period de0 de1 fmt : Nat) : Bool :=
  de0 < de1 && de1 < period && de0 + 328 ≤ de1 && de1 + 328 ≤ period + de0 && [0, 2, 3, 4, 9].contains fmt

/-- The DE0 and DE1 codes of SYSk. -/
def sysEdges (k : Nat) (s : State) : Nat × Nat :=
  let b := blob (leBytes 4 0 ++ leBytes 4 0x2000) (K.sysEdge k) s
  (leAt 0 4 b, leAt 4 4 b)

/-! ### Link parameters and the LEMC (R313, R315) -/

/-- L, M, S, E or MULT of a direction's parameters. -/
def linkParam (k i : Nat) (s : State) : Nat := leAt i 1 (blob [1#8, 1#8, 1#8, 1#8, 20#8] k s)

/-- The lane rate in bit/s: DEVCLK × MULT. -/
def laneRate (k : Nat) (s : State) : Nat := rd K.jesdDevclkHz s * linkParam k 4 s

/-- Whether a lane rate lies in range. -/
def rateOk (k : Nat) (s : State) : Bool := 6000000000 ≤ laneRate k s && laneRate k s ≤ 16500000000

/-- Whether a direction's parameter set agrees with R313; the lane rate is checked while DEVCLK is present. -/
def linkOk (k : Nat) (s : State) : Bool :=
  let l := linkParam k 0 s
  let m := linkParam k 1 s
  let n := linkParam k 2 s
  let e := linkParam k 3 s
  [1, 2, 4, 8].contains l && [1, 2, 4, 8].contains m && [1, 2, 4].contains n &&
  (2 * m * n) % (max l 1) = 0 && [1, 2, 4, 8, 16].contains (2 * m * n / l) && 1 ≤ e && e ≤ 32 && 256 * e % (max 1 (2 * m * n / l)) = 0 &&
  20 ≤ linkParam k 4 s && linkParam k 4 s ≤ 165 && (rd K.jesdDevclkHz s = 0 || rateOk k s)

/-- The sample rate Fs as a fraction of two integers (R313). -/
def sampleRate (k : Nat) (s : State) : Nat × Nat :=
  (linkParam k 0 s * laneRate k s * 64, 66 * 16 * linkParam k 1 s)

/-- The LEMC period in bits of a lane (R315): E × 2,048 bits, every 64 of them sent as 66. -/
def lemcBits (k : Nat) (s : State) : Nat := linkParam k 3 s * 2112

/-- Whether a DEVCLK edge falls on an LEMC boundary. -/
def Lemc.hits (k : Nat) (x : Lemc) (edge : Nat) (s : State) : Bool :=
  ((edge : Int) - x.edge) * linkParam k 4 s % max 1 (lemcBits k s) = 0

/-- The first LEMC boundary at or after an instant, in Tref/1024, reckoned from the latest SYSREF edge and the measured
DEVCLK (R315, log 33); the instant itself where no LEMC runs. -/
def lemcAfter (k : Nat) (x : Option Lemc) (t : Nat) (s : State) : Nat :=
  match x with
  | none => t
  | some x =>
    let rate : Int := laneRate k s
    let second : Int := 1600000000 * tref
    let shift := ((x.edge : Int) - x.seen) * linkParam k 4 s * second
    let period := (lemcBits k s : Int) * second
    if rate = 0 ∨ period = 0 then t
    else
      let n := -((shift - ((t : Int) - x.on) * rate) / period)
      (x.on - (-(shift + n * period)) / rate).toNat

/-- The last LEMC boundary at or before an instant. -/
def lemcBefore (k : Nat) (x : Option Lemc) (t : Nat) (s : State) : Nat :=
  match x with
  | none => t
  | some _ =>
    let rate := laneRate k s
    let next := lemcAfter k x (t + 1) s
    if rate = 0 then t else min t (next - ceilDiv (lemcBits k s * 1600000000 * tref) rate)

end Sys2Proof.Machine
end

