-- ==== Sys2Proof/Machine/Compare.lean ====
section
/-! DEFINITION. Strobes, windows, time stamps, verdicts, the capture ring and the fail FIFO
(03_compare_capture_fails.md). -/
namespace Sys2Proof.Machine

/-! ### Comparator inputs (R50, R51) -/

/-- The two inputs of a channel after CH_CMP_INV (R50). -/
def cmpInputs (n : Nat) (s : State) : Bool × Bool :=
  let c := chan n s
  let inv := rd (K.chCmpInv n) s = 1
  (xor c.cmpH inv, xor c.cmpL inv)

/-- The levels of the two inputs before the transitions after an instant, newest first, are undone. -/
def rewind (bt : Nat) : List Transition → Bool × Bool → Bool × Bool
  | [], io => io
  | x :: t, io => if x.t ≤ bt then io else rewind bt t (if x.cl then (io.1, !x.level) else (!x.level, io.2))

/-- The two inputs at an instant at the balls, after CH_CMP_INV (R50): a strobe with negative compare deskew may lie
before transitions that have come already (R44). -/
def inputsAt (n bt : Nat) (s : State) : Bool × Bool :=
  let c := chan n s
  let inv := rd (K.chCmpInv n) s = 1
  let io := rewind bt c.past (c.cmpH, c.cmpL)
  (xor io.1 inv, xor io.2 inv)

/-- Whether a state of the inputs passes L (1), H (2) or M (3); the others never fail (R51). -/
def passes (cmp : Nat) (h l : Bool) : Bool :=
  match cmp with
  | 1 => l && !h
  | 2 => h && !l
  | 3 => !h && !l
  | _ => true

/-- 100 ps in Tref/1024, rounded up (R54). -/
def windowLimit : Nat := 164

/-- 0.5 Tref, the dead time of a TDC (R60). -/
def tdcGap : Nat := 512

/-! ### The judging list of a member group -/

/-- The judging entry of a vector changed. -/
def modJudge (g vec : Nat) (f : Judge → Judge) (s : State) : State :=
  modGrp g (fun x => { x with judges := x.judges.map (fun j => if j.vec == vec && !j.empty then f j else j) }) s

/-- A channel fails a vector (R57); `w` where the fail is that of R55. -/
def failVec (n vec : Nat) (w : Bool) (s : State) : State :=
  modJudge (n / 16) vec (fun j => { j with
    fail := setBit j.fail (n % 16)
    wfail := if w then setBit j.wfail (n % 16) else j.wfail }) s

/-- A channel's sampled states enter the capture entry of a vector at the bits of a strobe (R64). -/
def captureBits (n vec strobe : Nat) (h l : Bool) (s : State) : State :=
  modJudge (n / 16) vec (fun j => { j with
    cmask := setBit j.cmask (n % 16)
    cap := putBit (putBit j.cap (4 * (n % 16) + 2 * strobe) l) (4 * (n % 16) + 2 * strobe + 1) h }) s

/-! ### Windows (R53–R55, R59, R60) -/

/-- A departure of the given length inside a window: it fails the vector from 100 ps on, and below that
may or may not (R54). -/
def departure (n vec len : Nat) (s : State) : State :=
  if windowLimit ≤ len then failVec n vec false s
  else
    let r := drawBool s
    if r.1 then failVec n vec false r.2 else r.2

/-- The compare window of a vector learns that its ST1 fires at an instant at the balls, which it includes (R54). -/
def endWindow (n vec t : Nat) (s : State) : State :=
  modChan n (fun c => { c with win := c.win.map (fun w => if w.vec == vec then { w with closes := some (t + 1) } else w) }) s

/-- The TDC windows of a vector learn that they end with an instant at the balls, which they include (R59). -/
def endTdc (n vec t : Nat) (s : State) : State :=
  let note := fun (w : TdcWin) => if w.vec == vec then { w with closes := some (t + 1) } else w
  modChan n (fun c => { c with tdcH := c.tdcH.map note, tdcL := c.tdcL.map note }) s

/-- A compare window is over: a departure in progress at its end is judged (R53, R54). -/
def closeWindow (n : Nat) (w : CmpWin) (s : State) : State :=
  let s := modChan n (fun c => { c with win := c.win.filter (fun x => x.vec != w.vec) }) s
  match w.away, w.closes with
  | some a, some c => departure n w.vec (c - 1 - a) s
  | _, _ => s

/-- The stamps that a TDC window has recorded: OVR stands in the last where a transition was not recorded (R60). -/
def TdcWin.stamps (w : TdcWin) : List Stamp :=
  if w.missed then (match w.recs.getLast? with | some r => w.recs.dropLast ++ [{ r with ovr := true }] | none => [])
  else w.recs

/-- A TDC window closes: what it has recorded becomes the stamps of its vector (R59, R65). -/
def closeTdc (n vec : Nat) (s : State) : State :=
  let c := chan n s
  let recs := (c.tdcH.filter (fun w => w.vec == vec)).flatMap (·.stamps) ++
    (c.tdcL.filter (fun w => w.vec == vec)).flatMap (·.stamps)
  let s := modChan n (fun c => { c with
    tdcH := c.tdcH.filter (fun w => w.vec != vec), tdcL := c.tdcL.filter (fun w => w.vec != vec) }) s
  modJudge (n / 16) vec (fun j => { j with stamps := j.stamps ++ recs }) s

/-- Whether a window's end lies at or before an instant. -/
def endedBy (t : Nat) (closes : Option Nat) : Bool := match closes with | some c => decide (c ≤ t) | none => false

/-- The windows of a channel whose end has come by an instant (R54, R59). -/
def expireWindows (n t : Nat) (s : State) : State :=
  let s := forEach ((chan n s).win.filter (fun w => endedBy t w.closes)) (closeWindow n) s
  forEach ((chan n s).tdcH.filter (fun w => endedBy t w.closes)) (fun w s => closeTdc n w.vec s) s

/-- The stamps of one input after a transition (R60): the first, then the next at least 0.5 Tref later,
two at most; any other is not recorded. -/
def recordStamp (r : Stamp) (w : TdcWin) : TdcWin :=
  match w.recs.getLast? with
  | none => { w with recs := [r] }
  | some l =>
    if w.recs.length < 2 ∧ l.t + tdcGap ≤ r.t then { w with recs := w.recs ++ [r] }
    else { w with missed := true }

/-- Whether an instant lies in a TDC window (R59), which `closes` ends where it is known. -/
def TdcWin.holds (t : Nat) (w : TdcWin) : Bool :=
  w.opened ≤ t && (match w.closes with | some c => decide (t < c) | none => true)

/-- The direction of a transition after CH_CMP_INV (R65). -/
def Transition.dir (x : Transition) (n : Nat) (s : State) : Bool := xor x.level (rd (K.chCmpInv n) s = 1)

/-- A TDC window of a channel sees a transition of its input (R60). -/
def TdcWin.see (n : Nat) (dir : Bool) (x : Transition) (w : TdcWin) : TdcWin :=
  if w.holds x.t then recordStamp { vec := w.vec, ch := n % 16, cl := x.cl, dir, ovr := false, t := x.t } w else w

/-- The transitions of a channel from an instant on, oldest first. -/
def Chan.since (bt : Nat) (c : Chan) : List Transition := (c.past.filter (fun x => bt ≤ x.t)).reverse

/-- Both TDCs of a channel open for a vector, and see the transitions that have come since the opening instant, that
instant included (R59, R60). -/
def openTdc (n vec t : Nat) (closes : Option Nat) (s : State) : State :=
  let w : TdcWin := { vec, opened := t, closes, recs := [] }
  let win := fun (cl : Bool) => (((chan n s).since t).filter (fun x => x.cl == cl)).foldl
    (fun w x => w.see n (x.dir n s) x) w
  modChan n (fun c => { c with tdcH := c.tdcH ++ [win false], tdcL := c.tdcL ++ [win true] }) s

/-- The window detectors of some vectors of a channel see its inputs at an instant (R54): a departure begins or
ends. -/
def seeWindows (n t : Nat) (vecs : Nat → Bool) (s : State) : State :=
  let io := inputsAt n t s
  let ended := (chan n s).win.filter (fun w => vecs w.vec && passes w.code io.1 io.2 && w.away.isSome)
  let s := modChan n (fun c => { c with win := c.win.map (fun w =>
    if !vecs w.vec then w
    else if passes w.code io.1 io.2 then { w with away := none }
    else { w with away := some (w.away.getD t) }) }) s
  forEach ended (fun w s => departure n w.vec (t - w.away.getD t) s) s

/-- The window detector of a channel opens for a vector at an instant, and sees the transitions that have come since
(R53, R54). -/
def openWindow (n vec cmp bt : Nat) (s : State) : State :=
  let io := inputsAt n bt s
  let w : CmpWin := { vec, code := cmp, opened := bt, away := if passes cmp io.1 io.2 then none else some bt }
  let s := modChan n (fun c => { c with win := c.win ++ [w] }) s
  forEach (((chan n s).since bt).filter (fun x => bt < x.t)) (fun x s => seeWindows n x.t (· == vec) s) s

/-- A transition seen by the window detectors and one TDC of a channel (R54, R60). -/
def seeTransition (n : Nat) (x : Transition) (s : State) : State :=
  let s := seeWindows n x.t (fun _ => true) (expireWindows n x.t s)
  let dir := x.dir n s
  modChan n (fun c =>
    if x.cl then { c with tdcL := c.tdcL.map (·.see n dir x) } else { c with tdcH := c.tdcH.map (·.see n dir x) }) s

/-! ### Strobes (R51–R56) -/

/-- Whether a strobe at a time, before deskew, falls in a warm-up dead time, an underrun hold or the stop
for a format error (R56). -/
def strobeMasked (g t : Nat) (s : State) : Bool :=
  (seq (leader g s) s).masks.any (fun m => m.since ≤ t && (match m.till with | some e => decide (t < e) | none => true))

/-- CH_CMP_MODE of a channel as it judges: single outside Distance (R53). -/
def cmpMode (n : Nat) (s : State) : Nat := if mode (n / 16) s = 0 then rd (K.chCmpMode n) s else 0

/-- Whether an ST1 of the vector is still due after a time: a real one, or for a TDC one that was dropped. -/
def laterSt1 (n vec t : Nat) (ghost : Bool) (s : State) : Bool :=
  (chan n s).sched.any (fun e => (e.gen == 7 || (ghost && e.gen == 9)) && e.vec == vec && t < e.t)

/-- ST0 of a vector fires at a time, seen at the balls at `bt` (R51, R53, R55, R59, R64). -/
def fireSt0 (n vec t bt cmp : Nat) (tdc : Bool) (s : State) : State :=
  let io := inputsAt n bt s
  let m := cmpMode n s
  let s :=
    if cmp = 4 then captureBits n vec 0 io.1 io.2 s
    else if 1 ≤ cmp ∧ cmp ≤ 3 then
      (if m = 2 then
        (if laterSt1 n vec t false s then openWindow n vec cmp bt s else failVec n vec true s)
      else if passes cmp io.1 io.2 then s else failVec n vec false s)
    else s
  if !tdc then s
  else if mode (n / 16) s = 0 then (if laterSt1 n vec t true s then openTdc n vec bt none s else s)
  else openTdc n vec bt (some (bt + if mode (n / 16) s = 1 then 512 else 256)) s

/-- ST1 of a vector fires, seen at the balls at `bt`. -/
def fireSt1 (n vec bt cmp : Nat) (tdc : Bool) (s : State) : State :=
  let io := inputsAt n bt s
  let m := cmpMode n s
  let s :=
    if cmp = 4 ∧ m ≠ 0 then captureBits n vec 1 io.1 io.2 s
    else if 1 ≤ cmp ∧ cmp ≤ 3 then
      (if m = 2 then endWindow n vec bt s
       else if m = 1 ∧ ¬ passes cmp io.1 io.2 then failVec n vec false s else s)
    else s
  if tdc then endTdc n vec bt s else s

/-- A masked ST1 does not fire: the compare window that its ST0 opened fails its vector, and the TDC window closes with
what it has recorded (R55, R56, log 20). -/
def maskSt1 (n vec : Nat) (s : State) : State :=
  let s := if (chan n s).win.any (fun w => w.vec == vec) then
      modChan n (fun c => { c with win := c.win.filter (fun w => w.vec != vec) }) (failVec n vec true s) else s
  closeTdc n vec s

/-- Carry overflow of one channel at the start of cycle n (R35): edges that would fire at or after it are
dropped; an ST1 dropped after its ST0 fails its window (R55), and the TDC window that it was to close closes at that
start, which the compare deskew shifts as it does every strobe (R44, R59). -/
def dropCarry (n cyc start : Nat) (s : State) : State :=
  let goes := fun (e : Edge) => e.gen != 8 && e.cyc + carryCycles (n / 16) s ≤ cyc && start ≤ e.t
  let late := (chan n s).sched.filter goes
  let s := modChan n (fun c => { c with sched := c.sched.filter (fun e => !goes e) }) s
  forEach late (fun e s =>
    let s := if e.gen = 9 then s else countDrop n s
    let s := if e.gen = 7 ∧ (chan n s).win.any (fun w => w.vec == e.vec) then
        modChan n (fun c => { c with win := c.win.filter (fun w => w.vec != e.vec) }) (failVec n e.vec true s)
      else s
    match e.act with
    | .strobe1 _ true => modChan n (fun c => { c with sched := c.sched ++ [{ e with gen := 9, t := start }] }) s
    | _ => s) s

/-! ### Entries and records (R63–R65, R73) -/

/-- A 16-byte entry from its two words. -/
def entry (w1 w0 : Nat) : Nat := w1 * 2 ^ 64 + w0 % 2 ^ 64

/-- The vector count field (R63). -/
def vecField (v : Nat) : Nat := v % 2 ^ 44

/-- A capture entry (R64). -/
def captureEntry (j : Judge) : Nat := entry (0x1 * 2 ^ 60 + j.cmask * 2 ^ 44 + vecField j.vec) j.cap

/-- The instant of a stamp, counted from the run's first cycle start with compare deskew removed (R61). -/
def stampTime (g : Nat) (r : Stamp) (s : State) : Nat :=
  ((r.t : Int) - deskewCmp (16 * g + r.ch) s - (seq (leader g s) s).origin).toNat

/-- A stamp entry (R65). -/
def stampEntry (g : Nat) (r : Stamp) (s : State) : Nat :=
  entry (0x2 * 2 ^ 60 + r.ch * 2 ^ 56 + (if r.cl then 2 ^ 55 else 0) + (if r.dir then 2 ^ 54 else 0) +
    (if r.ovr then 2 ^ 53 else 0) + vecField r.vec) (stampTime g r s)

/-- Whole Tref from the run's first cycle start to an instant, truncated (R73). -/
def trefOf (g t : Nat) (s : State) : Nat := (t - (seq (leader g s) s).origin) / tref

/-- A fail record (R73). -/
def failRecord (site : Nat) (w f : Bool) (ts vec cmask tr : Nat) : Nat :=
  entry (0x3 * 2 ^ 60 + site * 2 ^ 54 + (if w then 2 ^ 53 else 0) + (if f then 2 ^ 52 else 0) +
    ts * 2 ^ 44 + vecField vec) (cmask * 2 ^ 48 + tr % 2 ^ 48)

/-- A mark record (R73, R125). -/
def markRecord (vec value tr : Nat) : Nat := entry (0x4 * 2 ^ 60 + vecField vec) (value * 2 ^ 48 + tr % 2 ^ 48)

/-- A sealed-segment fail record (R79). -/
def sealRecord (site : Nat) (f : Bool) (vec tr : Nat) : Nat :=
  entry (0x5 * 2 ^ 60 + site * 2 ^ 54 + (if f then 2 ^ 52 else 0) + vecField vec) (tr % 2 ^ 48)

/-- The type of an entry (R63). -/
def entryType (e : Nat) : Nat := e / 2 ^ 124 % 16

/-- The 16 bytes of an entry (R63). -/
def entryBytes (e : Nat) : Bytes := leBytes 16 e

/-! ### Sites (R72, R77) -/

/-- Whether a channel is mapped to a site (R72); the entries of the odd channels of a Dash group are ignored
(R15). -/
def mappedTo (site n : Nat) (s : State) : Bool := rd (K.chSite n) s == site && !(mode (n / 16) s == 2 && n % 2 == 1)

/-- The channels of group g mapped to a site, as a mask; site 0xFF for none. -/
def siteMask (g site : Nat) (s : State) : Nat :=
  maskOf ((List.range 16).filter (fun k => mappedTo site (16 * g + k) s))

/-- Whether a channel's site is disabled (R56). -/
def siteOff (n : Nat) (s : State) : Bool :=
  let x := rd (K.chSite n) s
  x < 64 && rd (K.siteEnable x) s = 0

/-- The groups that carry a site, by CH_SITE (R72). -/
def siteInGroup (site g : Nat) (s : State) : Bool := siteMask g site s != 0

/-- A site's verdict becomes fail, unless it is invalid (R77). -/
def siteFail (site : Nat) (s : State) : State :=
  if rd (K.siteState site) s = 3 then s else wr (K.siteState site) 2 s

/-- Whether a group is in what R77 calls the run: from its arming on to the end of the run (DESIGN CHOICE, log 66: the
spec does not say whether a fence before the first vector makes sites invalid). -/
def inRun (g : Nat) (s : State) : Bool := busyState (runState g s) || rd (K.runArmBusy (leader g s)) s = 1

/-- Every enabled site with a channel in the group becomes invalid (R23, R77). -/
def siteInvalid (g : Nat) (s : State) : State :=
  forEach ((List.range 64).filter (fun x => siteInGroup x g s && rd (K.siteEnable x) s == 1))
    (fun x s => wr (K.siteState x) 3 s) s

/-! ### The fail FIFO (R71, R74, R75) -/

/-- The entry of capture memory at which record n of a group's FIFO stands (R62): the FIFO is taken as a ring of
4,096 entries from entry 64 (DEDUCED, log 32). -/
def fifoPlace (g n : Nat) (s : State) : Nat := 64 + ((grp g s).fifoHead + n) % 4096

/-- A record enters the FIFO, or is counted where the FIFO is full; the upward crossing of FAIL_LEVEL
posts FAIL_TASK (R71, R74). -/
def pushRecord (g e : Nat) (s : State) : State :=
  let n := (grp g s).fifo.length
  if n ≥ 4096 then bump (K.failLost g) s
  else
    let s := modGrp g (fun x => { x with fifo := x.fifo ++ [e], capMem := Tab.set (fifoPlace g n s) e x.capMem }) s
    if n = rd (K.failLevel g) s then post (rd (K.failTask g) s) s else s

/-- The records that a host or a service may take from the FIFO now, at most n: none while a drain burst holds the
oldest (R70, R74). -/
def takeable (g n : Nat) (s : State) : Nat := if (grp g s).spillFail.isSome then 0 else min n (grp g s).fifo.length

/-- The oldest n records leave the FIFO. -/
def popRecords (g n : Nat) (s : State) : State :=
  modGrp g (fun x => { x with fifo := x.fifo.drop n, fifoHead := (x.fifoHead + n) % 4096 }) s

/-- The first-fail slots of a group as stored (R62, R75). -/
def firstSlots (g : Nat) (s : State) : Bytes :=
  (List.range 64).flatMap (fun i => entryBytes (Tab.get 0 i (grp g s).capMem))

/-- Whether a site already has its first fail in a group since arming (R75). -/
def hasFirst (g site : Nat) (s : State) : Bool := (grp g s).firstDone.testBit site

/-- A site's first-fail slot is written, and a FAIL message sent where RLY_FAIL_TX is set (R75, R310). -/
def writeSlot (g site e : Nat) (s : State) : State :=
  let s := modGrp g (fun x => { x with firstDone := setBit x.firstDone site, capMem := Tab.set site e x.capMem }) s
  if rd K.rlyFailTx s = 1 then relayQueue { kind := 4, origin := 0, s := 0, chips := g, groups := site, entry := 0 } s
  else s

/-- A failing vector of a site in a group: record, slot, count, verdict (R73–R77). `mk` gives the record
for a value of F. -/
def siteRecord (g site : Nat) (mk : Bool → Nat) (s : State) : State :=
  let f := !hasFirst g site s
  let s := if f then writeSlot g site (mk true) s else s
  let s := pushRecord g (mk f) s
  siteFail site (incSat 64 (K.siteFails site g) 1 s)

/-! ### Capture staging (R66) -/

/-- Entries of one vector enter the staging buffer of 256; those from the first that finds it full on are
not written and are counted (R66). -/
def stageEntries (g : Nat) (es : List Nat) (s : State) : State :=
  let room := 256 - (grp g s).stage.length
  let s := modGrp g (fun x => { x with stage := x.stage ++ es.take room }) s
  if es.length ≤ room then s else incSat 32 (K.capLost g) (es.length - room) s

/-- The stamps of a vector in channel order, CH before CL, earlier first (R66). -/
def orderStamps (l : List Stamp) : List Stamp :=
  (List.range 16).flatMap (fun k => l.filter (fun r => r.ch == k && !r.cl) ++ l.filter (fun r => r.ch == k && r.cl))

/-! ### Completing a vector (R57, R58, R64, R65, R73–R79, R117) -/

/-- Whether every strobe and window of a vector is done on the channels of a group. -/
def vecDone (g vec : Nat) (s : State) : Bool :=
  (List.range 16).all (fun k =>
    let c := chan (16 * g + k) s
    !(c.sched.any (fun e => (e.gen == 6 || e.gen == 7 || e.gen == 9) && e.vec == vec)) &&
    !(c.win.any (fun w => w.vec == vec)) && !(c.tdcH.any (fun w => w.vec == vec)))

/-- Whether an entry waits for a MATCH to decide its exit, so that the records of R120 stand before it. -/
def waitsForMatch (g : Nat) (j : Judge) (s : State) : Bool :=
  j.rep.isNone && (seq (leader g s) s).blks.any (fun b => b.isMatch && !b.decided &&
    (match b.reps.head? with | some r => decide (r.firstVec ≤ j.vec) | none => decide (0 < b.rep)))

/-- The per-channel counts of a failing vector (R57, R76, R55). -/
def countFails (g : Nat) (j : Judge) (s : State) : State :=
  let s := forEach (bitsOf j.fail 16) (fun k s => incSat 64 (K.chFails (16 * g + k)) 1 s) s
  forEach (bitsOf j.wfail 16) (fun k s => bump16 (K.chWindowErrs (16 * g + k)) s) s

/-- The sites with a failing channel of the group in a vector, lowest first. -/
def failingSites (g fail : Nat) (s : State) : List Nat :=
  (List.range 64).filter (fun x => (fail &&& siteMask g x s) != 0)

/-- The fail records of a vector: increasing site, then the record of unmapped channels (R72–R74). -/
def logFails (g : Nat) (j : Judge) (s : State) : State :=
  let tr := trefOf g j.start s
  let s := forEach (failingSites g j.fail s) (fun x s =>
    let cm := j.fail &&& siteMask g x s
    siteRecord g x (fun f => failRecord x ((j.wfail &&& siteMask g x s) != 0) f j.ts j.vec cm tr) s) s
  let un := j.fail &&& siteMask g 0xFF s
  if un = 0 then s
  else pushRecord g (failRecord 63 ((j.wfail &&& siteMask g 0xFF s) != 0) false j.ts j.vec un tr) s

/-- The verdict of a vector reaches the sequencer's site flags (R58, R104, R114). -/
def siteFlags (g fail : Nat) (s : State) : State :=
  let sites := maskOf (failingSites g fail s)
  modSeq (leader g s) (fun q => { q with anyFail := q.anyFail || fail != 0, failSites := q.failSites ||| sites }) s

/-- A repetition of a MATCH block learns the failing channels of one of its vectors (R116). -/
def repFails (g : Nat) (j : Judge) (r : Nat × Nat) (s : State) : State :=
  let sites := maskOf (failingSites g j.fail s)
  let note := fun (x : Rep) => if x.n == r.2 then { x with
      fails := x.fails ||| sites
      chans := Tab.set g (Tab.get 0 g x.chans ||| j.fail) x.chans
      wins := Tab.set g (Tab.get 0 g x.wins ||| j.wfail) x.wins } else x
  modSeq (leader g s) (fun q => { q with
    blks := q.blks.map (fun b => if b.id == r.1 then { b with reps := b.reps.map note } else b) }) s

/-- The records of a sealed segment that ends: one for each site that failed during it (R79, R407). -/
def sealRecords (g : Nat) (j : Judge) (first : Nat) (s : State) : State :=
  let sites := bitsOf (grp g s).sealFail 64
  let s := forEach sites (fun x s => siteRecord g x (fun f => sealRecord x f first (trefOf g j.start s)) s) s
  let s := modSeq (leader g s) (fun q => { q with
    anyFail := q.anyFail || !sites.isEmpty, failSites := q.failSites ||| maskOf sites }) s
  modGrp g (fun x => { x with sealFail := 0 }) s

/-- A vector whose strobes and windows are done leaves the judging list with all its effects. A vector of a sealed
segment gives no entry, no mark and no record of its own (R79); one of a MATCH repetition sets the pass flags and
nothing else (R117). -/
def completeVec (g : Nat) (j : Judge) (s : State) : State :=
  let marks := if j.sealed then [] else j.marks
  let s := forEach marks (fun v s => pushRecord g (markRecord j.vec v (trefOf g j.start s)) s) s
  match j.sealEnd with
  | some first => sealRecords g j first s
  | none =>
    if j.empty then s
    else
      let caps := (if j.cmask = 0 then [] else [captureEntry j]) ++ (orderStamps j.stamps).map (fun r => stampEntry g r s)
      let s := if j.sealed then s else stageEntries g caps s
      match j.rep with
      | some r => repFails g j r s
      | none =>
        if j.sealed then modGrp g (fun x => { x with sealFail := x.sealFail ||| maskOf (failingSites g j.fail s) }) s
        else siteFlags g j.fail (logFails g j (countFails g j s))

/-- The front entries of the judging list that are done, completed in order; at most `fuel` of them. -/
def settleVecs (g : Nat) : Nat → State → State
  | 0, s => s
  | fuel + 1, s =>
    match (grp g s).judges with
    | [] => s
    | j :: rest =>
      if (j.empty || vecDone g j.vec s) && !waitsForMatch g j s then
        settleVecs g fuel (completeVec g j (modGrp g (fun x => { x with judges := rest }) s))
      else s

/-- Every entry at the front of a group's judging list that is done is completed. -/
def settleGroup (g : Nat) (s : State) : State := settleVecs g (grp g s).judges.length s

/-! ### The ring (R66–R71) -/

/-- The fill of the ring after a change; its upward crossing of CAP_LEVEL posts CAP_TASK (R71). -/
def setFill (g v : Nat) (s : State) : State :=
  let old := rd (K.capFill g) s
  let s := wr (K.capFill g) v s
  if old ≤ rd (K.capLevel g) s ∧ rd (K.capLevel g) s < v then post (rd (K.capTask g) s) s else s

/-- RING_PENDING: 1 until both sides use the latest length (R69). -/
def ringPending (g : Nat) (s : State) : State :=
  wr (K.ringPending g) (if rd (K.capLenWrAct g) s = rd (K.capLen g) s ∧ rd (K.capLenRdAct g) s = rd (K.capLen g) s
    then 0 else 1) s

/-- A burst of a spill drain that is no longer wanted (R78): taken back where its command has not gone out, and without
effect otherwise. -/
def dropSpill (o : Owner) (s : State) : State :=
  modDram (fun d => { d with reqs := (d.reqs.filter (fun r => r.owner != o || r.issued)).map (fun r =>
    if r.owner == o then { r with owner := .dropped r.owner } else r) }) s

/-- The ring restarts empty with the latest length on both sides (R62, R69). -/
def restartRing (g : Nat) (s : State) : State :=
  let l := rd (K.capLen g) s
  let s := wrs [(K.capWr g, 0), (K.capRd g, 0), (K.capFill g, 0), (K.capLenWrAct g, l), (K.capLenRdAct g, l),
    (K.ringPending g, 0)] s
  modGrp g (fun x => { x with passes := [], spillCap := none, capDone := false, noWrap := false })
    (dropSpill (.capSpill g) s)

/-- The read side moves past k entries, wrapping onto the length of the pass it enters (R69). -/
def releaseEntries (g k : Nat) (s : State) : State :=
  let p := rd (K.capRd g) s + k
  let l := rd (K.capLenRdAct g) s
  let s :=
    if p < l then wr (K.capRd g) p s
    else
      let rest := (grp g s).passes.tail
      let s := modGrp g (fun x => { x with passes := rest }) s
      wr (K.capLenRdAct g) (rest.headD l) (wr (K.capRd g) (p - l) s)
  ringPending g (wr (K.capFill g) (rd (K.capFill g) s - k) s)

/-- A write of CAP_RD to an offset: the state after the release, or none where R68 or CAP_MODE 2 refuses it. -/
def moveCapRd (g v : Nat) (s : State) : Option State :=
  let r := rd (K.capRd g) s
  let l := rd (K.capLenRdAct g) s
  let k := if r ≤ v then v - r else v + l - r
  if rd (K.capMode g) s = 2 ∨ l ≤ v ∨ rd (K.capFill g) s < k then none else some (releaseEntries g k s)

/-- Whether the writer's next place holds an entry not yet released (R67, R69): one of the pass in which the read
side stands, from CAP_RD on, or one of a whole pass between that and the writer's. -/
def ringFull (g : Nat) (s : State) : Bool :=
  let w := rd (K.capWr g) s
  match (grp g s).passes with
  | l :: m :: rest => (rd (K.capRd g) s ≤ w && w < l) || (m :: rest).dropLast.any (fun n => w < n)
  | _ => false

/-- CAP_MODE 1: CAP_RD moves past the oldest entries, each counted, until the writer's next place is free (R67).
After a change of length the entry in that place need not be the oldest, and those before it go with it (DESIGN
CHOICE, log 32). -/
def overwriteOldest (g : Nat) : Nat → State → State
  | 0, s => s
  | n + 1, s => if ringFull g s then overwriteOldest g n (bump (K.capOverruns g) (releaseEntries g 1 s)) else s

/-- The ring writer puts one entry at its offset and wraps at its length (R69). -/
def putEntry (g e : Nat) (s : State) : State :=
  let w := rd (K.capWr g) s
  let l := rd (K.capLenWrAct g) s
  let s := modGrp g (fun x => { x with
    capMem := Tab.set (rd (K.capBase g) s + w) e x.capMem
    passes := if x.passes.isEmpty then [l] else x.passes }) s
  if w + 1 < l then wr (K.capWr g) (w + 1) s
  else
    let n := rd (K.capLen g) s
    let s := modGrp g (fun x => { x with passes := x.passes ++ [n] }) s
    ringPending g (wr (K.capLenWrAct g) n (wr (K.capWr g) 0 s))

/-- Whether the ring writer stands still (R69, R78): in FENCED, and, from HALTED or FENCED on until the ring restarts,
before an entry with which it would wrap (DEDUCED, log 32). -/
def writerStops (g : Nat) (s : State) : Bool :=
  runState g s = 6 || ((grp g s).noWrap && rd (K.capLenWrAct g) s ≤ rd (K.capWr g) s + 1)

/-- The ring writer takes one staged entry under CAP_MODE (R67). -/
def takeEntry (g : Nat) (s : State) : State :=
  match (grp g s).stage with
  | [] => s
  | e :: rest =>
    if writerStops g s then s
    else
      let s := modGrp g (fun x => { x with stage := rest }) s
      let s := if rd (K.capMode g) s = 1 then overwriteOldest g (rd (K.capFill g) s) s else s
      if ringFull g s then bump (K.capLost g) s
      else
        let s := putEntry g e s
        wr (K.capFill g) (rd (K.capFill g) s + 1) s

/-- The oldest n entries of the ring, read at CAP_RD within the length of the read side (R68). -/
def oldestEntries (g n : Nat) (s : State) : List Nat :=
  let r := rd (K.capRd g) s
  let l := rd (K.capLenRdAct g) s
  (List.range n).map (fun i =>
    let o := if r + i < l then r + i else r + i - l
    Tab.get 0 (rd (K.capBase g) s + o) (grp g s).capMem)

end Sys2Proof.Machine
end

