-- ==== Sys2Proof/Machine/Segment.lean ====
section
/-! DEFINITION. Segment images: layout, decoding of vector blocks, and the checks of R96
(04_vector_data_and_segments.md), with the sealed layout of R404. -/
namespace Sys2Proof.Machine

/-! ### CRC-32C (R85) -/

/-- One bit of the reflected Castagnoli polynomial. -/
def crcBit (c : BitVec 32) : BitVec 32 := if c.getLsbD 0 then (c >>> 1) ^^^ 0x82F63B78#32 else c >>> 1

/-- One byte of the CRC. -/
def crcByte (c : BitVec 32) (b : Byte) : BitVec 32 :=
  crcBit (crcBit (crcBit (crcBit (crcBit (crcBit (crcBit (crcBit (c ^^^ b.setWidth 32))))))))

/-- CRC-32C with initial value and final XOR of 0xFFFF_FFFF (R85). -/
def crc32c (b : Bytes) : Nat := ((b.foldl crcByte 0xFFFFFFFF#32) ^^^ 0xFFFFFFFF#32).toNat

/-! ### Reading an image -/

/-- Mapped DRAM in bytes (R188, R189). -/
def mappedBytes (s : State) : Nat := rd K.dramMappedBytes s

/-- The little-endian value of n bytes of an image at an offset. -/
def imgVal (f : Nat → Byte) (o n : Nat) : Nat := leNat ((List.range n).map (fun i => f (o + i)))

/-- Bytes of an image. -/
def imgBytes (f : Nat → Byte) (o n : Nat) : Bytes := (List.range n).map (fun i => f (o + i))

/-- An image as it stands in DRAM. -/
def rawImage (page : Nat) (s : State) : Nat → Byte := fun o => memByte (4096 * page + o) s

/-- The page of a load of it (`Head.key`). -/
def rawPage (key : Nat) : Nat := key % 2 ^ 32

/-- The header and member table of an image (R83, R84), as they stand. -/
def readHead (page : Nat) (s : State) : Head :=
  let f := rawImage page s
  let m := imgVal f 22 1
  { page
    mode := imgVal f 5 1
    flags := imgVal f 6 2
    vlen := imgVal f 8 8
    gcount := imgVal f 16 4
    dictSize := imgVal f 20 2
    nmembers := m
    instrOff := imgVal f 24 8
    instrCount := imgVal f 32 4
    sealParam := imgVal f 40 8
    imageBytes := imgVal f 48 8
    members := (List.range m).map (fun i =>
      { laneType := imgVal f (64 + 64 * i) 2
        dictOff := imgVal f (72 + 64 * i) 8
        gtabOff := imgVal f (80 + 64 * i) 8
        vbOff := imgVal f (88 + 64 * i) 8
        vbBytes := imgVal f (96 + 64 * i) 8 }) }

/-- SEGTRIG of a header (R83). -/
def Head.segtrig (h : Head) : Bool := h.flags.testBit 0
/-- SEALED of a header (R83). -/
def Head.isSealed (h : Head) : Bool := h.flags.testBit 1
/-- PINNED of a header (R83). -/
def Head.isPinned (h : Head) : Bool := h.flags.testBit 2
/-- The key slot that SEAL_PARAM names (R404). -/
def Head.slot (h : Head) : Nat := h.sealParam % 64
/-- The KEY_ID that SEAL_PARAM names (R404). -/
def Head.keyId (h : Head) : Nat := h.sealParam / 256 % 2 ^ 32

/-- The image as the checks see it: plaintext, decrypted in the encrypted region of a sealed image
(R94, R404). -/
def image (h : Head) (s : State) : Nat → Byte :=
  let f := rawImage h.page s
  if !h.isSealed then f
  else
    let lo := 64 + 64 * h.nmembers
    let hi := h.imageBytes - 64
    let iv := imgBytes f hi 12
    fun o => if lo ≤ o ∧ o < hi then Config.gcmPlainByte (keySlot h.slot s).key iv (o - lo) (f o) else f o

/-! ### Granules and units (R88) -/

/-- Vectors in a granule of a mode. -/
def granule (m : Nat) : Nat := match m with | 0 => 64 | 1 => 128 | _ => 256

/-- Vectors in a unit of a mode. -/
def unitVecs (m : Nat) : Nat := if m = 2 then 8 else 1

/-- Bytes of a code field. -/
def codeBytes (m : Nat) : Nat := match m with | 0 => 8 | 1 => 4 | _ => 16

/-- Width of a TS index in bits. -/
def tsBits (m : Nat) : Nat := match m with | 0 => 6 | 1 => 4 | _ => 2

/-- Bytes of a dictionary entry (R92). -/
def dictBytes (m : Nat) : Nat := if m = 2 then 32 else 16

/-- Granules of a segment (R93). -/
def granulesOf (m vlen : Nat) : Nat := ceilDiv vlen (granule m)

/-- Units in granule n of a segment (R91). -/
def unitsIn (m vlen n : Nat) : Nat := ceilDiv (min (granule m) (vlen - n * granule m)) (unitVecs m)

/-- Whether a Distance code field holds a reserved pin code (R86). -/
def reservedCode (m code : Nat) : Bool :=
  m = 0 && (List.range 16).any (fun k => 13 ≤ (code >>> (4 * k)) % 16)

/-! ### The header stage (R96) -/

/-- A failure of a check: code, member, offset. -/
abbrev Failure := Nat × Nat × Nat

/-- Order of report: lowest code, then member, then offset (R96). -/
def Failure.before (a b : Failure) : Bool :=
  a.1 < b.1 || (a.1 = b.1 && (a.2.1 < b.2.1 || (a.2.1 = b.2.1 && a.2.2 ≤ b.2.2)))

/-- The failure reported among several. -/
def firstFailure : List Failure → Option Failure
  | [] => none
  | a :: t => match firstFailure t with
    | none => some a
    | some b => some (if Failure.before a b then a else b)

/-- A failure where a condition holds. -/
def failIf (c : Bool) (code member off : Nat) : List Failure := if c then [(code, member, off)] else []

/-- The regions of an image after the header: start, bytes, member, offset of the field that places it
(R84, R85). A dictionary of no entries is no region. -/
def regions (h : Head) : List (Nat × Nat × Nat × Nat) :=
  (h.instrOff, 8 * h.instrCount, 0, 24) ::
  h.members.zipIdx.flatMap (fun x =>
    let m := x.1
    let o := 64 + 64 * x.2
    (if h.dictSize = 0 then [] else [(m.dictOff, h.dictSize * dictBytes h.mode, x.2, o + 8)]) ++
    [(m.gtabOff, 8 * h.gcount, x.2, o + 16), (m.vbOff, m.vbBytes, x.2, o + 24)])

/-- Failures of code 7 among regions: misaligned, outside the image, or overlapping an earlier one. Of two regions that
overlap the later in this order is reported (DESIGN CHOICE, log 58). -/
def regionFails (h : Head) : List (Nat × Nat × Nat × Nat) → List (Nat × Nat) → List Failure
  | [], _ => []
  | r :: t, seen =>
    failIf (r.1 % 64 != 0 || h.imageBytes < r.1 + r.2.1 ||
      seen.any (fun x => x.1 < r.1 + r.2.1 && r.1 < x.1 + x.2)) 7 r.2.2.1 r.2.2.2 ++
    regionFails h t (seen ++ [(r.1, r.2.1)])

/-- Failures that the header and member table show (R83, R84, R93, R95). `g` is the leader. An IMAGE_BYTES that is no
multiple of 64 and a VB_BYTES that is no multiple of 4 count as misaligned, code 7 (DESIGN CHOICE, log 58). -/
def headFails (g : Nat) (h : Head) (s : State) : List Failure :=
  let f := rawImage h.page s
  let gang := (members g s).length
  failIf (imgVal f 0 4 != 0x4B545347) 1 0 0 ++ failIf (imgVal f 4 1 != 1) 1 0 4 ++
  failIf (crc32c (imgBytes f 0 60 ++ imgBytes f 64 (64 * h.nmembers)) != imgVal f 60 4) 2 0 60 ++
  failIf (h.mode != mode g s) 3 0 5 ++
  failIf (h.vlen = 0 || 2 ^ 32 < h.vlen) 4 0 8 ++
  failIf (h.gcount != granulesOf h.mode h.vlen) 4 0 16 ++
  failIf (rd (K.cgService g) s = 0 && (h.vlen % granule h.mode != 0 || h.vlen < 16 * granule h.mode)) 5 0 8 ++
  failIf (h.nmembers != gang) 6 0 22 ++
  regionFails h (regions h) [(0, 64 + 64 * h.nmembers)] ++
  failIf (h.imageBytes % 64 != 0 || mappedBytes s < 4096 * h.page + h.imageBytes) 7 0 48 ++
  h.members.zipIdx.flatMap (fun x => failIf (x.1.vbBytes % 4 != 0) 7 x.2 (64 + 64 * x.2 + 32)) ++
  failIf (h.flags / 8 != 0) 8 0 6 ++ failIf (imgVal f 23 1 != 0) 8 0 23 ++ failIf (imgVal f 56 4 != 0) 8 0 56 ++
  failIf (if h.isSealed then h.sealParam / 64 % 4 != 0 || h.sealParam / 2 ^ 40 != 0 else h.sealParam != 0) 8 0 40 ++
  h.members.zipIdx.flatMap (fun x =>
    failIf (imgVal f (64 + 64 * x.2 + 2) 6 != 0) 8 x.2 (64 + 64 * x.2 + 2) ++
    failIf (imgVal f (64 + 64 * x.2 + 40) 24 != 0) 8 x.2 (64 + 64 * x.2 + 40) ++
    failIf ((h.mode = 0 && x.1.laneType != 0) || (h.mode = 2 && (x.1.laneType &&& 0xAAAA) != 0)) 12 x.2 (64 + 64 * x.2)) ++
  failIf (h.instrCount = 0 || 65536 < h.instrCount) 9 0 32 ++
  failIf (256 < h.dictSize) 10 0 20

/-- The unit of a dictionary entry at an offset (R92). -/
def dictUnit (m : Nat) (f : Nat → Byte) (o : Nat) : Unit :=
  { code := imgVal f o (codeBytes m), ts := imgVal f (o + codeBytes m) 1 % 2 ^ tsBits m }

/-- Failures of one dictionary entry (R92). -/
def dictEntryFails (m mem : Nat) (f : Nat → Byte) (o : Nat) : List Failure :=
  let c := codeBytes m
  failIf (2 ^ tsBits m ≤ imgVal f (o + c) 1) 8 mem (o + c) ++
  failIf (imgVal f (o + c + 1) (dictBytes m - c - 1) != 0) 8 mem (o + c + 1) ++
  failIf (reservedCode m (imgVal f o c)) 12 mem o

/-- A member's dictionary, as the decoder loads it whole (R92). -/
def loadDict (h : Head) (f : Nat → Byte) (x : Member) : List Unit :=
  (List.range h.dictSize).map (fun i => dictUnit h.mode f (x.dictOff + dictBytes h.mode * i))

/-- A head whose check has passed, with its instruction words and its dictionaries (R92, R98). -/
def loadHead (h : Head) (f : Nat → Byte) : Head :=
  { h with
    code := (List.range h.instrCount).map (fun i => imgVal f (h.instrOff + 8 * i) 8)
    dicts := h.members.map (loadDict h f) }

/-- Failures that the instruction stream and the dictionaries show, in plaintext (R85, R92). -/
def streamFails (h : Head) (f : Nat → Byte) : List Failure :=
  failIf (crc32c (imgBytes f h.instrOff (8 * h.instrCount)) != imgVal f 36 4) 9 0 36 ++
  h.members.zipIdx.flatMap (fun x => (List.range h.dictSize).flatMap (fun i =>
    dictEntryFails h.mode x.2 f (x.1.dictOff + dictBytes h.mode * i)))

/-- The cause of a sealed failure in the order of R405; 0 none. -/
def sealCause (h : Head) (s : State) : Nat :=
  let f := rawImage h.page s
  let k := keySlot h.slot s
  let t := h.imageBytes - 64
  if (rd K.mcodeVersion s).testBit 0 = false ∨ rd K.secState s ≠ 1 then 1
  else if !k.loaded then 2
  else if k.keyId ≠ h.keyId then 3
  else if 1048576 < h.imageBytes ∨ (regions h).any (fun r => t < r.1 + r.2.1) then 4
  else
    let lo := 64 + 64 * h.nmembers
    if Config.gcmTagOk k.key (imgBytes f t 12) (imgBytes f 0 lo) (imgBytes f lo (t - lo)) (imgBytes f (t + 16) 16)
    then 0 else 5

/-- Failures of the rsv bytes of a seal trailer (R404, R5). They are judged with what is encrypted, once the tag has been
verified (DEDUCED, log 58). -/
def trailerFails (h : Head) (f : Nat → Byte) : List Failure :=
  let t := h.imageBytes - 64
  failIf (h.isSealed && imgVal f (t + 12) 4 != 0) 8 0 (t + 12) ++
  failIf (h.isSealed && imgVal f (t + 32) 32 != 0) 8 0 (t + 32)

/-- Whether the regions that a header and its member table name are read (R96, R404): no failure among theirs is of a code
below 8, and a sealed image's SEAL_PARAM is sound, which is judged before anything of the seal. -/
def regionsRead (h : Head) (hf : List Failure) : Bool :=
  hf.all (fun e => 8 ≤ e.1) && !(h.isSealed && hf.contains (8, 0, 40))

/-- The seal failure of an image, code 13, with its member and offset: that of IMAGE_BYTES or of the field that places a
region for cause 4, of the TAG for cause 5, and of SEAL_PARAM for the others. R99 does not say which offset that is for
causes 1, 2, 3 and 5 (DESIGN CHOICE, log 58). -/
def sealFailure (h : Head) (cause : Nat) : List Failure :=
  match cause with
  | 0 => []
  | 4 => if 1048576 < h.imageBytes then [(13, 0, 48)]
      else (regions h).flatMap (fun r => failIf (h.imageBytes - 64 < r.1 + r.2.1) 13 r.2.2.1 r.2.2.2)
  | 5 => [(13, 0, h.imageBytes - 48)]
  | _ => [(13, 0, 40)]

/-- The failure that the header stage of a segment reports, if any (R96, R405). Where the regions that the header and the
member table name are read, what those show joins in the choice; those of a sealed image are decrypted only where its
seal holds. -/
def headStage (g : Nat) (h : Head) (s : State) : Option Failure :=
  let hf := headFails g h s
  if !regionsRead h hf then firstFailure hf
  else if h.isSealed ∧ sealCause h s ≠ 0 then firstFailure (hf ++ sealFailure h (sealCause h s))
  else firstFailure (hf ++ trailerFails h (rawImage h.page s) ++ streamFails h (image h s))

/-! ### Vector blocks (R89–R91) -/

/-- The channels that a delta mask selects and the width of their codes (R90). -/
def deltaChans (m mask : Nat) : List Nat := bitsOf mask (if m = 2 then 8 else 16)

/-- Bits per channel or lane of a delta code (R90). -/
def deltaWidth (m : Nat) : Nat := match m with | 0 => 4 | 1 => 2 | _ => 16

/-- The previous code field with the masked channels replaced in order by packed codes (R90). -/
def applyDelta (m : Nat) : List Nat → Nat → Nat → Nat
  | [], _, code => code
  | k :: t, packed, code =>
    let w := deltaWidth m
    let old := (code >>> (w * k)) % 2 ^ w
    applyDelta m t (packed / 2 ^ w) (code - old * 2 ^ (w * k) + packed % 2 ^ w * 2 ^ (w * k))

/-- What a block, or a part of it, decodes to: its units, its failures and its end. -/
structure Decoded where
  units : List Unit
  fails : List (Nat × Nat)
  stop  : Nat
  deriving DecidableEq, Repr

/-- The delta units of a block (R90). -/
def decodeDeltas (m : Nat) (f : Nat → Byte) : Nat → Unit → Nat → Decoded
  | 0, _, o => { units := [], fails := [], stop := o }
  | n + 1, prev, o =>
    let hd := imgVal f o 4
    let chans := deltaChans m (hd / 2 ^ 16 % 2 ^ (if m = 2 then 8 else 16))
    let bits := deltaWidth m * chans.length
    let words := ceilDiv bits 32
    let packed := imgVal f (o + 4) (4 * words)
    let code := applyDelta m chans packed prev.code
    let u : Unit := { code, ts := hd % 2 ^ tsBits m }
    let bad8 := hd / 256 % 256 != 0 || 2 ^ tsBits m ≤ hd % 256 || (m = 2 && 2 ^ 24 ≤ hd)
    let fails := (if bad8 then [(8, o)] else []) ++ (if packed / 2 ^ bits != 0 then [(8, o + 4)] else []) ++
      (if reservedCode m code then [(12, o + 4)] else [])
    let r := decodeDeltas m f n u (o + 4 + 4 * words)
    { units := u :: r.units, fails := fails ++ r.fails, stop := r.stop }

/-- The block at an offset, with n units still to come in its granule and the block stream ending at
`lim` (R89–R91). A block that spans the granule, or that begins one and may not, is judged in its fields all the same, up
to the end of the stream, since the lowest code is reported (R96). Padding that is not zero fails at the first byte of the field that holds it: the TS plane of a RAW
block, the pad bytes of a DICT block, the code words of a delta unit (DESIGN CHOICE, log 58). -/
def decodeBlock (m : Nat) (f : Nat → Byte) (dict : List Unit) (lim : Nat) (prev : Option Unit) (left o : Nat) : Decoded :=
  let hd := imgVal f o 4
  let enc := hd / 2 ^ 30
  let n := hd % 256 + 1
  let rsv := if hd / 256 % 2 ^ 22 != 0 then [(8, o)] else []
  if lim < o + 4 then { units := [], fails := [(11, o)], stop := o }
  else
    let d : Decoded :=
      match enc, prev with
      | 0, _ =>
        let c := codeBytes m
        let plane := ceilDiv (n * tsBits m) 8
        let stop := o + 4 + ceilDiv (n * c + plane) 4 * 4
        let ts := imgVal f (o + 4 + n * c) (stop - (o + 4 + n * c))
        let us := (List.range n).map (fun i =>
          ({ code := imgVal f (o + 4 + i * c) c, ts := ts / 2 ^ (i * tsBits m) % 2 ^ tsBits m } : Unit))
        { units := us
          fails := (us.zipIdx.flatMap (fun x => if reservedCode m x.1.code then [(12, o + 4 + x.2 * c)] else [])) ++
            (if ts / 2 ^ (n * tsBits m) != 0 then [(8, o + 4 + n * c)] else [])
          stop }
      | 1, some u => { units := List.replicate n u, fails := [], stop := o + 4 }
      | 1, none => { units := [], fails := [(11, o)], stop := o + 4 }
      | 2, _ =>
        let stop := o + 4 + ceilDiv n 4 * 4
        let ix := (List.range n).map (fun i => imgVal f (o + 4 + i) 1)
        { units := ix.map (fun i => dict.getD i ⟨0, 0⟩)
          fails := (ix.zipIdx.flatMap (fun x => if dict.length ≤ x.1 then [(10, o + 4 + x.2)] else [])) ++
            (if imgVal f (o + 4 + n) (stop - (o + 4 + n)) != 0 then [(8, o + 4 + n)] else [])
          stop }
      | 3, some u => decodeDeltas m f n u (o + 4)
      | _, _ =>
        let d := decodeDeltas m f n ⟨0, 0⟩ (o + 4)
        { d with fails := d.fails ++ [(11, o)] }
    { d with fails := rsv ++ d.fails.filter (fun e => e.2 < lim) ++ if lim < d.stop ∨ left < n then [(11, o)] else [] }

/-- The lowest code and then the lowest offset among the failures of one block (R96). -/
def firstBlockFail (l : List (Nat × Nat)) : Option (Nat × Nat) :=
  (firstFailure (l.map (fun x => (x.1, 0, x.2)))).map (fun x => (x.1, x.2.2))

/-- The blocks of a granule from an offset, until its units are complete: the units and the end, or the
failure of the first block that fails. -/
def decodeBlocks (m : Nat) (f : Nat → Byte) (dict : List Unit) (lim : Nat) :
    Nat → Option Unit → Nat → Nat → Except (Nat × Nat) (List Unit × Nat)
  | 0, _, left, o => if left = 0 then .ok ([], o) else .error (11, o)
  | fuel + 1, prev, left, o =>
    if left = 0 then .ok ([], o)
    else
      let d := decodeBlock m f dict lim prev left o
      match firstBlockFail d.fails with
      | some e => .error e
      | none =>
        match decodeBlocks m f dict lim fuel d.units.getLast? (left - d.units.length) d.stop with
        | .error e => .error e
        | .ok r => .ok (d.units ++ r.1, r.2)

/-- What a granule decodes to: its units, its bytes, and the error of the granule that follows it, whose table entry does
not stand where this one ends (R91, R96). -/
structure GranOut where
  units : List Unit
  bytes : Nat
  after : Option FmtErr
  deriving DecidableEq, Repr

/-- A granule of a member, or its format error (R91, R96). A wrong table entry n + 1 is an error of granule n + 1, so that
granule n plays (R97); a stream that does not end at VB_BYTES is one of its last granule. -/
def decodeGranule (h : Head) (mem n : Nat) (s : State) : Except FmtErr GranOut :=
  match h.members[mem]? with
  | none => .error { code := 6, member := mem, off := 22, gran := n, page := h.key }
  | some x =>
    let f := image h s
    let start := imgVal f (x.gtabOff + 8 * n) 8
    let last := n + 1 = h.gcount
    let err := fun (c o g : Nat) => FmtErr.mk c mem o g h.key
    if n = 0 ∧ start ≠ 0 then .error (err 11 x.gtabOff 0)
    else if x.vbBytes < start then .error (err 11 (x.gtabOff + 8 * n) n)
    else
      match decodeBlocks h.mode f (h.dicts.getD mem []) (x.vbOff + x.vbBytes) 256 none
          (unitsIn h.mode h.vlen n) (x.vbOff + start) with
      | .error e => .error (err e.1 e.2 n)
      | .ok r =>
        let next := if last then x.vbBytes else imgVal f (x.gtabOff + 8 * (n + 1)) 8
        let good : GranOut := { units := r.1, bytes := r.2 - (x.vbOff + start), after := none }
        if x.vbOff + next = r.2 then .ok good
        else if last then .error (err 11 r.2 n)
        else .ok { good with after := some (err 11 (x.gtabOff + 8 * (n + 1)) (n + 1)) }

/-! ### Reporting (R99) -/

/-- The segment-error objects record a format error (R99); `run` where the group runs. The device keeps
the first since arming. -/
def recordFmt (g : Nat) (run : Bool) (e : FmtErr) (s : State) : State :=
  if (rd (K.segErr g) s).testBit 31 then s
  else wrs [(K.segErr g, 2 ^ 31 + (if run then 2 ^ 28 else 0) + e.member * 2 ^ 24 + e.code),
    (K.segErrAddr g, 4096 * rawPage e.page), (K.segErrGran g, e.gran), (K.segErrOff g, e.off)] s

/-- A failed header stage as a format error. -/
def fmtOfFailure (page : Nat) (e : Failure) : FmtErr := ⟨e.1, e.2.1, e.2.2, 0xFFFFFFFF, page⟩

end Sys2Proof.Machine
end

