-- ==== Sys2Proof/Machine/Dram.lean ====
section
/-! DEFINITION. The DDR5 controller: address maps, requests and ECC, and the refill engines' planning of
fetches, lead and cache (08_dram_and_streaming.md). -/
namespace Sys2Proof.Machine

/-! ### Address maps (R188, R189) -/

/-- The subchannels in service in map 1, in order of channel and then A before B (R189). -/
def surviving (s : State) : List Nat := (List.range 8).filter (fun u => !fenced (0x20 + u / 2) s)

/-- The place of a byte address: the subchannel (2 × channel, + 1 for B), bank group, bank, column burst and row. -/
structure DramPlace where
  sub  : Nat
  grp  : Nat
  bank : Nat
  col  : Nat
  row  : Nat
  deriving DecidableEq, Repr

/-- The place of a byte address in the map in force (R188, R189). -/
def placeOf (a : Nat) (s : State) : DramPlace :=
  if rd K.dramMap s = 0 then
    { sub := a / 2 ^ 6 % 8, grp := a / 2 ^ 9 % 8, bank := a / 2 ^ 12 % 4, col := a / 2 ^ 14 % 64, row := a / 2 ^ 20 % 2 ^ 17 }
  else
    let r := a / 64 / 6
    { sub := (surviving s).getD (a / 64 % 6) 0, grp := r % 8, bank := r / 8 % 4, col := r / 32 % 64, row := r / 2048 }

/-- The subchannel (2 × channel, + 1 for B) of a byte address (R188, R189). -/
def subchannelOf (a : Nat) (s : State) : Nat := (placeOf a s).sub

/-- The bank index of a byte address (R188, R189). -/
def bankOf (a : Nat) (s : State) : Nat := (placeOf a s).bank

/-- Whether n bytes from an address lie wholly in mapped DRAM (R188, R189). -/
def mapped (a n : Nat) (s : State) : Bool := a + n ≤ mappedBytes s

/-- Whether a segment page names mapped DRAM (R106, R132). -/
def pageMapped (page : Nat) (s : State) : Bool := mapped (4096 * page) 1 s

/-- Whether a spill region lies in mapped DRAM with base and size multiples of 64 KiB (R70, R275). -/
def regionOk (base size : Nat) (s : State) : Bool :=
  base % 65536 = 0 && size % 65536 = 0 && (size == 0 || mapped base size s)

/-- The mapped capacity of a map and density: 128 or 64 GB in map 0, half in map 1 (R185, R189). -/
def capacityOf (map density : Nat) : Nat := (if density = 32 then 2 ^ 37 else 2 ^ 36) / (map + 1)

/-! ### Requests (R191, R202) -/

/-- The bursts that hold n bytes from an address. -/
def burstsOf (a n : Nat) : List Nat :=
  if n = 0 then [] else (List.range ((a + n - 1) / 64 - a / 64 + 1)).map (fun i => 64 * (a / 64 + i))

/-- Requests queued at the controller. -/
def queueReqs (l : List DReq) (s : State) : State := modDram (fun d => { d with reqs := d.reqs ++ l }) s

/-- A request of one burst. -/
def mkReq (port addr : Nat) (write : Bool) (o : Owner) (s : State) : DReq :=
  { port, addr := addr / 64 * 64, write, owner := o, at0 := s.now }

/-- Bursts that a group has in flight on DP0 (R202). -/
def inFlight (g : Nat) (s : State) : Nat := ((grp g s).fetches.map (·.out)).foldl (· + ·) 0

/-- Whether a request serves a fetch of a group. -/
def Owner.ofGroup (g : Nat) : Owner → Bool
  | .fetch g' _ => g' == g
  | _ => false

/-- Whether a request serves a fetch of a group or did until it was dropped. -/
def Owner.fromGroup (g : Nat) : Owner → Bool
  | .dropped o => o.fromGroup g
  | o => o.ofGroup g

/-- The bursts of a group that complete at the controller with their data discarded (R347, R162). -/
def dropGroupReqs (g : Nat) (s : State) : State :=
  modDram (fun d => { d with reqs := (d.reqs.filter (fun r => r.issued || !r.owner.ofGroup g)).map (fun r =>
    if r.owner.ofGroup g then { r with owner := .dropped r.owner } else r) }) s

/-! ### Reading ahead: the granules that play needs (R157, R201) -/

/-- The granule of a vector of a segment. -/
def granOf (m vec : Nat) : Nat := vec / granule m

/-- The known head of a load of a page. -/
def headOf (l key : Nat) (s : State) : Option Head := (seq l s).heads.find? (fun h => h.key == key)

/-- The latest load of a page (R98). -/
def keyOf (l page : Nat) (s : State) : Nat := (((seq l s).heads.find? (fun h => h.page == page)).map (·.key)).getD page

/-- Granules first to last of a page, as a list. -/
def granSpan (m page first count : Nat) : List (Nat × Nat) :=
  if count = 0 then []
  else (List.range (granOf m (first + count - 1) - granOf m first + 1)).map (fun i => (page, granOf m first + i))

/-- Whether a granule holds one of `count` vectors of a page from `first` on. -/
def spanHas (m page first count : Nat) (p : Nat × Nat) : Bool :=
  count != 0 && page == p.1 && granOf m first ≤ p.2 && p.2 ≤ granOf m (first + count - 1)

/-- The unit that a member plays for a vector of a segment, from its cache (R88). -/
def unitAt (g page vec : Nat) (s : State) : Unit :=
  let m := mode g s
  match (grp g s).grans.find? (fun x => x.page == page && x.n == granOf m vec) with
  | some x => x.units.getD (vec % granule m / unitVecs m) ⟨0, 0⟩
  | none => ⟨0, 0⟩

/-- The time that n vectors of a segment take from a position on. -/
def playTime (k page first n : Nat) (s : State) : Nat :=
  (List.range n).foldl (fun a i => a + cycleLen k (unitAt k page (first + i) s).ts s) 0

/-- Repetitions that follow the one in play of a block whose exit is decided (R118, R122): one where this one ends
too early for the decision, since a repetition lasts more than 16 SEQCLK cycles. The end is reckoned over 512 vectors
at most, which last 64 SEQCLK cycles or more. -/
def moreReps (k : Nat) (r : Range) (b : Block) (s : State) : Nat :=
  let q := seq k s
  match b.exitAt with
  | none => 0
  | some e =>
    if q.nextAt + playTime k r.page (r.first + q.off) (min 512 (r.count - q.off)) s < e + 16 * seqclk ∧
      (b.limit = 0 ∨ q.rep + 1 < b.limit) then 1 else 0

/-- The block of a range. -/
def blockOf (q : Seq) (r : Range) : Option Block := q.blks.find? (fun b => b.id == r.blk)

/-- Repetitions of the range in play after the one in play: of a block whose exit is decided on its condition or event,
those that still play (R118, R122), otherwise all that may. -/
def laterReps (l : Nat) (r : Range) (s : State) : Nat :=
  let q := seq l s
  match blockOf q r with
  | some b => if b.exitAt.isSome then moreReps l r b s else r.reps - q.rep - 1
  | none => r.reps - q.rep - 1

/-- Repetitions of a range in the queue after its first. -/
def queuedReps (q : Seq) (r : Range) : Nat :=
  match blockOf q r with
  | some b => if b.exitAt.isSome then 0 else r.reps - 1
  | none => r.reps - 1

/-- Granules and how often they are played one after the other. -/
abbrev GranRun := List (Nat × Nat) × Nat

/-- The granules of further repetitions of a range. Repetitions within one granule count as the whole granules that
their vectors make up, so that a lead never overstates the time available (R201). -/
def repRun (m page first count reps : Nat) : GranRun :=
  match granSpan m page first count with
  | [p] => ([p], reps * count / granule m)
  | one => (one, reps)

/-- The granules of queued ranges in play order. A repeating block with an exit not yet decided is reckoned along its
repetitions (R205), and a range that goes on inside a granule takes that granule with the range before it: `prev` is
the page and the vector at which that one ends. -/
def queueRuns (q : Seq) (m : Nat) : Option (Nat × Nat) → List Range → List GranRun
  | _, [] => []
  | prev, r :: t =>
    if r.count = 0 then queueRuns q m prev t
    else
      let one := granSpan m r.page r.first r.count
      (if prev = some (r.page, r.first) ∧ r.first % granule m ≠ 0 then one.tail else one, 1) ::
        repRun m r.page r.first r.count (queuedReps q r) :: queueRuns q m (some (r.page, r.first + r.count)) t

/-- The position of the vector in play within a range: the one that the latest cycle start began. -/
def readPos (q : Seq) (r : Range) : Nat := r.first + (q.off - 1)

/-- The granules that a group's play needs from its read point on, that of the vector in play (R201). Where no vector is
in play the first granule to play is the read point. -/
def playRuns (l : Nat) (s : State) : List GranRun :=
  let q := seq l s
  let m := mode l s
  let here := match q.cur with
    | some r => [(granSpan m r.page (readPos q r) (r.first + r.count - readPos q r), 1),
        repRun m r.page r.first r.count (laterReps l r s)]
    | none => []
  here ++ queueRuns q m (q.cur.map (fun r => (r.page, r.first + r.count))) q.queue

/-- Runs of granules without the first granule. -/
def tailRuns : List GranRun → List GranRun
  | [] => []
  | ([], _) :: t => tailRuns t
  | (_, 0) :: t => tailRuns t
  | (a :: one, k + 1) :: t => (one, 1) :: (a :: one, k) :: t

/-- The granules of runs in play order, at most `cap` of them. -/
def flatRuns (cap : Nat) (l : List GranRun) : List (Nat × Nat) :=
  (l.flatMap (fun x => (List.replicate (min x.2 (ceilDiv cap x.1.length)) x.1).flatten)).take cap

/-- The granules that a group's play needs from its read point on, at most `cap` (R201, R202). -/
def upcoming (l cap : Nat) (s : State) : List (Nat × Nat) := flatRuns cap (playRuns l s)

/-- Whether the exit of a range's block is not yet decided (R205). -/
def undecided (q : Seq) (r : Range) : Bool := q.blks.any (fun b => b.id == r.blk && !b.decided)

/-- The vectors that follow the block of a range in its segment, up to RF_URGENT_NS of play: first and count (R205). -/
def afterBlock (l : Nat) (r : Range) (s : State) : Nat × Nat :=
  let vlen := ((headOf l r.page s).map (·.vlen)).getD 0
  (r.first + r.count, min (vlen - (r.first + r.count)) (ceilDiv (rd (K.rfUrgentNs l) s) 40 * granule (mode l s)))

/-- The granules that follow the blocks whose exits are undecided, which are fetched so that an exit joins with no gap
(R205). -/
def followGrans (l : Nat) (s : State) : List (Nat × Nat) :=
  let q := seq l s
  ((q.cur.toList ++ q.queue).filter (undecided q)).flatMap (fun r =>
    granSpan (mode l s) r.page (afterBlock l r s).1 (afterBlock l r s).2)

/-- Whether a granule holds content at or beyond the read point in the issued ranges, or follows an undecided block
(R204, R205). -/
def isAhead (l : Nat) (s : State) (p : Nat × Nat) : Bool :=
  let q := seq l s
  let m := mode l s
  (match q.cur with
    | some r => if r.reps ≤ q.rep + 1 then spanHas m r.page (readPos q r) (r.first + r.count - readPos q r) p
        else spanHas m r.page r.first r.count p
    | none => false) ||
  q.queue.any (fun r => spanHas m r.page r.first r.count p) ||
  ((q.cur.toList ++ q.queue).filter (undecided q)).any (fun r =>
    spanHas m r.page (afterBlock l r s).1 (afterBlock l r s).2 p)

/-- Whether a granule is present in a member's cache (R202). -/
def hasGran (g : Nat) (p : Nat × Nat) (s : State) : Bool :=
  (grp g s).grans.any (fun x => x.page == p.1 && x.n == p.2)

/-- The longest prefix whose elements satisfy a condition, counted. -/
def prefixLen {α : Type} (p : α → Bool) : List α → Nat
  | [] => 0
  | a :: t => if p a then prefixLen p t + 1 else 0

/-- The block error of a member in a segment. -/
def blockErrOf (g page : Nat) (s : State) : Option FmtErr := (grp g s).blockErrs.find? (fun e => e.page == page)

/-- Whether a member's granule lies at or behind a format error of its segment, so that it does not play (R97). -/
def granBad (g : Nat) (p : Nat × Nat) (s : State) : Bool := (blockErrOf g p.1 s).any (fun e => e.gran ≤ p.2)

/-- Elements of runs from the first on that satisfy a condition, counted. -/
def goodRuns (p : Nat × Nat → Bool) : List GranRun → Nat
  | [] => 0
  | x :: t =>
    if x.2 = 0 then goodRuns p t
    else if x.1.all p then x.2 * x.1.length + goodRuns p t else prefixLen p x.1

/-- The lead of a member in ns: whole granules present beyond the read point × 40 (R201). -/
def leadNs (g : Nat) (s : State) : Nat := 40 * goodRuns (fun p => hasGran g p s) (tailRuns (playRuns (leader g s) s))

/-- Whether all remaining granules of the issued ranges are present for a member (R197, R206); those at or behind a format
error of it never play (R97). -/
def allPresent (g : Nat) (s : State) : Bool :=
  (playRuns (leader g s) s).all (fun x => x.2 = 0 || x.1.all (fun p => hasGran g p s || granBad g p s))

/-- The smallest lead among the members of a gang (RF_LEAD_NS, R201). -/
def gangLead (l : Nat) (s : State) : Nat :=
  ((members l s).map (fun g => leadNs g s)).foldl min 0xFFFFFFFF

/-- Whether every member has a lead or all its remaining granules (R197, R206). -/
def leadReached (l ns : Nat) (s : State) : Bool :=
  (members l s).all (fun g => ns ≤ leadNs g s || allPresent g s)

/-! ### The bytes of a granule (R91, R205) -/

/-- The bytes of a granule in an image by its granule table: offset and length (R91). -/
def granBytes (h : Head) (mem n : Nat) (s : State) : Nat × Nat :=
  match h.members[mem]? with
  | none => (0, 0)
  | some x =>
    let f := image h s
    let a := imgVal f (x.gtabOff + 8 * n) 8
    let b := if n + 1 < h.gcount then imgVal f (x.gtabOff + 8 * (n + 1)) 8 else x.vbBytes
    (x.vbOff + a, b - a)

/-- What a fetch of a granule reads: the bytes of its blocks, up to the one that fails a check, within the image. -/
def granFetch (h : Head) (mem n : Nat) (s : State) : Nat × Nat :=
  let a := min (granBytes h mem n s).1 (h.imageBytes - 4)
  match decodeGranule h mem n s with
  | .ok r => (a, r.bytes)
  | .error e => (a, if a ≤ e.off ∧ e.off < h.imageBytes then min (e.off + 4) h.imageBytes - a else 4)

/-- The bursts of a granule, all within mapped DRAM (R96). -/
def granBursts (h : Head) (mem n : Nat) (s : State) : List Nat :=
  let r := granFetch h mem n s
  (burstsOf (4096 * h.page + r.1) r.2).filter (fun a => mapped a 64 s)

/-- Bytes that granules of a member span, from the first to the end of the last (R205). -/
def spanBytes (k mem page first count : Nat) (s : State) : Nat :=
  match headOf k page s with
  | none => 0
  | some h =>
    let a := granBytes h mem (granOf h.mode first) s
    let b := granBytes h mem (granOf h.mode (first + count - 1)) s
    b.1 + b.2 - a.1

/-! ### The cache (R202, R204, R205) -/

/-- Distinct pinned pages of a jump table (R151). -/
def pinnedPages (l : Nat) (s : State) : List Nat :=
  ((List.range 16).map (fun i => rd (K.jtEntry l i) s)).eraseDups.filter (· != 0xFFFFFFFF)

/-- The blocks of a cache, those of the pinned segments apart (R151). -/
def streamBlocks (l : Nat) (s : State) : Nat := 48 - (pinnedPages l s).length

/-- Whether a loop body fits the cache of every member, so that its blocks are locked (R205). -/
def fitsLock (k page first count extra : Nat) (s : State) : Bool :=
  (members k s).all (fun g =>
    spanBytes k (g - k) page first count s + extra ≤ (45 - (pinnedPages k s).length) * 65536)

/-- How far the body of an open loop level has been issued: the segment that opened it, and its play pointer, which is that
of the outermost call made within the level. -/
def bodyEnd (q : Seq) (depth : Nat) : Nat × Nat :=
  match (q.calls.filter (fun c => depth < c.loops)).getLast? with
  | some c => (c.page, c.ptr)
  | none => (q.page, q.ptr)

/-- Whether ranges and loops hold a granule locked (R205). The first pass of a body that the IU may execute again holds
what it has issued so far, as long as that fits. -/
def isLocked (l : Nat) (s : State) (p : Nat × Nat) : Bool :=
  let q := seq l s
  let m := mode l s
  (q.cur.toList ++ q.queue).any (fun r => r.locks && spanHas m r.page r.first r.count p) ||
  q.loops.zipIdx.any (fun x => match x.1.locked with
    | some (page, f, c) => spanHas m page f c p
    | none =>
      let here := bodyEnd q (q.loops.length - 1 - x.2)
      x.1.pass = 1 && 1 < x.1.left && spanHas m here.1 x.1.ptr (here.2 - x.1.ptr) p &&
        fitsLock l here.1 x.1.ptr (here.2 - x.1.ptr) 0 s)

/-- Whether a granule of a cache is never reclaimed (R204). -/
def keeps (l : Nat) (s : State) (x : Gran) : Bool :=
  x.pinned || x.locked || isAhead l s (x.page, x.n) || isLocked l s (x.page, x.n)

/-- Bytes that a block of a cache holds, or will hold for fetches in progress. -/
def Grp.blkUse (x : Grp) (b : Nat) : Nat :=
  (((x.grans.filter (fun y => !y.pinned && y.blk == b)).map (·.bytes)) ++
    ((x.fetches.filter (fun y => y.blk == b)).map (·.bytes))).foldl (· + ·) 0

/-- Whether a block of a cache may be reclaimed (R204): nothing in it is kept or being fetched. -/
def Grp.blkIdle (x : Grp) (keep : Gran → Bool) (b : Nat) : Bool :=
  x.grans.all (fun y => y.pinned || y.blk != b || !keep y) && x.fetches.all (fun y => y.bytes == 0 || y.blk != b)

/-- The instant at which content of a block was last played. -/
def Grp.blkPlayed (x : Grp) (b : Nat) : Nat :=
  ((x.grans.filter (fun y => !y.pinned && y.blk == b)).map (·.played)).foldl max 0

/-- The block of a list played least recently. -/
def leastPlayed (x : Grp) : List Nat → Option Nat
  | [] => none
  | b :: t => match leastPlayed x t with
    | none => some b
    | some c => some (if x.blkPlayed b ≤ x.blkPlayed c then b else c)

/-- Room for n bytes in a cache of `limit` blocks: the block that is being filled, otherwise the lowest empty one,
otherwise the one that is reclaimed, with what it held dropped (R204). Granules stand whole in one block each
(DESIGN CHOICE, log 59). -/
def Grp.room (x : Grp) (limit n : Nat) (keep : Gran → Bool) : Option (Nat × Grp) :=
  if x.fillBlk < limit ∧ x.blkUse x.fillBlk + n ≤ 65536 then some (x.fillBlk, x)
  else
    let all := List.range limit
    match all.find? (fun b => x.blkUse b == 0 && x.blkIdle keep b) with
    | some b => some (b, { x with fillBlk := b })
    | none => (leastPlayed x (all.filter (x.blkIdle keep))).map (fun b =>
        (b, { x with fillBlk := b, grans := x.grans.filter (fun y => y.pinned || y.blk != b) }))

/-- RF_BLOCKS_FREE: blocks that hold no pinned, no locked content and none ahead of the read point (R207). -/
def blocksFree (g : Nat) (s : State) : Nat :=
  let l := leader g s
  let x := grp g s
  let pins := ((x.grans.filter (·.pinned)).map (·.page)).eraseDups.length
  let held := ((x.grans.filter (fun y => !y.pinned && keeps l s y)).map (·.blk)) ++
    ((x.fetches.filter (fun y => y.bytes != 0)).map (·.blk))
  48 - pins - held.eraseDups.length

/-! ### Planning fetches (R202) -/

/-- Whether a fetch of a kind is in progress for a group. -/
def fetching (g : Nat) (k : FetchKind) (s : State) : Bool := (grp g s).fetches.any (fun x => x.kind == k)

/-- A fetch started for a group. -/
def startFetch (g : Nat) (k : FetchKind) (todo : List Nat) (s : State) : State :=
  if fetching g k s then s else modGrp g (fun x => { x with fetches := x.fetches ++ [{ kind := k, todo, all := todo }] }) s

/-- A granule's fetch with the room that it takes in the cache; none where no block can be reclaimed for it. -/
def planGran (g : Nat) (p : Nat × Nat) (s : State) : State :=
  let l := leader g s
  if hasGran g p s || fetching g (.gran p.1 p.2) s then s
  else match headOf l p.1 s with
    | none => s
    | some h =>
      let n := (granFetch h (g - l) p.2 s).2
      match (grp g s).room (streamBlocks l s) n (keeps l s) with
      | none => s
      | some (b, x) => setGrp g { x with fetches := x.fetches ++
          [{ kind := .gran p.1 p.2, todo := granBursts h (g - l) p.2 s, blk := b, bytes := n }] } s

/-- Fetches for the granules a member needs next and lacks, up to RF_TARGET_NS and the room of its cache, and for what
follows an undecided block (R202, R204, R205). A granule at or behind a format error of its segment is not fetched. -/
def planGrans (g : Nat) (s : State) : State :=
  let l := leader g s
  let want := upcoming l (ceilDiv (rd (K.rfTargetNs l) s) 40 + 1) s ++ followGrans l s
  let errs := (grp g s).blockErrs
  forEach (want.filter (fun p => errs.all (fun e => e.page != p.1 || p.2 < e.gran))) (planGran g) s

/-- Rank of a fetch within its group: TSLOAD records, then heads, then the rest (R202). -/
def fetchRank : FetchKind → Nat
  | .tsrec _ => 0
  | .head _ => 1
  | .sealedImage _ => 1
  | .pinned _ => 2
  | .gran _ _ => 3

/-- The fetches of a group in the order of R202. -/
def rankedFetches (l : List Fetch) : List Fetch :=
  (List.range 4).flatMap (fun r => l.filter (fun x => fetchRank x.kind == r))

/-- Bursts requested for the fetches of a list until `room` is used. -/
def takeBursts (g : Nat) : List Fetch → Nat → List Fetch × List (Nat × FetchKind)
  | [], _ => ([], [])
  | x :: t, room =>
    let now := x.todo.take room
    let r := takeBursts g t (room - now.length)
    ({ x with todo := x.todo.drop room, out := x.out + now.length } :: r.1, now.map (fun a => (a, x.kind)) ++ r.2)

/-- A group's refill engine requests what it needs, with up to 256 bursts in flight (R202), while the ports are open: not
before the re-initialisation that follows a map change has ended (R190). -/
def refill (g : Nat) (s : State) : State :=
  if fenced g s ∨ rd K.dramReady s = 0 then s
  else
    let s := planGrans g s
    let r := takeBursts g (rankedFetches (grp g s).fetches) (256 - inFlight g s)
    let s := modGrp g (fun x => { x with fetches := r.1 }) s
    queueReqs (r.2.map (fun a => mkReq 0 a.1 false (.fetch g a.2) s)) s

/-- The refill engines of a whole gang. -/
def refillGang (l : Nat) (s : State) : State := forEach (members l s) (fun g s => refill g s) s

/-- Whether what lies behind the header and the member table of an image is read (R96, R404). -/
def headReads (l : Nat) (h : Head) (s : State) : Bool := regionsRead h (headFails l h s)

/-- The bursts of a segment's head that member index `mem` fetches: header and member table, its own dictionary, and for
the leader the instruction words from the entry point on (R202). -/
def headBursts (g mem page pc : Nat) (s : State) : List Nat :=
  let h := readHead page s
  let base := 4096 * page
  let rest := if !headReads g h s then [] else
    (match h.members[mem]? with
      | some x => burstsOf (base + x.dictOff) (h.dictSize * dictBytes h.mode)
      | none => []) ++
    (if mem = 0 then burstsOf (base + h.instrOff + 8 * pc) (8 * (h.instrCount - pc)) else [])
  (burstsOf base (64 + 64 * min h.nmembers 16) ++ rest).filter (fun a => mapped a 64 s)

/-- The fetch of a segment's head by every member of a gang, for an entry at an instruction (R113, R202). A sealed image
is fetched whole (R405). What an earlier check of the segment's blocks found is judged anew. -/
def fetchHead (l page pc : Nat) (s : State) : State :=
  let h := readHead page s
  let s := forEach (members l s) (fun g s =>
    let s := modGrp g (fun x => { x with blockErrs := x.blockErrs.filter (fun e => rawPage e.page != page) }) s
    if h.isSealed ∧ headReads l h s then
      startFetch g (.sealedImage page) (burstsOf (4096 * page) h.imageBytes) s
    else startFetch g (.head page) (headBursts l (g - l) page pc s) s) s
  refillGang l s

/-- What a pinned block holds of an image for a member: its span (R151). -/
def pinnedSpan (h : Head) (mem : Nat) (s : State) : Nat :=
  let last := min h.gcount 64
  let r := granBytes h mem (last - 1) s
  let first := granBytes h mem 0 s
  64 + 64 * h.nmembers + 8 * min 512 h.instrCount + h.dictSize * dictBytes h.mode + (r.1 + r.2 - first.1)

/-- The bursts of the first 64 granules of an image for a member (R151). -/
def pinnedBursts (h : Head) (mem : Nat) (s : State) : List Nat :=
  ((List.range (min h.gcount 64)).flatMap (fun n => granBursts h mem n s)).eraseDups

/-- The content of a cache, its fetches and their requests are dropped (R162, R347). -/
def dropContent (g : Nat) (keepGrans : Bool) (s : State) : State :=
  dropGroupReqs g (modGrp g (fun x => { x with
    grans := if keepGrans then x.grans else []
    fetches := []
    blockErrs := [] }) s)

/-! ### ECC (R199) -/

/-- An ECC event is counted on its channel with its address (R199). -/
def eccEvent (a : Nat) (corrected : Bool) (s : State) : State :=
  let c := subchannelOf a s / 2
  let s := bump (if corrected then K.dcEccCorr c else K.dcEccUncorr c) s
  wr (K.dcEccLastAddr c) a s

/-- The class C fault of a corrected burst, with its write-back queued on DP5 (R199). -/
def correctedBurst (a : Nat) (s : State) : State :=
  let c := subchannelOf a s / 2
  let s := raiseFault (65 + 8 * c) (eccEvent a true s)
  queueReqs [mkReq 5 a true .writeBack s] s

/-- A burst known to hold an uncorrectable codeword (R199). -/
def badBurst (a : Nat) (s : State) : Bool := s.dram.bad.contains a

/-- What a read of a burst finds: an uncorrectable codeword stays until the burst is written whole. -/
def eccOf (a : Nat) (e : Ecc) (s : State) : Ecc := if badBurst a s then .uncorrected else e

/-- An uncorrectable burst is noted (R199). -/
def uncorrectedBurst (a : Nat) (s : State) : State :=
  modDram (fun d => { d with bad := if d.bad.contains a then d.bad else a :: d.bad }) (eccEvent a false s)

/-- A whole burst replaced: fresh check bits (R199). -/
def clearBad (a : Nat) (s : State) : State := modDram (fun d => { d with bad := d.bad.filter (· != a) }) s

/-! ### Map changes (R189, R190, R279) -/

/-- Items of every queue held in DRAM are lost and counted, and the reserve in DRAM is suspended while
DRAM_READY is 0 (R279). -/
def loseSpilled (s : State) : State :=
  let n := (s.queues.map (fun q => (q.2.items.filter (·.inDram)).length)).foldl (· + ·) 0
  let s := { s with queues := s.queues.map (fun q => (q.1, { q.2 with
    items := q.2.items.filter (fun i => !i.inDram)
    lost := min (2 ^ 32 - 1) (q.2.lost + (q.2.items.filter (·.inDram)).length) })) }
  incSat 64 K.rqLostTotal n s

/-- Whether a request ends with a change of map: what it was for is lost or begins anew. -/
def Owner.lostAtMapChange : Owner → Bool
  | .fetch _ _ | .dropped _ | .dma _ _ | .rqSpill _ _ | .rqFetch _ _ | .scrub => true
  | _ => false

/-- A map change takes from a group's refill engine what it has fetched and not yet in its cache (R190). An arming is left
without it; otherwise heads and TSLOAD records are fetched anew once the re-initialisation has ended. -/
def dropFetches (g : Nat) (s : State) : State :=
  if rd (K.runArmBusy (leader g s)) s = 1 then dropContent g true s
  else dropGroupReqs g (modGrp g (fun x => { x with
    fetches := (x.fetches.filter (fun y => match y.kind with | .gran _ _ => false | _ => true)).map (fun y =>
      { y with todo := y.all, out := 0, bad := false }) }) s)

/-- A change of map: the epoch counts on, all content becomes undefined and is then re-initialised to
zeros, ports close until DRAM_INIT_COMPLETE, and the refill engines drop what is not in their caches. -/
def mapChange (map : Nat) (s : State) : State :=
  let s := incWrap 32 K.dramMapEpoch 1 s
  let s := wrs [(K.dramMap, map), (K.dramMappedBytes, capacityOf map (rd K.dramDensity s)), (K.dramReady, 0)] s
  let s := modDram (fun d => { d with
    mem := [], bad := [], pause := none, blocked := [], refAt := [], refFrom := s.now, scrubAt := 0, scrubFrom := s.now
    reqs := (d.reqs.filter (fun r => !r.owner.lostAtMapChange)).map (fun r => { r with issued := false }) }) s
  let s := forEach (List.range 16) (fun g s =>
    let s := if 2 ≤ rd (K.runState g) s ∧ rd (K.runState g) s ≤ 4 then modSeq (leader g s) (fun q => { q with mapLost := true }) s else s
    dropFetches g s) s
  loseSpilled s

/-- Refreshing begins anew after a self-refresh or a training (R186, R198). -/
def restartRefresh (s : State) : State := modDram (fun d => { d with refAt := [], refFrom := s.now, blocked := [] }) s

end Sys2Proof.Machine
end

