-- ==== Sys2Proof/Machine/TimeUnit.lean ====
section
/-! DEFINITION. The time unit: counters, the tick, conversion of events to network time, timers and PTP
measurement (12_time_unit.md). Times are counts of 2^−32 ns. -/
namespace Sys2Proof.Machine

/-- One nanosecond in units of 2^−32 ns (R281). -/
def nanosec : Nat := 2 ^ 32

/-- M before 65,536 ticks have been counted: the nominal figure of R282 (DESIGN CHOICE, log 8). -/
def nominalM : Nat := 419430

/-- M: Tref edges in the latest 65,536 ticks (R282). -/
def trefRatio (s : State) : Nat :=
  match s.time.hist[65535]? with
  | some c => if c < s.time.ck then s.time.ck - c else nominalM
  | none => nominalM

/-- ACT time of Tref edge c (R283), rounded to the nearest 2^−32 ns. -/
def actTime (c : Nat) (s : State) : Nat :=
  ofSigned 96 ((s.time.act : Int) +
    roundDivI (((c : Int) - s.time.ck) * (s.time.rate * 65536 : Nat)) (trefRatio s))

/-- ACT time of an instant in Tref/1024, by the Tref edge it lies on or after. -/
def actAt (t : Nat) (s : State) : Nat := actTime (t / tref) s

/-! ### Domains (R281, R284, R292) -/

/-- The increment of a domain. -/
def tdInc (d : Nat) (s : State) : Nat := rd (K.tdInc d) s

/-- A domain's counter. -/
def tdCount (d : Nat) (s : State) : Nat := Tab.get 0 d s.time.td

/-- Whether a domain is enabled and not fenced. -/
def tdUsable (d : Nat) (s : State) : Bool := rd (K.tdEnable d) s = 1 && !fenced (0x28 + d) s

/-- The range of TD_INC (R281). -/
def tdIncOk (v : Nat) : Bool := 0x00000003FEF9DB23 ≤ v && v ≤ 0x00000004010624DD

/-- TD_INC of a deviation in ppb: round(2^34 × (1 + ppb × 10^−9)), ties up (R284). -/
def incOfPpb (ppb : Int) : Nat := (roundDivI ((2 ^ 34 : Nat) * (1000000000 + ppb)) 1000000000).toNat

/-- TD_INC as a deviation in ppb, ties up (R284). -/
def ppbOfInc (inc : Nat) : Int := roundDivI (((inc : Int) - (2 ^ 34 : Nat)) * 1000000000) (2 ^ 34)

/-- fs to 2^−32 ns, to nearest, ties up. -/
def fsToFrac (fs : Int) : Int := roundDivI (fs * (2 ^ 32 : Nat)) 1000000

/-- 2^−32 ns to fs, to nearest, ties up. -/
def fracToFs (v : Int) : Int := roundDivI (v * 1000000) (2 ^ 32)

/-- The slew step σ (R292). -/
def slewStep (s : State) : Nat := rd K.timeSlewPpm s * 2 ^ 34 / 1000000

/-- The part of H that one tick removes (R292). -/
def slewOf (h : Int) (sigma : Nat) : Int :=
  if h.natAbs ≤ sigma then h else if 0 < h then (sigma : Int) else -(sigma : Int)

/-- The staged writes of a domain (R284). -/
def tdStage (d : Nat) (s : State) : TdStage := Tab.get {} d s.time.stage

/-- The time unit changed. -/
def modTime (f : TimeUnit → TimeUnit) (s : State) : State := { s with time := f s.time }

/-- A domain's staged offset or value applied at a tick, and to ACT where ACT follows it (R284, R285). -/
def applySteps (d : Nat) (s : State) : State :=
  let g := tdStage d s
  if g.set.isNone ∧ g.moved = false then s
  else
    let old := tdCount d s
    let new := ofSigned 96 ((g.set.getD old : Nat) + if g.moved then g.offset else 0)
    let diff := toSigned 96 (new + 2 ^ 96 - old)
    let s := modTime (fun t => { t with
      td := Tab.set d new t.td
      stage := Tab.set d { g with set := none, moved := false, offset := 0 } t.stage }) s
    if d = s.time.sel ∧ rd K.timeHoldover s = 0 then
      bump K.timeSteps (modTime (fun t => { t with act := ofSigned 96 (t.act + diff) }) s)
    else s

/-- A domain's staged increment taken (R284). -/
def applyInc (d : Nat) (s : State) : State :=
  match (tdStage d s).inc with
  | some v => modTime (fun t => { t with stage := Tab.set d { tdStage d s with inc := none } t.stage }) (wr (K.tdInc d) v s)
  | none => s

/-- A domain advances by its increment, unless disabled or fenced (R281, R293, R294). -/
def advanceTd (d : Nat) (s : State) : State :=
  if tdUsable d s then modTime (fun t => { t with td := Tab.set d ((tdCount d s + tdInc d s) % 2 ^ 96) t.td }) s else s

/-- ACT advances: by the selected domain's increment plus the slew, or by the held increment (R292, R294). -/
def advanceAct (s : State) : State :=
  if rd K.timeHoldover s = 1 then
    modTime (fun t => { t with act := (t.act + t.held) % 2 ^ 96, rate := t.held }) s
  else
    let w := slewOf s.time.h (slewStep s)
    let a := ((tdInc s.time.sel s : Nat) + w).toNat
    modTime (fun t => { t with act := (t.act + a) % 2 ^ 96, rate := a, h := t.h - w }) s

/-- A switch of ACT to a domain (R292). -/
def switchTo (d : Nat) (s : State) : State :=
  let h := toSigned 96 (tdCount d s + 2 ^ 96 - s.time.act)
  let s := modTime (fun t => { t with sel := d, h, newSel := none, fenceSw := false }) s
  wr K.timeActiveSel d (wr K.timeHoldover 0 (bump K.timeSwitches s))

/-- The switch due at a tick, if any: at the fence of the selected domain or the end of holdover to a
usable domain, or by a host's write to a domain that is usable still (R292, R293, R294, R295). -/
def switchDue (s : State) : Option Nat :=
  if rd K.timeHoldover s = 1 ∨ s.time.fenceSw then
    (if tdUsable 0 s then some 0 else if tdUsable 1 s then some 1 else none)
  else s.time.newSel.filter (fun d => tdUsable d s)

/-- One tick of the time unit at a count of Tref edges (R281–R285, R292–R295). -/
def tickTime (c : Nat) (s : State) : State :=
  let s := modTime (fun t => { t with ck := c, hist := (t.ck :: t.hist).take 65536, sys := t.sys + 4 }) s
  let s := applySteps 1 (applySteps 0 s)
  let due := switchDue s
  let s := if due.isNone then applyInc 1 (applyInc 0 s) else s
  let s := advanceAct (advanceTd 1 (advanceTd 0 s))
  match due with
  | some d => applyInc 1 (applyInc 0 (switchTo d s))
  | none =>
    if s.time.fenceSw then
      wr K.timeHoldover 1 (modTime (fun t => { t with held := tdInc t.sel s, fenceSw := false }) s)
    else modTime (fun t => { t with newSel := none }) s

/-! ### Timers (R289–R291) -/

/-- ACT in the format of TMR_CMP, keeping its 32 fraction bits: the low 40 bits of ns. -/
def actLow (s : State) : Nat := s.time.act % 2 ^ 72

/-- D of R289 in units of 2^−32 ns. -/
def timerDiff (t : Nat) (s : State) : Int := toSigned 72 (rd (K.tmrCmp t) s * 256 + 2 ^ 72 - actLow s)

/-- 256 ns, the reach of detection (R289). -/
def timerReach : Int := 256 * (2 ^ 32 : Nat)

/-- A timer's mode in force. -/
def tmrMode (t : Nat) (s : State) : Nat := rd (K.tmrMode t) s

/-- The placed edge of a firing detected at this tick (R290). -/
def placedEdge (t : Nat) (s : State) : Nat :=
  s.time.ck + ceilDiv ((timerDiff t s).toNat * trefRatio s) (s.time.rate * 65536)

/-- A timer's staged writes taken at a tick (R291). -/
def applyTimer (t : Nat) (s : State) : State :=
  let g := timer t s
  let old := tmrMode t s
  let s := match g.period with | some v => wr (K.tmrPeriod t) v s | none => s
  let s := match g.mode with
    | some m =>
      let s := wr (K.tmrMode t) m s
      if m = 0 then wr (K.tmrState t) 0 s
      else if m = old then s
      else if m = 1 ∧ old = 2 then s
      else wr (K.tmrState t) 1 s
    | none => s
  let s := match g.cmp with
    | some v => (fun s => if tmrMode t s = 0 then s else wr (K.tmrState t) 1 s) (wr (K.tmrCmp t) v s)
    | none => s
  modTimer t (fun _ => {}) s

/-- Whole periods that a missed periodic timer advances (R291). -/
def missedPeriods (t : Nat) (s : State) : Nat :=
  let p := rd (K.tmrPeriod t) s * 256
  if p = 0 then 1 else (-(timerDiff t s)).toNat / p + 1

/-- A periodic timer's compare advanced by n periods. -/
def advanceTimer (t n : Nat) (s : State) : State :=
  wr (K.tmrCmp t) ((rd (K.tmrCmp t) s + n * rd (K.tmrPeriod t) s) % 2 ^ 64) s

/-- Whether a timer has a future firing: waiting (R291). -/
def timerWaiting (t : Nat) (s : State) : Bool := rd (K.tmrState t) s = 1

/-! ### PTP measurement (R286, R288), after IEEE 1588 (PRESUMED, log 9) -/

/-- A completed exchange: offsetFromMaster and meanPathDelay of the domain, in fs. With the firmware
servo, a one-time offset is staged where the offset exceeds TD_STEP_NS, after which the stamps taken before it serve no
further measurement, and otherwise the increment takes a free value in range, the loop's internals being unspecified
(R285). -/
def ptpMeasured (d : Nat) (offset delay : Int) (s : State) : State :=
  let s := wrs [(K.tdOffsetFromMaster d, ofSigned 64 (fracToFs offset)), (K.tdMeanPathDelay d, ofSigned 64 (fracToFs delay))] s
  if rd (K.tdServo d) s = 0 ∨ fenced (0x28 + d) s then s
  else if (rd (K.tdStepNs d) s * nanosec : Nat) < offset.natAbs then
    modPtp d (fun x => { best := x.best, frame := x.frame })
      (modTime (fun t => { t with stage := Tab.set d { tdStage d s with offset := -offset, moved := true } t.stage }) s)
  else
    let r := drawBelow (0x00000004010624DD - 0x00000003FEF9DB23 + 1) s
    modTime (fun t => { t with stage := Tab.set d { tdStage d s with inc := some (0x00000003FEF9DB23 + r.1) } t.stage }) r.2

end Sys2Proof.Machine
end

