-- ==== Sys2Proof/Machine/Play.lean ====
section
/-! DEFINITION. The play side: the cycle chain of a group, ranges, vectors, gaps, underruns and the end
of play (02, 05, 06), and the trigger outputs (R149). -/
namespace Sys2Proof.Machine

/-! ### Run state (R136, R139, R446) -/

/-- Every member reports the leader's run state (R139). In HALTED and FENCED the ring writer does not wrap (R69). -/
def setRunState (l v : Nat) (s : State) : State :=
  forEach (members l s) (fun g s =>
    let s := if v = 5 ∨ v = 6 then modGrp g (fun x => { x with noWrap := true }) s else s
    wr (K.runState g) v s) s

/-! ### Dynamic jump requests (R146, R148, R152, R156) -/

/-- Entry of JT_TRIG_MAP for an input. -/
def trigMap (l i : Nat) (s : State) : Nat := leAt i 1 (blob (List.replicate 8 0xFF) (K.jtTrigMap l) s)

/-- Whether the jump map entry of an input is armed on a sequencer (R146): no request of its own firing is on its
way or pending. -/
def mapArmed (l i : Nat) (s : State) : Bool :=
  let q := seq l s
  trigMap l i s != 0xFF && rd (K.jtEnable l) s = 1 && busyState (runState l s) && q.jtFrom != some i &&
  q.jumps.all (fun r => r.src != .trigger i)

/-- The order of requests that arrive in one SEQCLK cycle: ring, trigger, host (R152). -/
def JumpSrc.rank : JumpSrc → Nat
  | .ring => 0
  | .trigger _ => 1
  | .host => 2

/-- A request among those on their way, in the order of their arrival (R152). -/
def insertJump (r : JumpReq) : List JumpReq → List JumpReq
  | [] => [r]
  | x :: t =>
    if r.due < x.due ∨ (r.due = x.due ∧ r.src.rank < x.src.rank) then r :: x :: t else x :: insertJump r t

/-- A request sets out for a sequencer (R10, R148, R152). -/
def sendJump (l e due : Nat) (src : JumpSrc) (s : State) : State :=
  modSeq l (fun q => { q with jumps := insertJump ⟨due, e, src⟩ q.jumps }) s

/-- Jump map entries that are armed at an instant fire on an activation on which they have not fired yet: one in
progress on a level input, and one whose firing instant lies in the SEQCLK cycle in which they arm (R146, R161). -/
def armMaps (l t : Nat) (s : State) : State :=
  forEach (List.range 8) (fun i s =>
    let x := trig i s
    let level := rd (K.trigType i) s = 1 ∧ x.active
    let now := 0 < x.since ∧ x.since / seqclk = t / seqclk
    if (level ∨ now) ∧ ¬ x.firedBy.contains (16 + l) ∧ mapArmed l i s then
      sendJump l (trigMap l i s) (reachesSeq (if level then max (nextTref t) x.since else x.since)) (.trigger i)
        (modTrig i (fun x => { x with firedBy := (16 + l) :: x.firedBy }) s)
    else s) s

/-- Whether a jump request of an entry is accepted (R152). -/
def jumpAccepted (l e : Nat) (s : State) : Bool :=
  e < 16 && rd (K.jtEnable l) s = 1 && busyState (runState l s) && rd (K.jtEntry l e) s != 0xFFFFFFFF

/-- An accepted request that has reached the sequencer at an instant is the pending one (R152). -/
def acceptJump (l e t : Nat) (src : JumpSrc) (s : State) : State :=
  let s := if rd (K.jtPending l) s = 0xFF then s else bump (K.jtReplaced l) s
  modSeq l (fun q => { q with jtAt := t, jtVec := q.played, jtFrom := match src with | .trigger i => some i | _ => none })
    (wr (K.jtPending l) e s)

/-- A request that the group does not accept: one of a trigger or the ring is discarded and counted, one of the host
has no effect (R152). -/
def rejectJump (l : Nat) (r : JumpReq) (s : State) : State := if r.src = .host then s else bump (K.jtDiscarded l) s

/-- A request reaches the sequencer: pending, or not accepted (R152). Map entries that it leaves without a pending
request of their own are armed again from that instant on (R146). -/
def landJump (l : Nat) (r : JumpReq) (s : State) : State :=
  armMaps l r.due (if jumpAccepted l r.entry s then acceptJump l r.entry r.due r.src s else rejectJump l r s)

/-- The requests that have reached the sequencer by an instant (R148, R152). -/
def landJumps (l t : Nat) (s : State) : State :=
  let come := (seq l s).jumps.filter (fun r => r.due ≤ t)
  if come.isEmpty then s
  else forEach come (landJump l) (modSeq l (fun q => { q with jumps := q.jumps.filter (fun r => t < r.due) }) s)

/-- A pending jump request is discarded and counted when the group leaves its run, and so is every one of a trigger or
the ring still on its way, which will find no run (R152, R156). -/
def discardRequest (l : Nat) (s : State) : State :=
  let s := landJumps l s.now s
  let s := forEach (seq l s).jumps (rejectJump l) s
  let s := modSeq l (fun q => { q with jumps := [], jtFrom := none }) s
  if rd (K.jtPending l) s = 0xFF then s else wr (K.jtPending l) 0xFF (bump (K.jtDiscarded l) s)

/-- Dead time after a warm-up segment: 4,096 Tref (R20). -/
def deadTime : Nat := 4096 * tref

/-- Whether a gang is in warm-up service (CG_SERVICE, R19). -/
def warmup (l : Nat) (s : State) : Bool := rd (K.cgService l) s = 1

/-- Whether a start event that reaches a group at an instant starts it (R12, R144, R161): the group is ARMED, TCLK is
locked, and no host HALT has reached the sequencer by then (DESIGN CHOICE where both instants are one, log 56). -/
def startable (l t : Nat) (s : State) : Bool := runState l s = 2 && tclkLocked s && (seq l s).haltAt.all (t < ·)

/-! ### Trigger outputs (R149, R150) -/

/-- A pulse among the pulses of an output: one that begins while another is active extends it (R149). -/
def mergePulse (begin stop : Nat) : List (Nat × Nat) → List (Nat × Nat)
  | [] => [(begin, stop)]
  | (b, e) :: t =>
    if stop < b then (begin, stop) :: (b, e) :: t
    else if e < begin then (b, e) :: mergePulse begin stop t
    else mergePulse (min b begin) (max e stop) t

/-- A pulse of an output from an instant, counted whether or not it extends another (R149). -/
def toutPulse (j begin : Nat) (s : State) : State :=
  let stop := begin + rd (K.toutWidth j) s * tref
  bump (K.toutCount j) (modTout j (fun o => { o with pulses := mergePulse begin stop o.pulses }) s)

/-- The pulses of a SEGTRIG segment that a gang enters, on every output of source 1 that selects one of
its groups (R149). -/
def segtrigPulses (l t : Nat) (s : State) : State :=
  forEach (List.range 8) (fun j s =>
    if rd (K.toutSrc j) s = 1 ∧ (members l s).any (fun g => bitAt (rd (K.toutGroups j) s) g) then
      toutPulse j (t + rd (K.toutDelay j) s * tref) s
    else s) s

/-- Whether an output is active, before TOUT_POL (R149); `toutBall` is the level that follows. -/
def toutActive (j : Nat) (s : State) : Bool :=
  if fatal s then false
  else match rd (K.toutSrc j) s with
    | 0 => false
    | 4 => (List.range 16).any (fun g => bitAt (rd (K.toutGroups j) s) g && (runState g s = 3 || runState g s = 4))
    | _ => (tout j s).pulses.any (fun p => decide (p.1 ≤ s.now) && decide (s.now < p.2))

/-- The level of a TRIGOUT ball: TOUT_POL 0 active high, 1 active low (R149, R163). -/
def toutBall (j : Nat) (s : State) : Bool := toutActive j s != (rd (K.toutPol j) s == 1)

/-- The entry into a SEGTRIG segment is recorded and pulses the outputs (R150). -/
def segtrigEntry (l t : Nat) (s : State) : State :=
  segtrigPulses l t (incSat 32 (K.runSegtrigCount l) 1 (wr (K.runSegtrigTime l) (actAt t s) s))

/-! ### Long routines cut off (R174, R176) -/

/-- A long routine in progress is abandoned: recorded, its open unit discarded, and the timing-set bank
locked where a unit had closed (R174, R176). Cause 1 HALTED, 2 FENCED. -/
def abandonLoad (l cause : Nat) (s : State) : State :=
  match (seq l s).load with
  | none => s
  | some d =>
    let part := 0 < d.committed
    let s := wrs [(K.mcAbandon l, 2 ^ 31 + (if part then 2 ^ 30 else 0) + cause * 2 ^ 27 + 2 ^ 16 + d.committed),
      (K.mcAbandonTotal l, d.count), (K.mcRoutine l, 0)] s
    let s := modSeq l (fun q => { q with
      load := none
      tsNeed := if part then 0 :: (members l s).flatMap (fun g => (List.range 16).map (fun k => 1 + 16 * g + k)) else q.tsNeed }) s
    if part then wrs [(K.mcTsLock l, 1), (K.mcTsReloadLeft l, 1 + 16 * (members l s).length)] s else s

/-! ### Gaps and holds (R101, R103) -/

/-- SEQCLK rising edges in the half-open interval from a to b (R103). -/
def seqEdges (a b : Nat) : Nat := ceilDiv b seqclk - ceilDiv a seqclk

/-- Whether the instruction unit waits for a synchronising event, so that a gap is a hold (R103). -/
def waitsInHold (q : Seq) : Bool :=
  match q.wait with
  | .jif _ => true
  | .hold => true
  | .load => true
  | .loadBusy w => w.flags.getLsbD 0
  | _ => q.queue.any (fun r => match r.kind with | .hold _ _ => true | _ => false) ||
      (q.ending = some .stop && q.load.isSome)

/-- A gap begins: play has run out of ready ranges (R101). The first issue gap of a run raises
F260 + 16g (R103). -/
def beginGap (l t : Nat) (s : State) : State :=
  let q := seq l s
  if q.gap.isSome then s
  else
    let hold := waitsInHold q
    let s := modSeq l (fun q => { q with gap := some t, gapHold := hold, gapSeen := q.gapSeen || !hold }) s
    if hold then s
    else
      let s := bump (K.seqGaps l) s
      if q.gapSeen then s else raiseFault (260 + 16 * l) s

/-- A gap ends: its SEQCLK edges are counted as a hold or as an issue gap (R103). -/
def endGap (l t : Nat) (s : State) : State :=
  match (seq l s).gap with
  | none => s
  | some a =>
    let hold := (seq l s).gapHold
    let s := modSeq l (fun q => { q with gap := none }) s
    incSat 32 (if hold then K.seqHoldCycles l else K.seqGapCycles l) (seqEdges a t) s

/-! ### The program counter of the IU (R85, R106, R107) -/

/-- SEQ_PC of sequencer k. -/
def pcOf (k : Nat) (s : State) : Nat := rd (K.seqPc k) s

/-- The instruction word of the segment in execution at an index, where its head is known. -/
def codeAt (k pc : Nat) (s : State) : Option Nat := (headOf k (seq k s).page s).bind (·.code[pc]?)

/-- Whether the IU of sequencer k executes while arming fills its queue. -/
def filling (k : Nat) (s : State) : Bool := rd (K.runArmBusy k) s = 1

/-! ### Sequence errors (R132, R133) -/

/-- A sequence error at a place: recorded where it is the first, and the IU ends; every range issued before it
plays. -/
def seqErrorAt (k code pc page : Nat) (s : State) : State :=
  let s := if rd (K.seqErr k) s ≠ 0 then s else
    wrs [(K.seqErr k, 2 ^ 31 + (if filling k s then 0 else 2 ^ 28) + code), (K.seqErrPc k, pc % 65536),
      (K.seqErrSeg k, 4096 * rawPage page)] s
  modSeq k (fun q => { q with ending := some .seqErr, wait := .none }) s

/-- A sequence error of the instruction in execution. -/
def seqError (k code : Nat) (s : State) : State := seqErrorAt k code (pcOf k s) (seq k s).page s

/-- Whether an opcode has a routine: its dispatch entry is VALID (R165). The IU stays in a routine that a patch gives an
opcode outside R106, whose effect the spec leaves to it (log 30). -/
def hasRoutine (k op : Nat) (s : State) : Bool := dispatchValid k op s

/-- The program counter reaches an index: the end of the stream is sequence error 14 and an opcode with no
routine is sequence error 1 (R113, R132, R165). -/
def reachPc (k pc : Nat) (s : State) : State :=
  let s := wr (K.seqPc k) (pc % 65536) s
  match headOf k (seq k s).page s with
  | none => s
  | some h =>
    match h.code[pc]? with
    | none => seqErrorAt k 14 pc h.key s
    | some w => if hasRoutine k (w / 2 ^ 56) s then s else seqErrorAt k 1 pc h.key s

/-- The IU goes on with the next instruction. -/
def nextPc (k : Nat) (s : State) : State := reachPc k (pcOf k s + 1) s

/-! ### Segment boundaries (R38, R40, R105) -/

/-- A staged base period takes effect (R40). -/
def applyBase (g : Nat) (s : State) : State :=
  match (grp g s).baseStaged with
  | none => s
  | some (v, _) =>
    wrs [(K.cgBasePeriodAct g, v), (K.cgBasePending g, 0)] (modGrp g (fun x => { x with baseStaged := none }) s)

/-- 80 ns in Tref/1024: 128 Tref (R40, R320). -/
def stageTime : Nat := 128 * tref

/-- Whether a staged base period is due at a boundary (R40). -/
def baseDue (l t : Nat) (s : State) : Bool :=
  match (grp l s).baseStaged with
  | some (_, a) => a + stageTime ≤ t
  | none => false

/-- Whether a staged NCO frequency of the bound group is due at a boundary (R320). -/
def ncoDue (l t : Nat) (s : State) : Bool :=
  rd K.jtxGroup s < 16 && leader (rd K.jtxGroup s) s = l &&
  (match s.jtx.ftwNew with | some (_, a) => decide (a + stageTime ≤ t) | none => false)

/-- The staged NCO frequency takes effect at an instant (R320): the phase is set at the next sample. A sample that left at
this instant and set it has done so already, and the staged value follows on it (R324). -/
def applyNco (t : Nat) (s : State) : State :=
  match s.jtx.ftwNew with
  | none => s
  | some (v, _) =>
    let done := s.jtx.resetAt = some t
    let p := if done then (rd K.jtxNcoPhase0 s * 2 ^ 32 + v) % 2 ^ 48 else s.jtx.phase
    wrs [(K.jtxNcoFtw, v), (K.jtxNcoPending, 0)]
      { s with jtx := { s.jtx with ftwNew := none, resync := s.jtx.resync || !done, phase := p } }

/-- Source play stops, and zero samples follow (R318): what was fetched is dropped. -/
def stopSource (s : State) : State :=
  let s := wr K.jtxPlay 0 { s with jtx := { s.jtx with
    arming := false, imgs := [], asked := 0, header := false, closed := false, buffer := [], pos := 0, startAt := none
    resync := false, out := [], origin := 0, sent := 0 } }
  modDram (fun d => { d with reqs := (d.reqs.filter (fun r => r.port != 2 || r.issued)).map (fun r =>
    match r.owner with
    | .header _ | .source _ => { r with owner := .dropped r.owner }
    | _ => r) }) s

/-- A source bound to a gang's group stops when that enters READY, HALTED or FENCED (R318). -/
def sourceEnds (l : Nat) (s : State) : State :=
  if rd K.jtxGroup s < 16 ∧ leader (rd K.jtxGroup s) s = l ∧ (rd K.jtxPlay s = 2 ∨ s.jtx.startAt.isSome) then stopSource s else s

/-- Play ends a sealed segment: the TYPE 0x5 records of its failing sites follow its last vector in the
judging order, and its blocks are released and overwritten, unless a call level or the IU returns into it
(R79, R406, R407). A CALL out of the segment counts as its end too, and each stay is recorded apart, from its own first
vector (DESIGN CHOICE, log 70: the spec says only at the end of the segment). -/
def sealEnd (l : Nat) (s : State) : State :=
  let q := seq l s
  match headOf l q.segPage s with
  | some h =>
    let again := q.calls.any (fun c => c.page == q.segPage) || q.queue.any (fun r => r.page == q.segPage) || q.page == q.segPage
    if h.isSealed ∧ q.segVec < q.played then
      forEach (members l s) (fun g s => modGrp g (fun x => { x with
        judges := x.judges ++ [{ vec := q.played, start := q.lastStart, ts := 0, empty := true, sealEnd := some q.segVec }]
        grans := x.grans.filter (fun y => y.pinned || y.page != q.segPage || again) }) s) s
    else s
  | none => s

/-- Whether the dead time that follows the segment just played is still to come (R20). -/
def deadDue (l : Nat) (s : State) : Bool := warmup l s && 0 < (seq l s).played && !(seq l s).resetDone

/-- Whether a boundary at an instant needs a phase reset that is not yet done: the dead time of warm-up service, or
a stretch for that service or for a staged change that is due (R20, R38). -/
def needsReset (l t : Nat) (s : State) : Bool :=
  0 < (seq l s).played && (deadDue l s || (t % tref != 0 && (warmup l s || baseDue l t s || ncoDue l t s)))

/-- The phase reset at a boundary: the last cycle is stretched to the next Tref edge, and the dead time follows where
it is still to come (R20, R38). -/
def phaseReset (l t : Nat) (s : State) : State :=
  let t0 := nextTref t
  if deadDue l s then
    modSeq l (fun q => { q with
      nextAt := t0 + deadTime, dead := some (t0 + deadTime), resetDone := true
      masks := q.masks ++ [⟨t0, some (t0 + deadTime)⟩] }) s
  else modSeq l (fun q => { q with nextAt := t0 }) s

/-! ### The start of a cycle (R29, R35, R104) -/

/-- The verdict instants that this cycle start fixes: 32 SEQCLK cycles after the start of the fourth cycle
after a vector, or the sixteenth UI in Dash (R104). -/
def fixVerdicts (l t : Nat) (s : State) : State :=
  let c := carryCycles l s
  let v := t + 32 * seqclk
  modSeq l (fun q => { q with
    verdictAt := if q.lastCyc = some (q.cyc - c) ∧ c ≤ q.cyc ∧ q.verdictAt.isNone then some v else q.verdictAt
    blks := q.blks.map (fun b => { b with reps := b.reps.map (fun x =>
      if x.endCyc = some (q.cyc + 1 - c) ∧ x.verdictAt.isNone ∧ c ≤ q.cyc then { x with verdictAt := some v } else x) }) }) s

/-- A cycle of the chain starts, of a vector or of a hold: carried edges that it overtakes are dropped, windows whose
end has come close, and verdict instants are fixed (R29, R35, R104). -/
def openCycle (l t : Nat) (s : State) : State :=
  let cyc := (seq l s).cyc
  let s := forEach (members l s) (fun g s => forEach (List.range 16) (fun k s =>
    expireWindows (16 * g + k) t (dropCarry (16 * g + k) cyc t s)) s) s
  modSeq l (fun q => { q with cycAt := t }) (fixVerdicts l t s)

/-! ### Vectors (R25, R28–R32, R51–R56, R87) -/

/-- The pin code of channel k of a unit at a vector (R88). -/
def codeOf (m : Nat) (u : Unit) (k vec : Nat) : Nat :=
  match m with
  | 0 => u.code / 2 ^ (4 * k) % 16
  | 1 => u.code / 2 ^ (2 * k) % 4
  | _ => u.code / 2 ^ (16 * (k / 2) + 2 * (vec % 8)) % 4

/-- The edge codes of a channel for a cycle: in Dash the drive skew stands in DE0 and the strobe offset
in ST0 (R27, R49). -/
def edgeCode (m : Nat) (ts : TimingSet) (gen : Nat) : Nat :=
  if m = 2 ∧ gen = 4 then ts.edges.getD 0 0 else ts.edges.getD gen 0

/-- Drive and enable events placed at their times (R25, R30–R32). -/
def placeDrive (n t cyc vec m : Nat) (ts : TimingSet) (ev : List (Nat × EdgeAct)) (s : State) : State :=
  forEach ev (fun e s => placeEdge n false { t := t + edgeCode m ts e.1, cyc, gen := e.1, vec, act := e.2 } s) s

/-- The strobes of a vector placed at their times. ST1 fires in dual and window mode and where a TDC
window needs it (R28, R53, R59). -/
def placeStrobes (n t cyc vec m cmp : Nat) (seald : Bool) (ts : TimingSet) (s : State) : State :=
  let cmp := if seald ∧ 4 ≤ cmp then 0 else cmp
  if cmp = 0 then s
  else
    let tdc := !seald && (cmp = 5 || rd (K.chTdcMode n) s = 1)
    let s := placeEdge n false { t := t + edgeCode m ts 6, cyc, gen := 6, vec, act := .strobe0 cmp tdc } s
    if m = 0 ∧ (tdc ∨ (cmp ≤ 4 ∧ cmpMode n s ≠ 0)) then
      placeEdge n tdc { t := t + edgeCode m ts 7, cyc, gen := 7, vec, act := .strobe1 cmp tdc } s
    else s

/-- The enable change of a lane at the first vector of a segment: DEN at EE0, or at the drive edge in
Dash; a lane that becomes compare-only moves DRV to CH_TERM_SEL 4 Tref after DEN (R27, R87). The edge is placed at every
entry into a segment, also where the lane keeps its type, so that it is judged, dropped and counted as any other
(DESIGN CHOICE, log 55). -/
def placeLane (n t cyc vec m : Nat) (recv : Bool) (ts : TimingSet) (s : State) : State :=
  let te := t + edgeCode m ts 4
  let s := placeEdge n false { t := te, cyc, gen := 4, vec, act := .den (!recv) } s
  if recv then placeFree n { t := te + 4 * tref, cyc, gen := 8, vec, act := .drv (rd (K.chTermSel n) s = 1) } s
  else s

/-- One channel of a member for one vector. `lane` is the member's LANE_TYPE and `enter` whether the
vector is the first after a boundary. -/
def placeChan (n t cyc vec pos m lane : Nat) (enter seald : Bool) (u : Unit) (s : State) : State :=
  let k := n % 16
  let ts := tset n u.ts s
  let code := codeOf m u k pos
  if m = 0 then
    placeStrobes n t cyc vec m (distanceCmp code) seald ts
      (placeDrive n t cyc vec m ts (distanceEvents (n / 16) n code ts.fmt s) s)
  else
    let recv := lane.testBit k
    let s := if enter then placeLane n t cyc vec m recv ts s else s
    if recv then placeStrobes n t cyc vec m (laneCmp code) seald ts s
    else placeDrive n t cyc vec m ts (if m = 1 then sprintEvents code ts.fmt else dashEvents code) s

/-- One vector on one member group: its channels' edges and its judging entry. -/
def playMember (l g t page pos : Nat) (enter : Bool) (rep : Option (Nat × Nat)) (marks : List Nat) (s : State) : State :=
  let q := seq l s
  let m := mode l s
  let u := unitAt g page pos s
  let h := headOf l page s
  let seald := (h.map Head.isSealed).getD false
  let lane := ((h.bind (fun x => x.members[g - l]?)).map (·.laneType)).getD 0
  let s := modGrp g (fun x => { x with
    judges := x.judges ++ [{ vec := q.played, start := t, ts := u.ts, rep, sealed := seald, marks }] }) s
  let s := forEach (activeCh g s) (fun k s => placeChan (16 * g + k) t q.cyc q.played pos m lane enter seald u s) s
  settleGroup g s

/-- The granule of a vector is marked as played at an instant, for reclaiming (R204). -/
def touchGran (l page gr t : Nat) (s : State) : State :=
  forEach (members l s) (fun g s => modGrp g (fun x => { x with
    grans := x.grans.map (fun y => if y.page == page && y.n == gr then { y with played := t } else y) }) s) s

/-- Smallest lead since the run's first vector (RF_LEAD_MIN_NS): the gang's on the leader, its own on another member
(R207). -/
def noteLead (l : Nat) (s : State) : State :=
  forEach (members l s) (fun g s =>
    let v := if g = l then gangLead l s else leadNs g s
    if (seq l s).played = 1 ∨ v < rd (K.rfLeadMinNs g) s then wr (K.rfLeadMinNs g) v s else s) s

/-- A vector plays on every member: position `pos` of `page`, at the cycle start `t`. -/
def playVector (l t page pos : Nat) (enter : Bool) (rep : Option (Nat × Nat)) (marks : List Nat) (s : State) : State :=
  let s := openCycle l t s
  let m := mode l s
  let fresh := pos % granule m = 0 || enter
  let s := if fresh then touchGran l page (granOf m pos) t s else s
  let s := forEach (members l s) (fun g s => playMember l g t page pos enter rep marks s) s
  let len := cycleLen l (unitAt l page pos s).ts s
  let s := modSeq l (fun q => { q with
    played := q.played + 1, lastCyc := some q.cyc, verdictAt := none, lastStart := t, posEnd := pos + 1
    off := q.off + 1, cyc := q.cyc + 1, nextAt := t + len, period := len, resetDone := false }) s
  if fresh then refillGang l (noteLead l s) else s

/-- A hold cycle: the chain goes on with the period of the last vector (R101). -/
def holdCycle (l t : Nat) (s : State) : State :=
  modSeq l (fun q => { q with cyc := q.cyc + 1, nextAt := t + q.period }) (openCycle l t s)

/-! ### The end of play (R446, R97, R133, R158) -/

/-- The halt reason of an end (R163). -/
def haltReason : EndKind → Nat
  | .stop => 0
  | .haltInstr _ => 1
  | .hostHalt => 2
  | .seqErr => 3
  | .fmtErr => 4
  | .underrun => 5

/-- The fault of an end: sequence, segment format, underrun (R133, R97, R158). -/
def endFaultOf (l : Nat) : EndKind → Option Nat
  | .seqErr => some (259 + 16 * l)
  | .fmtErr => some (258 + 16 * l)
  | .underrun => some (256 + 16 * l)
  | _ => none

/-- The record of marks placed where no vector follows: those of the queued ranges, which are discarded, then
those that no range has taken (R125). -/
def lateMarks (l t : Nat) (s : State) : State :=
  let q := seq l s
  let marks := q.queue.flatMap (·.marks) ++ q.marks
  if marks.isEmpty then s
  else forEach (members l s) (fun g s => modGrp g (fun x => { x with
    judges := x.judges ++ [{ vec := q.played, start := t, ts := 0, empty := true, marks }] }) s)
    (modSeq l (fun q => { q with marks := [] }) s)

/-- The earlier of two block errors of a segment: the lower granule, and of equal ones the lower member's, whichever was
fetched first (DESIGN CHOICE, log 58). -/
def earlierErr (a b : Option FmtErr) : Option FmtErr :=
  match a, b with
  | some x, some y => if y.gran < x.gran then some y else some x
  | some x, none => some x
  | none, y => y

/-- The earliest block error of a gang in a segment. -/
def gangBlockErr (l page : Nat) (s : State) : Option FmtErr :=
  ((members l s).map (fun g => blockErrOf g page s)).foldl earlierErr none

/-- The format error that play reaches first (R97): the earliest block error of the segment that play is in or is
about to enter, otherwise the failed head that ends the issue. -/
def pendingFmt (l : Nat) (s : State) : Option FmtErr :=
  let q := seq l s
  let page := match q.cur, q.queue with | none, r :: _ => r.page | _, _ => q.segPage
  if q.cur.isNone ∧ q.queue.isEmpty then q.headErr.or (gangBlockErr l page s) else (gangBlockErr l page s).or q.headErr

/-- The dead time of the run's last segment, unless it has run already (R20). -/
def endDead (l t : Nat) (s : State) : State := if deadDue l s then phaseReset l t s else s

/-! ### Service (R19, R20) -/

/-- Whether a gang meets a condition of warm-up service (R19). -/
def wantsWarmup (l : Nat) (s : State) : Bool :=
  (members l s).any (fun g => !(grp g s).converged || rd (K.cgWarmupReq g) s = 1)

/-- CG_SERVICE of a gang follows its conditions in OFF and READY (R19). While an arming is in progress, RUN_STATE
still READY, it stands still (DESIGN CHOICE, log 55: the spec does not say). -/
def setService (l : Nat) (s : State) : State :=
  if runState l s ≤ 1 ∧ rd (K.runArmBusy l) s = 0 then
    forEach (members l s) (fun g s => wr (K.cgService g) (if wantsWarmup l s then 1 else 0) s) s
  else s

/-- Blocks that play had begun and not left end at an instant. -/
def endBlocks (t : Nat) (bs : List Block) : List Block :=
  bs.map (fun b => if b.began.isSome && b.ended.isNone then { b with ended := some t } else b)

/-- The longest round trip of the ring in Tref: 32 hops of at most 80 (R298, R300). -/
def maxRtt : Nat := 2560

/-- The MATCH blocks with RLY set of a gang that leaves its run are kept for the flag rounds whose sample lies in them
(R307): those that a round still on its way can have sampled. -/
def keepBlocks (l : Nat) (s : State) : State :=
  match (endBlocks s.now (seq l s).blks).filter (fun b => b.rly && b.began.isSome) with
  | [] => s
  | bs => modRly (fun x => { x with
      past := x.past.filter (fun p => decide (s.now ≤ p.2.ended.getD 0 + maxRtt * tref)) ++ bs.map (fun b => (l, b)) }) s

/-- RUN_STATE changes at the end of a run: READY after STOP, else HALTED with its reason (R446). The service of a group in READY
follows its conditions (R19). -/
def finishRun (l : Nat) (k : EndKind) (s : State) : State :=
  let q := seq l s
  let s := sourceEnds l (discardRequest l (keepBlocks l s))
  let s := match k with
    | .stop => setRunState l 1 s
    | .haltInstr c => setRunState l 5 (wrs [(K.runHaltReason l, 1), (K.seqHaltCode l, c), (K.runHaltVec l, q.played)] s)
    | k => setRunState l 5 (wrs [(K.runHaltReason l, haltReason k), (K.runHaltVec l, q.played)] s)
  let s := modSeq l (fun q => { q with
    live := false, stopped := none, ending := none, cur := none, queue := [], wait := .none, haltAt := none, pauseAt := none
    resumeAt := none, startAt := none, pauseWhy := 0, masks := [], dead := none, gap := none, blks := [] }) s
  let s := forEach (members l s) (fun g s =>
    let s := applyBase g (dropContent g false (modGrp g (fun x => { x with fromOff := false }) s))
    let s := if rd (K.capFill g) s ≠ 0 then post (rd (K.capTask g) s) s else s
    if (grp g s).fifo.isEmpty then s else post (rd (K.failTask g) s) s) s
  setService l s

/-- The blocks once ranges are given up: theirs decide no exit any more, so that no record waits for one (R125,
R175). -/
def cutRanges (gone : List Range) (q : Seq) : List Block :=
  let cut := gone.map (·.blk)
  q.blks.map (fun b => if cut.contains b.id then { b with decided := true, reps := [] } else b)

/-- Play stops for good at an instant (R446): queued ranges are discarded, marks and the sealed segment's
records are placed, a routine in progress is abandoned unless STOP waits for it, the fault of the end is
raised, and where no vector has played the state changes at once. A host HALT that is still crossing then acts in the
interval that follows. -/
def endPlay (l t : Nat) (k : EndKind) (s : State) : State :=
  let s := endGap l t s
  let s := match k, pendingFmt l s with
    | .fmtErr, some e => recordFmt l true e s
    | .underrun, some e => recordFmt l true e s
    | _, _ => s
  let s := match k with
    | .underrun => forEach (members l s) (fun g s => siteInvalid g s) (incSat 32 (K.runUnderruns l) 1 s)
    | _ => s
  let s := sealEnd l (lateMarks l t s)
  let s := if k = .stop then s else abandonLoad l 1 s
  let s := modSeq l (fun q => { q with
    stopped := some k, queue := [], cur := none, wait := .none, pauseAt := none, holdEdge := none, holdEnd := none
    haltAt := if k = .hostHalt then none else q.haltAt
    blks := endBlocks t (cutRanges (q.cur.toList ++ q.queue) q)
    masks := if k = .underrun ∨ k = .fmtErr then q.masks ++ [⟨t, none⟩] else q.masks }) s
  let s := match endFaultOf l k with | some n => raiseFault n s | none => s
  let s := if k = .stop ∧ (seq l s).load.isSome then beginGap l t s else s
  let s := endDead l t s
  let s := forEach (members l s) (fun g s => settleGroup g s) s
  if (seq l s).played = 0 ∧ ¬ (k = .stop ∧ (seq l s).load.isSome) then finishRun l k s else s

/-- The end of play at a cycle start, which is that of the first hold cycle unless a dead time comes first (R20,
R446). -/
def stopPlay (l t : Nat) (k : EndKind) (s : State) : State :=
  let s := endPlay l t k s
  if (seq l s).dead.isSome ∨ ¬ (seq l s).live then s else holdCycle l t s

/-! ### Underrun (R157–R159, R190) -/

/-- An underrun at a cycle start: PAUSED with PAUSE_ON_UNDERRUN set, otherwise the end of play. After a map change during
the run the group halts whatever PAUSE_ON_UNDERRUN says (R190). A format error that play was about to reach is recorded in
either case (R97, R161). -/
def underrun (l t : Nat) (s : State) : State :=
  if rd (K.pauseOnUnderrun l) s = 1 ∧ ¬ (seq l s).mapLost then
    let s := match pendingFmt l s with | some e => recordFmt l true e s | none => s
    let s := setRunState l 4 (incSat 32 (K.runUnderruns l) 1 s)
    let s := modSeq l (fun q => { q with
      pauseWhy := 2, pauseFrom := t, resumeAt := none, masks := q.masks ++ [⟨t, none⟩] }) s
    holdCycle l t (raiseFault (257 + 16 * l) s)
  else stopPlay l t .underrun s

/-- The time of an underrun pause up to an instant is counted (RUN_PAUSE_CYCLES, R159). -/
def countPause (l t : Nat) (s : State) : State :=
  let q := seq l s
  if runState l s = 4 ∧ q.pauseWhy = 2 then incSat 32 (K.runPauseCycles l) (seqEdges q.pauseFrom t) s else s

/-- A pause ends at a cycle start and play goes on (R159, R160). -/
def endPause (l t : Nat) (s : State) : State :=
  let s := countPause l t s
  let s := modSeq l (fun q => { q with
    pauseWhy := 0, resumeAt := none
    masks := q.masks.map (fun m => if m.till.isNone then { m with till := some t } else m) }) s
  setRunState l 3 s

/-- Whether the granule of a vector is present for every member (R157), and none lies at or behind a format error of its
segment (R97). -/
def granReady (l page pos : Nat) (s : State) : Bool :=
  (members l s).all (fun g => hasGran g (page, granOf (mode l s) pos) s && !granBad g (page, granOf (mode l s) pos) s)

/-- Whether a format error, and no underrun, stops play at a granule: an error in a block of granule n lets every
granule before n play (R97), and every member that lacks the granule has such an error, since an underrun at the same
boundary comes first (R161). -/
def fmtStops (l page pos : Nat) (s : State) : Bool :=
  (members l s).all (fun g => hasGran g (page, granOf (mode l s) pos) s || granBad g (page, granOf (mode l s) pos) s)

/-! ### Ranges (R100, R105, R111, R117–R122) -/

/-- The block of a range changed. -/
def modBlk (l : Nat) (r : Range) (f : Block → Block) (s : State) : State :=
  modSeq l (fun q => { q with blks := q.blks.map (fun b => if b.id == r.blk then f b else b) }) s

/-- A repetition of a MATCH or WAITT block begins (R116, R122). -/
def beginRep (l t : Nat) (r : Range) (s : State) : State :=
  let q := seq l s
  let rep : Rep := { n := q.rep + 1, firstVec := q.played, start := t
                     ts := (members l s).map (fun g => (g, (unitAt g r.page r.first s).ts)) }
  if r.blk = 0 then s
  else modBlk l r (fun b => { b with
    rep := q.rep + 1
    since := t
    began := some (b.began.getD t)
    reps := if b.isMatch then b.reps ++ [rep] else b.reps }) s

/-- Passes of loops, or a repetition of a block, begin to play (R205): each counted as a replay where its blocks are
locked, otherwise as streamed again. -/
def countPasses (l : Nat) (passes : List Bool) (s : State) : State :=
  forEach passes (fun isLocked s => forEach (members l s) (fun g s =>
    let m := if g = l then (members l s).length else 1
    incSat 32 (if isLocked then K.rfReplayPasses g else K.rfRestreamPasses g) m s) s) s

/-- The granule at a play position is missing: a format error in it stops play, otherwise the group underruns
(R97, R158, R159). -/
def stopShort (l t page pos : Nat) (s : State) : State :=
  if ¬ (seq l s).mapLost ∧ fmtStops l page pos s then stopPlay l t .fmtErr s else underrun l t s

/-- The vector at the play position is played, or an underrun or a format error stops play before it (R157). With the
first vector of a range or of a repetition, that begins. -/
def playNext (l t : Nat) (r : Range) (enter : Bool) (marks : List Nat) (s : State) : State :=
  let q := seq l s
  let pos := r.first + q.off
  if pos % granule (mode l s) = 0 ∧ ¬ granReady l r.page pos s then stopShort l t r.page pos s
  else
    let s := if q.off = 0 then
        countPasses l (if q.rep = 0 then r.passes else [r.locks]) (beginRep l t r s)
      else s
    let rep := if r.kind = .matchBlock then some (r.blk, q.rep + 1) else none
    playVector l t r.page pos enter rep marks s

/-- A range of the queue begins to play at an instant (R100): its slot is freed, and a segment boundary
takes effect where it is one (R105). -/
def beginRange (l t : Nat) (r : Range) (rest : List Range) (s : State) : State :=
  let q := seq l s
  let s := if r.entry ≠ 0 then sealEnd l s else s
  let s := if r.entry ≠ 0 then
      (fun s => if ncoDue l t s then applyNco t s else s) (if baseDue l t s then applyBase l s else s)
    else s
  let s := endGap l t s
  let s := modSeq l (fun x => { x with
    queue := rest, cur := some r, rep := 0, off := 0
    freedAt := if q.queue.length ≥ 16 then t else x.freedAt
    segPage := r.page
    segVec := if r.entry ≠ 0 then q.played else x.segVec
    entryVec := if r.entry ≠ 0 then q.played else x.entryVec }) s
  let s := match headOf l r.page s with
    | some h => if r.entry = 1 ∧ h.segtrig then segtrigEntry l t s else s
    | none => s
  playNext l t r (r.entry ≠ 0) r.marks s

/-- Whether a block exits at the end of its repetition, at an instant (R118, R122): 16 SEQCLK cycles after
the exit decision's instant, or at the limit. -/
def blockExits (q : Seq) (r : Range) (t : Nat) : Bool :=
  match q.blks.find? (fun b => b.id == r.blk) with
  | some b =>
    (match b.exitAt with | some e => decide (e + 16 * seqclk ≤ t) | none => false) ||
    (b.limit ≠ 0 && b.limit ≤ q.rep + 1)
  | none => decide (r.reps ≤ q.rep + 1)

/-- A repetition of the range in play ends at cycle `q.cyc`: a MATCH repetition learns its end (R119). -/
def endRep (l : Nat) (r : Range) (s : State) : State :=
  let q := seq l s
  modBlk l r (fun b => { b with
    reps := b.reps.map (fun x => if x.n == q.rep + 1 && x.endCyc.isNone then { x with endCyc := some q.cyc } else x) }) s

/-- The range in play is over (R117, R119). SEQ_MATCH_REPS is written here and SEQ_MATCH_PASS at the exit decision:
while a MATCH is in progress, or where it is cut short, both read what an earlier one left (DESIGN CHOICE, log 57). -/
def leaveRange (l t : Nat) (r : Range) (s : State) : State :=
  let q := seq l s
  let s := if r.kind = .matchBlock then wr (K.seqMatchReps l) (q.rep + 1) s else s
  let s := modBlk l r (fun b => { b with ended := some t }) s
  modSeq l (fun x => { x with cur := none, rep := 0, off := 0 }) s

/-- A flag of the sequencer: 20 MTO, 21 WTO, 22 TLATE, 23 TTO, 24 TSBUSY (R107). -/
def setSeqFlag (l i : Nat) (v : Bool) (s : State) : State := wr (K.seqFlags l) (putBit (rd (K.seqFlags l) s) i v) s

/-- Play reaches a TSYNC: an instruction unit that waits there goes on (R123, R124). -/
def reachSync (l t : Nat) (s : State) : State :=
  if (seq l s).wait = .hold then
    nextPc l (modSeq l (fun q => { q with wait := .none, iuAt := max q.iuAt t, load := q.load.map (fun d => { d with cause := 3 }) }) s)
  else s

/-- Play leaves a TSYNC with its flags (R123). The hold's entry of the queue is freed now, and not when play reached it
(DESIGN CHOICE, log 57: R100 gives no instant for a hold). -/
def leaveSync (l t : Nat) (rest : List Range) (late timeout : Bool) (s : State) : State :=
  let s := modSeq l (fun q => { q with
    queue := rest, holdEdge := none, holdEnd := none, syncAt := t
    freedAt := if q.queue.length ≥ 16 then t else q.freedAt }) s
  setSeqFlag l 23 timeout (setSeqFlag l 22 late s)

/-- Whether the boundary that play comes to next is an entry or a return: that of the next vectors issued, or of those that
the IU is yet to issue (R105). -/
def boundaryAhead (q : Seq) : Bool :=
  match q.queue.find? (fun r => r.count ≠ 0) with
  | some r => r.entry ≠ 0
  | none => q.entry ≠ 0

/-- Whether the phase reset of a boundary comes first at a cycle start at which no range is in play (R20, R38): the dead
time begins at once, a stretch with the boundary itself. A TSYNC hold that play is in goes on. -/
def resetFirst (l t : Nat) (s : State) : Bool :=
  let q := seq l s
  boundaryAhead q && (match q.queue with
    | r :: _ => (match r.kind with
      | .hold _ _ => q.holdEnd.isNone && deadDue l s
      | _ => if r.ready ≤ t then needsReset l t s else deadDue l s)
    | [] => q.ending.isNone && q.iuAt ≤ t && deadDue l s)

/-- Play reaches a cycle start with no range in play (R101, R103, R157): the next range begins if it is
ready, a boundary is reset first where R38 asks for it, and otherwise play ends or holds. A TSYNC on a timer that has no
firing to come sets TLATE (R291), also where the placed edge of a one-shot timer's firing is still to come. A hold takes
effect as soon as play comes to it, whenever the IU has issued it: the 4 cycles of R101 are those of a range that plays
(DESIGN CHOICE, log 57). -/
def nextRange (l t : Nat) : Nat → State → State
  | 0, s => holdCycle l t s
  | fuel + 1, s =>
    let q := seq l s
    if resetFirst l t s then phaseReset l t s
    else match q.queue with
    | r :: rest =>
      match r.kind with
      | .hold tmr lim =>
        let edge := rd (K.tmrLastTref tmr) s * tref
        if q.holdEnd.isSome then holdCycle l t s
        else if timerWaiting tmr s then
          -- an issue gap ends where the hold begins (R103, R124)
          let s := reachSync l t (beginGap l t (endGap l t s))
          holdCycle l t (modSeq l (fun x => { x with
            holdEdge := if t < edge then some edge else none
            holdEnd := some (if lim = 0 then 0 else t + ceilDiv (lim * 32768) 5) }) s)
        else
          let s := if rest.isEmpty then beginGap l t s else s
          nextRange l t fuel (leaveSync l t rest true false (reachSync l t s))
      | _ =>
        if r.ready ≤ t then
          (if ¬ granReady l r.page r.first s then stopShort l t r.page r.first (endGap l t s)
           else beginRange l t r rest s)
        else holdCycle l t (beginGap l t s)
    | [] =>
      match q.ending with
      | some k => if t < q.iuAt then holdCycle l t (beginGap l t s) else stopPlay l t k s
      | none => match q.wait with
        | .head _ => underrun l t (endGap l t s)
        | _ => holdCycle l t (beginGap l t s)

/-- Play at a cycle start. -/
def playStep (l t : Nat) (s : State) : State :=
  let q := seq l s
  match q.cur with
  | some r =>
    if q.off < r.count then playNext l t r false [] s
    else
      let s := endRep l r s
      if blockExits q r t then nextRange l t 17 (leaveRange l t r s)
      else
        let s := modSeq l (fun x => { x with rep := q.rep + 1, off := 0 }) s
        playNext l t r false [] s
  | none => nextRange l t 17 s

/-! ### What is due before a cycle start -/

/-- A host HALT that has reached the sequencer and takes effect at the next cycle start (R162). -/
def haltDue (q : Seq) : Bool :=
  match q.haltAt with | some a => decide (a ≤ q.nextAt) && q.stopped.isNone | none => false

/-- The vector that play takes up next: page and position; none where play waits for one. -/
def nextVec (l : Nat) (s : State) : Option (Nat × Nat) :=
  let q := seq l s
  let queued := match q.queue with
    | r :: _ => (match r.kind with | .hold _ _ => none | _ => some (r.page, r.first))
    | [] => none
  match q.cur with
  | some r =>
    if q.off < r.count then some (r.page, r.first + q.off)
    else if blockExits q r q.nextAt then queued else some (r.page, r.first)
  | none => queued

/-- Whether play stands at a granule boundary before its next vector (R160); where the queue is empty, where its last
vector ended a granule. -/
def atGranule (l : Nat) (s : State) : Bool :=
  match nextVec l s with
  | some v => v.2 % granule (mode l s) = 0
  | none => (seq l s).queue.isEmpty && (seq l s).ending.isNone && (seq l s).posEnd % granule (mode l s) = 0

/-- Whether a format error, and no underrun, stops play before the next vector (R97). -/
def fmtAhead (l : Nat) (s : State) : Bool :=
  match nextVec l s with
  | some v => fmtStops l v.1 v.2 s
  | none => false

/-- Whether the group underruns at the next cycle start (R157): the next vector's granule is missing, or play has run
out while the IU waits for the head of the segment that it enters. -/
def runsShort (l : Nat) (s : State) : Bool :=
  match nextVec l s with
  | some v => !granReady l v.1 v.2 s
  | none => (seq l s).queue.isEmpty && (match (seq l s).wait with | .head _ => true | _ => false)

/-- Whether the phase reset of a boundary comes first at the next cycle start (R20, R38). -/
def resetNext (l : Nat) (s : State) : Bool :=
  let q := seq l s
  (match q.cur with
    | some r => decide (q.off = r.count) && blockExits q r q.nextAt
    | none => true) && resetFirst l q.nextAt s

/-- A host PAUSE that takes effect at the next cycle start (R160, R161), but not before the phase reset of a boundary
there: the dead time follows the segment's last cycle (R20). -/
def pauseDue (l : Nat) (s : State) : Bool :=
  let q := seq l s
  match q.pauseAt with
  | some a => a ≤ q.nextAt && q.stopped.isNone && runState l s = 3 && atGranule l s && q.dead.isNone && !resetNext l s
  | none => false

/-- Whether the hold of TSYNC that play has reached ends by the next cycle start: its timer's placed edge,
or its limit (R123). -/
def releaseDue (q : Seq) : Bool :=
  (match q.holdEdge with | some e => decide (e ≤ q.nextAt) | none => false) ||
  (match q.holdEnd with | some e => e ≠ 0 && e ≤ q.nextAt | none => false)

/-- Nano-steps of long-context time that each set of a load needs, in Tref/1024 (R179). -/
def setTime (l : Nat) (s : State) : Nat := (48 * (members l s).length + 4) * seqclk

/-- When the last record of a set of a load arrived, m records to a set; none before that. -/
def Load.recordsAt (d : Load) (m j : Nat) : Option Nat :=
  let at_ := (List.range m).map (fun i => Tab.find (j * m + i) d.recAt)
  if at_.all Option.isSome then some (at_.foldl (fun a x => max a (x.getD 0)) 0) else none

/-- Since when the long context has had its time of a load in the present stretch: time before the first record counts
for nothing (R179). -/
def Load.running (d : Load) : Option Nat := d.since.bind (fun t => d.firstAt.map (fun a => nextSeqclk (max t a)))

/-- The instant at which a set of a load closes where the long context goes on running, once its records are there
(R179). -/
def Load.closing (d : Load) (l j : Nat) (s : State) : Option Nat :=
  d.running.bind (fun t => (d.recordsAt (members l s).length j).map (fun a =>
    max (nextSeqclk a) (t + ((j + 1) * setTime l s - d.credit))))

/-- The instants at which the units not yet committed close up to an instant, in order; a load has at most 64. -/
def Load.closedBy (d : Load) (l t : Nat) (s : State) : List Nat :=
  let n := d.committed + d.shut.length
  d.shut ++ (((List.range (d.count - n)).map (fun i => d.closing l (n + i) s)).takeWhile
    (fun x => x.any (· ≤ t))).filterMap id

/-- The instant at which the next set of a load closes: one that closed before the latest trap does so still
(R169, R171). -/
def loadCloses (l : Nat) (s : State) : Option Nat :=
  match (seq l s).load with
  | none => none
  | some d => if d.failed then none else d.shut.head?.or (d.closing l d.committed s)

/-- Whether a set of a load commits at the cycle start that the chain has come to (R169): the vector that starts
there does not use it yet (R178), and what ends play there abandons it first (R130, R174). -/
def loadDue (l : Nat) (s : State) : Bool :=
  match loadCloses l s with
  | some t => t ≤ (seq l s).cycAt && (seq l s).live
  | none => false

/-- Whether a chain has a cycle start to come: live, not in a dead time, and with no halt, commit, pause or
release due before it. -/
def cycleDue (l : Nat) (s : State) : Bool :=
  let q := seq l s
  q.live && leader l s = l && !fenced l s && tclkLocked s && q.dead.isNone && !haltDue q && !loadDue l s &&
    !pauseDue l s && !(releaseDue q && runState l s = 3)

/-- CYCLE_START of a group's chain (R24, R35, R100–R105, R157). -/
def cycleGroup (l : Nat) (s : State) : State :=
  if !cycleDue l s then s
  else
    let q := seq l s
    let t := q.nextAt
    let s := landJumps l t (toTime t s)
    let s :=
      if q.stopped.isSome then holdCycle l t s
      else if runState l s = 4 then
        (match q.resumeAt with
          | some a => if a ≤ t then playStep l t (endPause l t s) else holdCycle l t s
          -- the lead cannot be restored from undefined memory (R190)
          | none => if q.pauseWhy = 2 ∧ q.mapLost then playStep l t (endPause l t s) else holdCycle l t s)
      else playStep l t s
    forEach (members l s) (fun g s => settleGroup g s) s

end Sys2Proof.Machine
end

