-- ==== Sys2Proof/Machine/Gate.lean ====
section
/-! DEFINITION. The gate that every Baton request passes: binding, authentication, sequence window,
record and the object checks of R363, in its order (17_baton_and_object_dictionary.md). -/
namespace Sys2Proof.Machine

/-! ### Statuses (R363) -/
namespace Code
/-- Executed. -/
def ok : Nat := 0
/-- Not executed now. -/
def busy : Nat := 1
/-- Index not defined, or instance not present. -/
def noObject : Nat := 2
/-- Subindex not defined for the index. -/
def noSub : Nat := 3
/-- Payload length or layout wrong, or a nonzero rsv field of the frame. -/
def format : Nat := 4
/-- Value outside the object's range or encoding. -/
def range : Nat := 5
/-- Write to RO. -/
def readOnly : Nat := 6
/-- Read of WO. -/
def writeOnly : Nat := 7
/-- Refused by the state of the instance. -/
def state : Nat := 8
/-- Session role below the role the access needs. -/
def rights : Nat := 9
/-- Write to an Expert object without SES_EXPERT. -/
def level : Nat := 10
/-- Session unknown or closed, or another binding. -/
def session : Nat := 11
/-- SEQ outside the window. -/
def window : Nat := 12
/-- SEQ already executed with another content. -/
def seqConflict : Nat := 13
/-- Refused by any other rule. -/
def refused : Nat := 14
/-- Uncorrected DRAM data. -/
def media : Nat := 15
/-- DRAM address not mapped. -/
def unmapped : Nat := 16
/-- VER not 1. -/
def version : Nat := 17
/-- Role credential or frame authentication failed. -/
def auth : Nat := 18
/-- OPEN while 8 sessions exist. -/
def noSessions : Nat := 19
/-- Opcode undefined, or not allowed on the object. -/
def opcode : Nat := 20
/-- Block outside TOTAL, TOTAL invalid, or staging limit exceeded. -/
def stage : Nat := 21
/-- Replay of a read whose cached answer has been dropped. -/
def lost : Nat := 22
end Code

/-- What a request comes to: its status, its payload and the state after it. -/
structure Ans where
  status : Nat
  data   : Bytes
  st     : State

/-- A request refused with a status: nothing changes (R363). -/
def refuse (status : Nat) (s : State) : Ans := ⟨status, [], s⟩

/-- A request executed without payload. -/
def done (s : State) : Ans := ⟨Code.ok, [], s⟩

/-- A request executed with a payload. -/
def give (b : Bytes) (s : State) : Ans := ⟨Code.ok, b, s⟩

/-- A check that must hold before a request goes on; otherwise it is refused. -/
def need (c : Bool) (status : Nat) (s : State) (k : Ans) : Ans := if c then k else refuse status s

/-! ### Frames (R361, R369, R376, R398) -/

/-- Opcodes of R362. -/
def opOpen : Nat := 1
def opClose : Nat := 2
def opRead : Nat := 3
def opWrite : Nat := 4
def opReadBlock : Nat := 5
def opWriteBlock : Nat := 6
def opSubscribe : Nat := 7
def opNotify : Nat := 8

/-- ETH_MTU of a port. -/
def mtu (port : Nat) (s : State) : Nat := rd (K.ethMtu port) s

/-- Bytes of header before a Baton payload: IP, UDP and Baton (R369). -/
def overhead (v6 : Bool) : Nat := if v6 then 64 else 44

/-- The greatest payload of an answer of a session (R369). -/
def answerMax (x : Session) (s : State) : Nat :=
  mtu x.port s - overhead x.v6 - if x.auth then 24 else 0

/-- MAX_DATA of a binding (R376), 24 less in an authenticated session (R398). -/
def maxData (port : Nat) (v6 auth : Bool) (s : State) : Nat :=
  min 8192 (mtu port s - overhead v6 - 16) - if auth then 24 else 0

/-- The session of a binding and an identifier (R364). -/
def bound (r : Req) (x : Session) : Bool :=
  x.id == r.session && x.port == r.port && x.v6 == r.v6 && x.addr == r.addr && x.udp == r.udp

/-- Whether Baton receives frames on a port: open from step 8 or in the loader (R420, R425), the port with
its link up, and SYSCLK locked (R384). -/
def portOpen (port : Nat) (s : State) : Bool :=
  (8 ≤ rd K.startStep s || s.boot.loader) && rd (K.ethLink port) s = 1 && !s.flt.active.contains 1

/-- An answer is sent without protection. -/
def answerPlain (r : Req) (op key status : Nat) (data : Bytes) (s : State) : State :=
  let f : Frame := { op := 128 + op, session := r.session, seq := r.seq, key, status, data }
  { s with baton := { s.baton with answer := some f } }

/-- An answer of a session is sent, protected where the session is authenticated (R398). -/
def answer (x : Session) (r : Req) (op key status : Nat) (data : Bytes) (s : State) : State :=
  if x.auth then
    let ctr := x.ctrTx + 1
    let sealed_ := Config.frameSeal x.kd ctr
      (header (128 + op) r.session.toNat r.seq.toNat key status (data.length + 24)) data
    answerPlain r op key status sealed_ (modSession x.id (fun y => { y with ctrTx := y.ctrTx + 1 }) s)
  else answerPlain r op key status data s

/-- A frame that does not meet the terms of R360 is discarded and counted. -/
def badFrame (s : State) : State := bump K.batonBadFrames s

/-! ### Frame authentication (R398) -/

/-- Whether a session has accepted a counter or it lies too far back. -/
def ctrFresh (c : Nat) (x : Session) : Bool := !x.ctrSeen.contains c && x.ctrHigh ≤ c + 1024

/-- A counter accepted. -/
def takeCtr (c : Nat) (x : Session) : Session :=
  let high := max x.ctrHigh c
  { x with ctrHigh := high, ctrSeen := c :: x.ctrSeen.filter (fun y => high ≤ y + 1024) }

/-- Whether the protected frame of a request is accepted. -/
def frameOk (x : Session) (r : Req) (op key : Nat) (p : Bytes) : Bool :=
  !x.auth || (ctrFresh r.ctr.toNat x &&
    r.tag == Config.frameTag x.kh r.ctr.toNat (header op r.session.toNat r.seq.toNat key 0 (p.length + 24)) p)

/-! ### The window and the record (R367, R368) -/

/-- The signed difference of R367. -/
def seqDiff (r : Req) (x : Session) : Int := (r.seq - x.h).toInt

/-- The record of an executed request. -/
def recordOf (seq : BitVec 32) (x : Session) : Option RecEnt := x.recs.find? (fun e => e.seq == seq)

/-- The four reads that change state (R368). -/
def statefulRead (key : Nat) : Bool :=
  let i := key / 256
  (0x4000 ≤ i && i ≤ 0x400F && (key % 256 = 0x02 || key % 256 = 0x1C)) || key = K.qRead ||
  (0x5000 ≤ i && i ≤ 0x500F && key % 256 = 0x07)

/-- Whether a request is executed again when it is repeated: any read but those four (R368). -/
def repeatable (op key : Nat) : Bool := op = opReadBlock || (op = opRead && !statefulRead key)

/-- Payload bytes of recorded stateful reads. -/
def recBytes (l : List RecEnt) : Nat :=
  (l.map (fun e => if e.op = opRead then (match e.payload with | some b => b.length | none => 0) else 0)).foldl (· + ·) 0

/-- The oldest recorded payload of a stateful read dropped. -/
def dropOldest : List RecEnt → List RecEnt
  | [] => []
  | e :: t =>
    if e.op = opRead ∧ e.payload.isSome ∧ e.payload ≠ some [] then { e with payload := none } :: t else e :: dropOldest t

/-- Recorded payloads kept to 128 KiB per session, the oldest dropped beyond (R368). -/
def trimRecs : Nat → List RecEnt → List RecEnt
  | 0, l => l
  | n + 1, l => if recBytes l ≤ 131072 then l else trimRecs n (dropOldest l)

/-- A request enters the record of its session: H and the window move on (R367). -/
def record (r : Req) (op key len status : Nat) (data : Bytes) (x : Session) : Session :=
  let h := if 0 < seqDiff r x then r.seq else x.h
  let keep := x.recs.filter (fun e => e.seq != r.seq && (h - e.seq).toNat < 64)
  let e : RecEnt := { seq := r.seq, op, key, length := len, status
                      payload := if repeatable op key then none else some data }
  { x with h := h, recs := trimRecs 64 (keep ++ [e]) }

/-! ### Object checks (R363, R372, R373, R386, R387) -/

/-- Whether an index is of the diagnostic class F (R387). -/
def classF (key : Nat) : Bool := 0xF00000 ≤ key

/-- Whether an index and its instance exist: in the loader, class 0 and 0xE000 alone (R425). -/
def indexExists (key : Nat) (s : State) : Bool :=
  indexDefined (key / 256) && (!s.boot.loader || key < 0x010000 || isCapIndex (key / 256) || key / 256 = 0xE000)

/-- The role that a write of an object needs (R373 and the owning chapters). -/
def writeRole (key : Nat) (row : ObjRow) (s : State) : Nat :=
  let i := key / 256
  if i = 0x20B0 then 2
  else if key = K.secOfficerKey 0 ∧ (s.otp.officers.isEmpty ∧ s.otp.officersRevoked = 0) then 1
  else if row.lev = 3 then 3
  else if row.lev = 2 then 2
  else if row.lev = 1 then 1
  else if key = K.sesExpert then 1
  else if i = 0x1000 ∨ (0x1010 ≤ i ∧ i ≤ 0x1013) ∨ i = 0x8000 ∨ i = 0x8010 ∨ i = 0x8011 ∨ (0x8020 ≤ i ∧ i ≤ 0x8023) ∨
    i = 0x9000 ∨ (0xA000 ≤ i ∧ i ≤ 0xA020) ∨ (0xB200 ≤ i ∧ i ≤ 0xB207) ∨ (0xC000 ≤ i ∧ i ≤ 0xC013) ∨ i = 0xE000 then 1
  else 0

/-- NO_OBJECT and NO_SUB, or the row of the object. -/
def findRow (key : Nat) (s : State) : Except Nat ObjRow :=
  if !indexExists key s then .error Code.noObject
  else if isCapIndex (key / 256) then
    (if key % 256 = 0 then .ok ⟨key / 256, 1, 0, 1, .blob 8 64, .ro, 0, [], 0⟩ else .error Code.noSub)
  else match objRow (key / 256) (key % 256) with
    | some row => .ok row
    | none => .error Code.noSub

/-- Whether a role may write an object: at least the role the write needs, and certified-configuration mode is no
service of a Vendor (R373, R396). -/
def roleOk (role key : Nat) (row : ObjRow) (s : State) : Bool :=
  writeRole key row s ≤ role && !(role = 3 && key = K.secCertMode)

/-- The checks of a WRITE up to its length (R363). -/
def writeChecks (x : Session) (key len : Nat) (s : State) : Except Nat ObjRow := do
  let row ← findRow key s
  if !roleOk x.role key row s then .error Code.rights
  else if row.acc = .ro then .error Code.readOnly
  else if 1 ≤ row.lev ∧ !x.expert then .error Code.level
  else if !row.ty.lengthOk len then .error Code.format
  else .ok row

/-- The checks of a READ (R363). -/
def readChecks (key : Nat) (s : State) : Except Nat ObjRow := do
  let row ← findRow key s
  if row.acc = .wo then .error Code.writeOnly else .ok row

/-- Whether a numeric value stands in an object's range, its rsv bits apart (R5, R371). -/
def rangeOk (row : ObjRow) (v : Nat) : Bool :=
  match row.ty with
  | .blob _ _ | .str => true
  | _ =>
    let v := if row.mask = 0 then v else v &&& row.mask
    (row.ty != .bool || v ≤ 1) &&
    (row.rng.isEmpty || row.rng.any (fun r =>
      let i : Int := if row.ty.signed then toSigned (8 * row.ty.size) v else v
      r.1 ≤ i && i ≤ r.2))

/-- The value of a payload with the rsv bits of its object removed (R5). -/
def valueOf (row : ObjRow) (p : Bytes) : Nat := if row.mask = 0 then leNat p else leNat p &&& row.mask

/-! ### The gate -/

/-- What a request does with its session once its place in the order is known: an opcode check and the
checks and effect that follow it. -/
abbrev Body := Session → State → Ans

/-- A request is executed and recorded; a BUSY one is not recorded (R367). -/
def executeReq (r : Req) (op key len : Nat) (x : Session) (body : Body) (s : State) : State :=
  let a := body x s
  if a.status = Code.busy then answer x r op key a.status a.data a.st
  else answer x r op key a.status a.data (modSession x.id (record r op key len a.status a.data) a.st)

/-- A repeated request is answered from the record, or executed again where it is a plain read (R368). -/
def replayReq (r : Req) (op key len : Nat) (e : RecEnt) (x : Session) (body : Body) (s : State) : State :=
  if e.op ≠ op ∨ e.key ≠ key ∨ e.length ≠ len then answer x r op key Code.seqConflict [] s
  else
    let s := modSession x.id (fun y => { y with replays := min (2 ^ 32 - 1) (y.replays + 1) }) s
    if repeatable op key then
      let a := body x s
      answer x r op key a.status a.data a.st
    else match e.payload with
      | some b => answer x r op key e.status b s
      | none => answer x r op key Code.lost [] s

/-- Bytes of a request's datagram with its headers, the protection of an authenticated session included (R369,
R398). -/
def frameBytes (r : Req) (p : Bytes) (s : State) : Nat :=
  overhead r.v6 + p.length + if (s.sessions.find? (bound r)).any (·.auth) then 24 else 0

/-- Every request of a session but OPEN and CLOSE's special case (R363, R364, R367). -/
def request (r : Req) (op key : Nat) (p : Bytes) (body : Body) (s : State) : State :=
  if !portOpen r.port s then s
  else if mtu r.port s < frameBytes r p s then badFrame s
  else if r.ver ≠ 1 then answerPlain r op key Code.version [] s
  else match s.sessions.find? (bound r) with
    | none =>
      if op = opClose ∧ (session r.session s).isNone then answerPlain r op key Code.ok [] s
      else answerPlain r op key Code.session [] s
    | some x =>
      if !frameOk x r op key p then answerPlain r op key Code.auth [] (bump K.secAuthFails s)
      else
        let s := modSession x.id (fun y => { y with last := s.time.sys })
          (if x.auth then modSession x.id (takeCtr r.ctr.toNat) s else s)
        let d := seqDiff r x
        if d < -63 ∨ 64 < d then answer x r op key Code.window [] s
        else match (if d ≤ 0 then recordOf r.seq x else none) with
          | some e => replayReq r op key p.length e x body s
          | none => executeReq r op key p.length x body s

/-! ### The end of a session (R366) -/

/-- The SYSCLK cycles for which a closed identifier is not used again: 60 s (R365). -/
def idHold : Nat := 60000000000

/-- A session ends: all that it holds ceases, and its identifier rests (R365, R366). -/
def endSession (id : BitVec 16) (s : State) : State :=
  { s with
    sessions := s.sessions.filter (fun x => x.id != id)
    baton := { s.baton with
      closed := (id.toNat, s.time.sys) :: s.baton.closed.filter (fun c => s.time.sys < c.2 + idHold) } }

/-- The sessions that meet a condition end. -/
def endSessions (c : Session → Bool) (s : State) : State :=
  forEach (s.sessions.filter c) (fun x s => endSession x.id s) s

/-- The accessing session as it now stands. -/
def self (x : Session) (s : State) : Session := (session x.id s).getD x

end Sys2Proof.Machine
end

