-- ==== Sys2Proof/Machine/Iu.lean ====
section
/-! DEFINITION. The instruction unit of a sequencer: its program counter and time, the range queue, sequence
errors, segment entries, waits and exit decisions (05, 06, 07). `k` is the leader of its gang. -/
namespace Sys2Proof.Machine

/-! ### The instruction at the program counter (R85, R106) -/

/-- A sequencer instruction word (R85). -/
def seqWord (op : Nat) (w : SeqWord) : Nat :=
  op * 2 ^ 56 + w.flags.toNat * 2 ^ 48 + w.a.toNat * 2 ^ 32 + w.b.toNat

/-- Whether every member holds the pinned content of a page. -/
def pinHeld (l p : Nat) (s : State) : Bool :=
  match headOf l (keyOf l p s) s with
  | none => false
  | some h => (members l s).all (fun g => (List.range (min h.gcount 64)).all (fun n =>
      (grp g s).grans.any (fun x => x.page == h.key && x.n == n && x.pinned)))

/-- Whether ARM_PREP is in progress: the long routine of arming's steps 2–5, which ends with every pinned page resident
and the first segment's head there (R177). The queue fill follows it. -/
def armPrep (k : Nat) (s : State) : Bool :=
  filling k s && !((headOf k (keyOf k (seq k s).first s) s).isSome && (pinnedPages k s).all (fun p => pinHeld k p s))

/-- The queue fill begins where a change of the state has ended ARM_PREP (R177). -/
def prepEnds (k : Nat) (old s : State) : State :=
  if armPrep k old ∧ ¬ armPrep k s then modSeq k (fun q => { q with iuAt := max q.iuAt s.now }) s else s

/-- Whether the IU is free to execute its next instruction (R100, R102, R170). -/
def iuFree (k : Nat) (s : State) : Bool :=
  let q := seq k s
  leader k s = k && !fenced k s && (runState k s = 3 || runState k s = 4 || (filling k s && runState k s = 1)) &&
  q.wait = .none && q.ending.isNone && q.stopped.isNone && !armPrep k s &&
  (match q.load with | some d => d.trapped | none => true)

/-- Whether the IU executes a given word next: free, with that word at its program counter. -/
def iuOk (k op : Nat) (w : SeqWord) (s : State) : Bool := iuFree k s && codeAt k (pcOf k s) s = some (seqWord op w)

/-- Whether the range queue has a free entry (R100). -/
def roomFor (k : Nat) (s : State) : Bool := (seq k s).queue.length < 16

/-- GRi of sequencer k. -/
def grOf (k i : Nat) (s : State) : Nat := rd (K.gr k i) s

/-- SMi of sequencer k. -/
def smOf (k i : Nat) (s : State) : Nat := rd (K.sm k i) s

/-- Four bits of an operand. -/
def nib (v i : Nat) : Nat := v / 2 ^ (4 * i) % 16

/-- VLEN of the segment in execution. -/
def vlenOf (k : Nat) (s : State) : Nat := ((headOf k (seq k s).page s).map (·.vlen)).getD 0

/-- The granule of the gang's mode. -/
def granuleOf (k : Nat) (s : State) : Nat := granule (mode k s)

/-- The IU spends its cost in SEQCLK cycles (R102). -/
def charge (k n : Nat) (s : State) : State := modSeq k (fun q => { q with iuAt := q.iuAt + n * seqclk }) s

/-- An instruction that costs n cycles and goes on. -/
def spend (k n : Nat) (s : State) : State := nextPc k (charge k n s)

/-! ### Issuing (R100, R101, R111, R205) -/

/-- Passes that begin with the next range: those of the re-executed loop levels that have issued nothing in a pass
after their first, each with whether its blocks are locked. -/
def newPasses (q : Seq) : List Bool := (q.loops.filter (fun v => v.issued = 0 && 2 ≤ v.pass)).map (·.locked.isSome)

/-- Whether the innermost such level replays from locked blocks. -/
def passLocked (q : Seq) : Bool := (q.loops.find? (fun v => v.issued = 0 && 2 ≤ v.pass)).any (·.locked.isSome)

/-- A range enters the range queue, ready 4 cycles after the IU has issued it (R100, R101). -/
def issue (k cost : Nat) (r : Range) (s : State) : State :=
  let q := seq k s
  let t := max (q.iuAt + cost * seqclk) q.freedAt
  let isHold := match r.kind with | .hold _ _ => true | _ => false
  let r := { r with
    ready := if filling k s then 0 else t + 4 * seqclk
    entry := if isHold then 0 else q.entry
    marks := if isHold then [] else q.marks
    passes := if isHold then [] else newPasses q
    locks := r.locks || (!isHold && passLocked q)
    no := q.issueNo + 1 }
  let s := modSeq k (fun q => { q with
    iuAt := t
    issueNo := q.issueNo + 1
    entry := if isHold then q.entry else 0
    marks := if isHold then q.marks else []
    queue := q.queue ++ [r]
    calls := if isHold then q.calls else q.calls.map (fun c => { c with entry := 0 })
    loops := q.loops.map (fun v => { v with issued := v.issued + r.count }) }) s
  refillGang k s

/-! ### Entering segments (R105, R113, R114, R202) -/

/-- Whether a page is one of the pinned targets (R151). -/
def isPinnedPage (k page : Nat) (s : State) : Bool := (pinnedPages k s).contains page

/-- The head of a page is fetched for an entry, unless it stands pinned (R113, R154, R202). -/
def wantHead (k page pc : Nat) (s : State) : State :=
  if isPinnedPage k page s ∧ (headOf k (keyOf k page s) s).isSome then s else fetchHead k page pc s

/-- Whether a member still fetches the head of a page. -/
def headComing (k page : Nat) (s : State) : Bool :=
  (members k s).any (fun g => fetching g (.head page) s || fetching g (.sealedImage page) s)

/-- A segment whose head fails its check is never entered: issue ends, and play stops at its boundary (R97). -/
def headStops (k : Nat) (e : FmtErr) (s : State) : State :=
  modSeq k (fun q => { q with headErr := some e, ending := some .fmtErr }) s

/-- The IU enters a segment at an instruction and a play pointer; `entry` is 1 for an entry and 2 for a
return (R105, R113). It waits for the head unless that is there. A return from a routine that has issued no vector is a
boundary like any other (DESIGN CHOICE, log 57); where the caller's own entry was still to come, it still is. SEGTRIG
pulses at the first vector of a segment that follows its entry: where a called routine plays in between, that vector
follows a return, and there is no pulse (DESIGN CHOICE, log 57). -/
def enterSeg (k page pc ptr entry : Nat) (s : State) : State :=
  let had := (seq k s).pre = some page
  let failed := if had then (seq k s).preErr else none
  let s := modSeq k (fun q => { q with page := keyOf k page s, ptr, entry, pre := none, preErr := none }) s
  let s := if had then s else wantHead k page pc s
  let s := wr (K.seqPc k) pc s
  match failed with
  | some e => headStops k e s
  | none =>
  if (headOf k (keyOf k page s) s).isSome ∧ ¬ headComing k page s then reachPc k pc s
  else modSeq k (fun q => { q with wait := .head page }) s

/-- Loop levels that stand open from before the latest CALL (R112). -/
def loopBase (q : Seq) : Nat := match q.calls with | c :: _ => c.loops | [] => 0

/-- A boundary takes effect as written, at 3 cycles (R113, R114), or is a sequence error. Of several checks that fail,
that of the lower code stands, here as in RUN, LOOP, MATCH and WAITT (DESIGN CHOICE, log 57: R132 gives no order). -/
def takeBoundary (k : Nat) (b : Boundary) (s : State) : State :=
  let q := seq k s
  let s := charge k 3 s
  match b with
  | .jump page =>
    if loopBase q < q.loops.length then seqError k 6 s
    else if ¬ pageMapped page s then seqError k 10 s
    else enterSeg k page 0 0 1 s
  | .call page =>
    if ¬ q.ptr % granuleOf k s = 0 then seqError k 4 s
    else if 16 ≤ q.calls.length then seqError k 8 s
    else if ¬ pageMapped page s then seqError k 10 s
    else
      let c : CallLvl := { page := q.page, pc := pcOf k s + 1, ptr := q.ptr, loops := q.loops.length, entry := q.entry }
      enterSeg k page 0 0 1 (modSeq k (fun q => { q with calls := c :: q.calls }) s)
  | .ret =>
    match q.calls with
    | [] => seqError k 8 s
    | c :: rest =>
      if c.loops < q.loops.length then seqError k 6 s
      else enterSeg k (rawPage c.page) c.pc c.ptr (if c.entry ≠ 0 then c.entry else 2) (modSeq k (fun q => { q with calls := rest }) s)

/-- The page and the instruction that a boundary enters, if they can be told. -/
def targetPage (b : Boundary) (q : Seq) : Option (Nat × Nat) :=
  match b with
  | .jump p | .call p => some (p, 0)
  | .ret => q.calls.head?.map (fun c => (rawPage c.page, c.pc))

/-- A boundary-forming instruction is reached: with JT_ENABLE it waits for its commit point while its own
target's head is fetched (R154), otherwise it acts at once. -/
def boundary (k : Nat) (b : Boundary) (s : State) : State :=
  if rd (K.jtEnable k) s = 1 then
    let s := match targetPage b (seq k s) with
      | some p => if pageMapped p.1 s then modSeq k (fun q => { q with pre := some p.1, preErr := none }) (wantHead k p.1 p.2 s)
          else s
      | none => s
    modSeq k (fun q => { q with wait := .commit b }) s
  else takeBoundary k b s

/-- A pending jump request is taken at an instant, at which its map entry is armed again (R146): the boundary has no effect and the entry's segment is entered as a JUMP
with SEG set would (R155). -/
def takeRequest (k t : Nat) (s : State) : State :=
  let e := rd (K.jtPending k) s
  let s := wrs [(K.jtPending k, 0xFF), (K.jtLast k, e)] (bump (K.jtTaken k) (charge k 3 s))
  let s := modSeq k (fun q => { q with
    loops := q.loops.drop (q.loops.length - loopBase q), pre := none, preErr := none, jtFrom := none }) s
  enterSeg k (rd (K.jtEntry k e) s) 0 0 1 (armMaps k t s)

/-! ### Participating sites (R116, R134) -/

/-- The sites of a mask that are enabled and mapped in the gang. -/
def participating (k mask : Nat) (s : State) : Nat :=
  maskOf ((bitsOf mask 64).filter (fun x =>
    rd (K.siteEnable x) s = 1 && (members k s).any (fun g => siteInGroup x g s)))

/-- A block of vectors at the play pointer: length and alignment (R109, R116, R121); 0 where it is valid, else
the sequence error. -/
def blockCheck (k grans : Nat) (s : State) : Nat :=
  let q := seq k s
  let n := grans * granuleOf k s
  if q.ptr % granuleOf k s ≠ 0 then 4
  else if grans = 0 ∨ vlenOf k s < q.ptr + n then 12 else 0

/-! ### Events of WAITT (R121, R122, R146, R148) -/

/-- Whether a WAITT of a source is armed on sequencer k: until it takes an event or exits, also after the limit has
decided its exit (R146). -/
def waitArmed (k src : Nat) (s : State) : Bool :=
  let q := seq k s
  q.blks.any (fun b => !b.isMatch && b.source == src && b.event.isNone &&
    (!b.decided || (q.cur.toList ++ q.queue).any (fun r => r.blk == b.id)))

/-- An event of a source reaches sequencer k at an instant: the oldest WAITT of that source that waits takes
it, and one whose limit has decided its exit is the last to count it (R122); otherwise it is kept for a WAITT that the IU
executes before its arrival. -/
def waitEvent (k src t : Nat) (s : State) : State :=
  let q := seq k s
  match q.blks.find? (fun b => !b.isMatch && !b.decided && b.source == src && b.event.isNone) with
  | some b => modSeq k (fun q => { q with
      blks := q.blks.map (fun x => if x.id == b.id then { x with event := some t } else x) }) s
  | none => modSeq k (fun q => { q with events := if waitArmed k src s then q.events else ((src, t) :: q.events).take 32 }) s

/-! ### Conditions of JIF (R114) -/

/-- The latest MATCH or WAITT of the run. -/
def latestBlk (isMatch : Bool) (q : Seq) : Option Block := (q.blks.filter (fun b => b.isMatch == isMatch)).getLast?

/-- Whether every vector issued so far is judged, and since when (R104): the verdict instant of the last
vector issued. A hold of TSYNC in the queue is no vector. A MATCH that has not decided its exit may still write the records
of R120, which count. -/
def verdictKnown (k : Nat) (s : State) : Option Nat :=
  let q := seq k s
  let vectors := q.cur.isSome || q.queue.any (fun r => match r.kind with | .hold _ _ => false | _ => true)
  if vectors ∨ ¬ (members k s).all (fun g => (grp g s).judges.isEmpty) ∨ q.blks.any (fun b => b.isMatch && !b.decided) then none
  else if q.played = 0 then some 0 else q.verdictAt

/-- The sites that failed in a sealed segment whose last vector is judged, and which the IU has left, although no
vector has followed yet (R114). -/
def sealFails (k : Nat) (s : State) : Nat :=
  if (seq k s).entry = 0 then 0 else (members k s).foldl (fun a g => a ||| (grp g s).sealFail) 0

/-- Whether the value of a condition is known, and since when; none while a synchronising condition waits. -/
def condKnown (k c : Nat) (s : State) : Option Nat :=
  let q := seq k s
  if c = 0x20 ∨ c = 0x21 then
    match latestBlk (c = 0x20) q with
    | some b => if b.decided then some b.known else none
    | none => some 0
  else if c = 0x22 ∨ c = 0x23 then
    (if q.queue.any (fun r => match r.kind with | .hold _ _ => true | _ => false) then none else some q.syncAt)
  else if (0x30 ≤ c ∧ c ≤ 0x33) ∨ c = 0x38 then verdictKnown k s
  else some 0

/-- The value of a condition. -/
def condValue (k c : Nat) (s : State) : Bool :=
  let f := rd (K.seqFlags k) s
  if c ≤ 0x0F then bitAt f c
  else if c ≤ 0x1F then grOf k (c - 0x10) s != 0
  else if c ≤ 0x24 then bitAt f (c - 12)
  else if c = 0x38 then (seq k s).anyFail || sealFails k s != 0
  else (((seq k s).failSites ||| sealFails k s) &&& participating k (smOf k (c - 0x30) s) s) != 0

/-- Whether a code names a condition (R114). -/
def condOk (c : Nat) : Bool := c ≤ 0x24 || (0x30 ≤ c && c ≤ 0x33) || c = 0x38

/-- JIF with its condition known (R114): 2 cycles, 3 where it is taken. -/
def decideJif (k : Nat) (w : SeqWord) (s : State) : State :=
  let c := w.a.toNat % 256
  if xor (condValue k c s) (w.flags.getLsbD 1) then
    if w.flags.getLsbD 0 then boundary k (.jump w.b.toNat) s
    else
      let s := charge k 3 s
      match codeAt k w.b.toNat s with
      | some _ => reachPc k w.b.toNat s
      | none => seqError k 9 s
  else spend k 2 s

/-- A JIF that waits learns its condition, if it is now known, and goes on from that instant (R102, R114). -/
def releaseJif (k : Nat) (s : State) : State :=
  let q := seq k s
  let held := match q.load with | some d => !d.trapped && !d.wait | none => false
  match q.wait with
  | .jif w =>
    if held then s else
    (match condKnown k (w.a.toNat % 256) s with
      | some t => decideJif k w (modSeq k (fun q => { q with wait := .none, iuAt := max q.iuAt t }) s)
      | none => s)
  | _ => s

/-! ### Exit decisions (R118–R122) -/

/-- The first repetition of a MATCH block that is due: its verdict instant fixed, every vector of it judged. -/
def dueRep (k : Nat) (b : Block) (s : State) : Option Rep :=
  match b.reps.find? (fun x => x.n == b.judged + 1) with
  | some x =>
    if x.verdictAt.isSome ∧ (members k s).all (fun g => !(grp g s).judges.any (fun j => j.rep == some (b.id, x.n))) then some x
    else none
  | none => none

/-- The undecided MATCH block that is judged next. -/
def openMatch (k : Nat) (s : State) : Option Block :=
  (seq k s).blks.find? (fun b => b.isMatch && !b.decided)

/-- The MATCH block with RLY set that has decided its exit and has a repetition due that is still to be judged (R308). -/
def lateMatch (k : Nat) (s : State) : Option Block :=
  (seq k s).blks.find? (fun b => b.isMatch && b.rly && b.decided && (dueRep k b s).isSome)

/-- The sites that a repetition passes and that stay latched (R116). -/
def passedOf (b : Block) (x : Rep) : Nat :=
  let p := b.sites &&& (2 ^ 64 - 1 - x.fails)
  if b.same then p else b.latched ||| p

/-- Whether the chip's own exit condition holds at a repetition (R116). -/
def localMet (b : Block) (x : Rep) : Bool := passedOf b x == b.sites

/-- Whether the exit condition holds at a repetition: with RLY set, by the combined result of the ring that
has come back by its verdict instant (R309). -/
def condMet (b : Block) (x : Rep) : Bool :=
  if b.rly then (match b.flagAt with | some t => decide (t ≤ x.verdictAt.getD 0) | none => false) else localMet b x

/-- Whether a repetition decides the exit of its block (R119). -/
def decides (b : Block) (x : Rep) : Bool := condMet b x || (b.limit ≠ 0 && b.limit == x.n)

/-- The verdict instants of a block's repetitions and whether its own exit condition held, with one more. -/
def Block.oksWith (b : Block) (x : Rep) : List (Nat × Bool) := (x.verdictAt.getD 0, localMet b x) :: b.oks

/-- A repetition judged: the sites it latches. -/
def judgeRep (k : Nat) (b : Block) (x : Rep) (s : State) : State :=
  modSeq k (fun q => { q with blks := q.blks.map (fun y => if y.id == b.id then
    { y with judged := x.n, latched := passedOf b x, oks := b.oksWith x
             reps := y.reps.filter (fun z => x.n < z.n || z.n == x.n) } else y) }) s

/-- The sites that a MATCH which times out leaves unmatched (R120): those that failed the last repetition and, with SAME
clear, never latched a pass. -/
def unmatched (b : Block) (x : Rep) : Nat :=
  b.sites &&& x.fails &&& (if b.same then 2 ^ 64 - 1 else 2 ^ 64 - 1 - passedOf b x)

/-- A MATCH that times out in a sealed segment makes no record of R120 and no count per channel (R79, R407): its
unmatched sites fail the segment, in each member with a failing channel of theirs (DESIGN CHOICE, log 67). -/
def timeoutSealed (k : Nat) (b : Block) (x : Rep) (s : State) : State :=
  forEach (members k s) (fun g s =>
    let sites := (bitsOf (unmatched b x) 64).filter (fun site => (Tab.get 0 g x.chans &&& siteMask g site s) != 0)
    modGrp g (fun y => { y with sealFail := y.sealFail ||| maskOf sites }) s) s

/-- The MATCH timeout records of R120, one for each unmatched site and member. -/
def timeoutRecords (k : Nat) (b : Block) (x : Rep) (s : State) : State :=
  let sites := bitsOf (unmatched b x) 64
  let s := forEach (members k s) (fun g s =>
    let bad := Tab.get 0 g x.chans
    let s := forEach sites (fun site s =>
      let cm := bad &&& siteMask g site s
      if cm = 0 then s
      else
        let w := (Tab.get 0 g x.wins &&& siteMask g site s) != 0
        let s := siteRecord g site (fun f => failRecord site w f (Tab.get 0 g x.ts) x.firstVec cm (trefOf g x.start s)) s
        forEach (bitsOf cm 16) (fun c s => incSat 64 (K.chFails (16 * g + c)) 1 s) s) s
    s) s
  let any := !sites.isEmpty
  modSeq k (fun q => { q with anyFail := q.anyFail || any, failSites := q.failSites ||| maskOf sites }) s

/-- The exit of a MATCH decided at a repetition (R118–R120). With RLY set, the repetitions that follow until play leaves it
are judged on, since the ring goes on asking for their verdicts (R308). -/
def decideMatch (k : Nat) (b : Block) (x : Rep) (s : State) : State :=
  let met := condMet b x
  let v := x.verdictAt.getD 0
  let s := modSeq k (fun q => { q with blks := q.blks.map (fun y => if y.id == b.id then
    { y with judged := x.n, latched := passedOf b x, oks := b.oksWith x, decided := true, known := v
             exitAt := if met then some v else none
             reps := if y.rly then y.reps.filter (fun z => x.n < z.n) else [] } else y) }) s
  let s := setSeqFlag k 20 (!met) (wr (K.seqMatchPass k) (passedOf b x) s)
  let s := if met then s else if b.isSealed then timeoutSealed k b x s else timeoutRecords k b x s
  releaseJif k (forEach (members k s) (fun g s => settleGroup g s) s)

/-- The WAITT whose exit can be decided: its event has arrived or its last repetition has begun (R122). -/
def openWait (k : Nat) (s : State) : Option Block :=
  (seq k s).blks.find? (fun b => !b.isMatch && !b.decided &&
    (b.event.isSome || (b.limit ≠ 0 && b.limit ≤ b.rep)))

/-- The exit of a WAITT decided (R122): WTO is set on an exit by the limit. -/
def decideWait (k : Nat) (b : Block) (s : State) : State :=
  let byEvent := match b.event with
    | some e => decide (b.limit = 0 ∨ b.rep < b.limit ∨ e ≤ b.since)
    | none => false
  let at_ := if byEvent then b.event.getD 0 else b.since
  let s := modSeq k (fun q => { q with blks := q.blks.map (fun y => if y.id == b.id then
    { y with decided := true, known := at_, exitAt := if byEvent then b.event else none } else y) }) s
  releaseJif k (setSeqFlag k 21 (!byEvent) s)


/-! ### Long routines and micro-traps (R128, R169–R175) -/

/-- A timing set in the 36-byte layout of TS_TABLE (R48). -/
def parseSet (b : Bytes) : TimingSet :=
  { edges := (List.range 8).map (fun i => leAt (4 * i) 4 b), fmt := leAt 32 4 b % 32 }

/-- A long routine starts (R128, R170): its records are requested in set order, member order within a set. A load image
that begins in mapped DRAM and runs past it is format error 7, at the image's start (R132, log 57). A dispatch entry
without LONG keeps the routine in the foreground, which waits for its end as with WAIT. -/
def startLoad (k : Nat) (w : SeqWord) (s : State) : State :=
  let s := charge k 2 s
  let q := seq k s
  let m := (members k s).length
  let count := w.a.toNat % 64 + 1
  let wait := w.flags.getLsbD 0 || !dispatchLong k 0xE s
  let page := w.b.toNat
  if ¬ pageMapped page s then seqError k 10 s
  else if ¬ mapped (4096 * page) (640 * count * m) s then headStops k ⟨7, 0, 0, 0xFFFFFFFF, page⟩ s
  else
    let d : Load := { first := w.a.toNat / 256 % 64, count, page, wait, at0 := q.iuAt, trapped := !wait, since := if wait then some q.iuAt else none,
                      pc := pcOf k s, seg := q.page, no := q.issueNo
                      micro := { upc := dispatchUaddr k 0xE s, ucnt := Config.freeNat s.free % 2 ^ 16 } }
    let s := { s with free := s.free + 1 }
    let s := modSeq k (fun q => { q with load := some d, wait := if wait then .load else .none }) s
    let s := setSeqFlag k 24 true (wr (K.mcRoutine k) 1 s)
    let s := forEach (List.range (count * m)) (fun i s =>
      startFetch k (.tsrec i) (burstsOf (4096 * page + (i % m * count + i / m) * 640) 640) s) s
    let s := refill k s
    if wait then s else nextPc k s

/-- The long context has the micro-engine from an instant (R170, R179). -/
def longRuns (t : Nat) (d : Load) : Load :=
  { d with trapped := false, retAt := t, cause := 1, since := some t }

/-- The byte offset of the next record of a load to request: a record whose fetch has bursts to request (R179). -/
def nextFetch (k : Nat) (d : Load) (s : State) : Nat :=
  let m := (members k s).length
  let waits := fun (i : Nat) => (grp k s).fetches.any (fun x => x.kind == .tsrec i && !x.todo.isEmpty)
  match (List.range (d.count * m)).find? waits with
  | some i => (i % m * d.count + i / m) * 640
  | none => 640 * d.count * m

/-- The trap frame of R173. -/
def trapFrame (k cause : Nat) (d : Load) (s : State) : Bytes :=
  let u := d.micro
  let stack := u.urs.reverse
  leBytes 4 (2 ^ 31 + cause * 2 ^ 26 + u.upc % 8192) ++
  leBytes 4 (stack.length * 2 ^ 30 + stack.getD 1 0 * 2 ^ 13 + stack.getD 0 0) ++
  leBytes 2 d.committed ++ leBytes 2 u.ucnt ++
  leBytes 2 d.count ++ leBytes 1 u.shadow ++ [1#8] ++ u.temps.flatMap (leBytes 4) ++
  leBytes 4 (nextFetch k d s) ++ leBytes 4 u.condl ++ List.replicate 8 0

/-- The R173 code of what made the foreground ready. -/
def trapCause (q : Seq) : Nat :=
  match q.wait, q.load with
  | .jif _, _ => 2
  | .commit _, _ => 4
  | _, some d => d.cause
  | _, none => 1

/-- The foreground takes a micro-trap for an instant at which it is ready (R171, R172): the nano-step of that cycle
ends first, or of the cycle in which a trap return completes, and its instruction begins in the third cycle after. -/
def takeTrap (k t : Nat) (s : State) : State :=
  match (seq k s).load with
  | none => s
  | some d =>
    let cycle := max t d.retAt / seqclk
    let bound := (cycle + 1) * seqclk
    let had := match d.running with | some x => bound - x | none => 0
    let d := { d with shut := d.closedBy k bound s, since := none, credit := d.credit + had
                      micro := microRun k s.free (had / seqclk) d.micro s }
    let s := bump (K.mcTraps k) (setBlob (K.mcTrapFrame k) (trapFrame k (trapCause (seq k s)) d s) s)
    let s := { s with free := s.free + had / seqclk * stepDraws }
    modSeq k (fun q => { q with iuAt := (cycle + 3) * seqclk, load := some { d with trapped := true } }) s

/-- The last set of a load has committed: what waited for it goes on (R128, R170). -/
def endLoad (k t : Nat) (s : State) : State :=
  let s := setSeqFlag k 24 false (wr (K.mcRoutine k) 0 s)
  let s := if (seq k s).stopped.isSome then endGap k t s else s
  let q := seq k s
  let s := modSeq k (fun q => { q with load := none }) s
  match q.wait with
  | .load => nextPc k (modSeq k (fun q => { q with wait := .none, iuAt := max q.iuAt t }) s)
  | .loadBusy w => startLoad k w (modSeq k (fun q => { q with wait := .none, iuAt := max q.iuAt t }) s)
  | _ => s

/-- A load for which STOP waits fails (R129, R133): the routine is abandoned, the hold ends, and the run ends with the
sequence error. -/
def loadEndsRun (k : Nat) (s : State) : State :=
  let s := raiseFault (259 + 16 * k) (abandonLoad k 1 (endGap k s.now s))
  let s := modSeq k (fun q => { q with stopped := some .seqErr }) s
  if (seq k s).played = 0 then finishRun k (if (seq k s).haltAt.isSome then .hostHalt else .seqErr) s else s

/-- A set that fails is sequence error 13 of the TSLOAD (R128, R175): ranges issued after it that have not
begun are discarded, their marks kept. Where STOP waits for the load, play has ended already, and so does the wait. -/
def failLoad (k : Nat) (d : Load) (s : State) : State :=
  let q := seq k s
  -- a hold that play has reached has begun
  let kept := q.queue.zipIdx.filter (fun x => x.1.no ≤ d.no || (x.2 = 0 && q.holdEnd.isSome)) |>.map (·.1)
  let gone := q.queue.filter (fun r => !kept.contains r)
  let s := modSeq k (fun q => { q with
    queue := kept
    blks := cutRanges gone q
    marks := gone.flatMap (·.marks) ++ q.marks
    load := some { d with failed := true }
    iuAt := max q.iuAt s.now }) s
  let s := seqErrorAt k 13 d.pc d.seg s
  if (seq k s).stopped.isSome then loadEndsRun k s else s

/-- Whether a set of a load is in range and passes R42 on every member. -/
def setLoads (k ts : Nat) (recs : List Bytes) (s : State) : Bool :=
  let p := leAt 0 4 (recs.headD [])
  let p := if p = 0 then rd (K.cgBasePeriodAct k) s else p
  ts < setsOf (mode k s) && ((members k s).zip recs).all (fun x => (activeCh x.1 s).all (fun c =>
    let t := parseSet (slice (8 + 36 * c) 36 x.2)
    entryRule (mode k s) p (uwtOf x.1 t s) t == 0))

/-- A set of a load commits as one unit (R128, R169, R179). A record's rsv bytes, at 4 and 584, are ignored, and in a gang
the period code of each member's record goes to that member's own period table (DESIGN CHOICE, log 69: R5 and R132 give
no outcome for the bytes, and R26 and R128 do not say whose table). -/
def commitSet (k : Nat) (s : State) : State :=
  match (seq k s).load with
  | none => s
  | some d =>
    let m := (members k s).length
    let recs := (List.range m).map (fun i => Tab.get [] (d.committed * m + i) d.recs)
    let ts := d.first + d.committed
    if ¬ setLoads k ts recs s then failLoad k d s
    else
      let s := forEach ((members k s).zip recs) (fun x s =>
        let s := setTsPeriod x.1 ts (leAt 0 4 x.2) s
        forEach (List.range 16) (fun c s => setTset (16 * x.1 + c) ts (parseSet (slice (8 + 36 * c) 36 x.2)) s) s) s
      let s := modSeq k (fun q => { q with load := some { d with committed := d.committed + 1, shut := d.shut.drop 1 } }) s
      if d.committed + 1 = d.count then endLoad k (seq k s).cycAt s else s

/-! ### Commit points (R153, R154) -/

/-- Vectors of the ranges issued and not yet played; none where a block has not decided its exit. -/
def vectorsToCome (k : Nat) (s : State) : Option Nat :=
  let q := seq k s
  let blkOf := fun (r : Range) => q.blks.find? (fun b => b.id == r.blk)
  if q.blks.any (fun b => !b.decided) then none
  else
    let here := match q.cur with
      | some r => (match blkOf r with
          | some b => r.count - q.off + r.count * moreReps k r b s
          | none => r.count * r.reps - (q.rep * r.count + q.off))
      | none => 0
    some (here + (q.queue.map (fun r => r.count * if (blkOf r).isSome then 1 else r.reps)).foldl (· + ·) 0)

/-- The commit point of the boundary that the IU waits at: its vector and instant, once play has reached it
(R153). -/
def commitAt (k : Nat) (s : State) : Option (Nat × Nat) :=
  let q := seq k s
  match vectorsToCome k s with
  | none => none
  | some n =>
    let v := q.played + n
    let c := max (v - 4 * granuleOf k s) (if q.queue.any (fun r => r.entry ≠ 0) then q.played + 1 else q.entryVec)
    let dec := (q.blks.map (·.known)).foldl max 0
    if c < q.played ∨ n = 0 then some (c, max (if q.played ≤ c + 1 then q.lastStart else 0) dec) else none

/-- Whether the pending request is taken at a commit point (R153, R161): pending by the cycle start of its vector or
by the exit decision that fixes it, the later of the two, or in the same SEQCLK cycle. -/
def requestTaken (k : Nat) (c : Nat × Nat) (s : State) : Bool :=
  let q := seq k s
  rd (K.jtPending k) s != 0xFF && (q.jtVec ≤ c.1 || q.jtAt / seqclk ≤ c.2 / seqclk)

/-- Whether the IU's next instruction needs a slot of the range queue: RUN, MATCH, WAITT or TSYNC. -/
def needsSlot (k : Nat) (s : State) : Bool :=
  match (codeAt k (pcOf k s) s).map (· / 2 ^ 56) with
  | some op => [0x01, 0x08, 0x09, 0x0A].contains op
  | none => false

/-- Whether the foreground waits in a way that leaves the micro-engine to the long context: for a slot of the full
queue, a synchronising condition, an event, a commit point or a load, or for good (R170). -/
def yieldsEngine (k : Nat) (s : State) : Bool :=
  let q := seq k s
  match q.wait with
  | .head _ => false
  | .none => q.ending.isSome || (!roomFor k s && needsSlot k s)
  | _ => true

/-- The instant since which the foreground is ready, if it is (R171). -/
def readySince (k : Nat) (s : State) : Option Nat :=
  let q := seq k s
  match q.wait with
  | .none =>
    if q.ending.isSome then none
    else if !needsSlot k s then some q.iuAt
    else if roomFor k s then some (max q.iuAt q.freedAt) else none
  | .jif w => condKnown k (w.a.toNat % 256) s
  | .commit _ => (commitAt k s).map (fun c => max q.iuAt c.2)
  | _ => none

/-- Whether the long context has the micro-engine, so that the foreground needs a micro-trap (R171). -/
def longHolds (k : Nat) (s : State) : Bool :=
  match (seq k s).load with | some d => !d.trapped && !d.wait | none => false

end Sys2Proof.Machine
end

