-- ==== Sys2Proof/Machine/Timeline.lean ====
section
/-! DEFINITION. The steps of the cycle chains, the edges and the comparators, and the writers of the capture ring
and of the spill regions (02, 03). -/
namespace Sys2Proof.Machine

/-! ### System channels (R45, R46) -/

/-- One P waveform of a system channel placed from an instant (R45). -/
def placeSys (k t cyc : Nat) (s : State) : State :=
  let e := sysEdges k s
  forEach (formatDrive (rd (K.sysFormat k) s) true) (fun x s =>
    placeEdge (256 + k) false { t := t + (if x.1 = 0 then e.1 else e.2), cyc, gen := x.1, vec := 0, act := x.2 } s) s

/-- CYCLE_START of a system channel: the next cycle of its clock, on a Tref edge after a write of its timing
(R46), or the pulse of Sync mode. -/
def cycleSys (k : Nat) (s : State) : State :=
  let c := sysch k s
  if !tclkLocked s then s
  else if rd (K.sysMode k) s = 3 ∧ c.running then
    let t := if c.resync then nextTref c.next else c.next
    let s := placeSys k t (c.cyc + 1) (dropCarry (256 + k) (c.cyc + 1) t (toTime t s))
    modSysch k (fun c => { c with start := t, next := t + rd (K.sysPeriod k) s, cyc := c.cyc + 1, resync := false }) s
  else match c.pulse with
    | some t =>
      if rd (K.sysMode k) s = 4 then
        -- DRV is low again at the end of the waveform's cycle, whatever the format leaves
        let s := modChan (256 + k) (fun c => { c with sched := c.sched.filter (fun e => e.gen != 8 || e.t < t) }) (toTime t s)
        let s := placeFree (256 + k) { t := t + rd (K.sysPeriod k) s, cyc := c.cyc + 1, gen := 8, vec := 0, act := .drv false }
          (placeSys k t (c.cyc + 1) s)
        modSysch k (fun c => { c with start := t, cyc := c.cyc + 1, pulse := none }) s
      else s
    | none => s

/-- A run of a group starts at an instant: the clocks aligned to it restart there and its Sync channels pulse
(R45, R46). Edges that the cycle so ended has scheduled already still fire (DESIGN CHOICE, log 49). -/
def alignSys (l t : Nat) (s : State) : State :=
  forEach (List.range 8) (fun k s =>
    let g := rd (K.sysAlignGroup k) s
    if g < 16 ∧ leader g s = l then
      (if rd (K.sysMode k) s = 3 then modSysch k (fun c => { c with running := true, next := t, resync := false }) s
       else if rd (K.sysMode k) s = 4 then modSysch k (fun c => { c with pulse := some t }) s
       else s)
    else s) s

/-- A cycle chain reaches the start of its next cycle (R24). -/
def execCycleStart (c : Chain) (s : State) : Host.Outcome State Fault Refusal :=
  match c with
  | .group g => .next (cycleGroup g s)
  | .sys k => .next (cycleSys k s)

/-! ### Edges (R25, R33, R44) -/

/-- Whether one scheduled edge fires before another: by time at the balls, then cycle, then generator (R33). -/
def firesBefore (n : Nat) (s : State) (a b : Edge) : Bool :=
  let ta := ballTime n a s
  let tb := ballTime n b s
  ta < tb || (ta == tb && (a.cyc < b.cyc || (a.cyc == b.cyc && a.gen ≤ b.gen)))

/-- The edge of a schedule that fires first. -/
def firstEdge (n : Nat) (s : State) : List Edge → Option Edge
  | [] => none
  | e :: t => match firstEdge n s t with
    | none => some e
    | some f => some (if firesBefore n s e f then e else f)

/-- A strobe looks at a channel's comparators at an instant. -/
def lookAt (n t : Nat) (s : State) : State := modChan n (fun c => { c with seen := max c.seen t }) s

/-- What an edge does at its instant (R25, R51, R56, R350). -/
def applyEdge (n t : Nat) (e : Edge) (s : State) : State :=
  let off := strobeMasked (n / 16) e.t s || siteOff n s
  match e.act with
  | .drv v => emitDrv n t v s
  | .toggle => emitDrv n t (!(chan n s).drv.level) s
  | .den v => emitDen n t v s
  | .safeDen => modChan n (fun c => { c with den := c.den.force t false }) s
  | .safeDrv => modChan n (fun c => { c with drv := c.drv.force t (safeDrvLevel n s) }) s
  | .strobe0 cmp tdc => if off then s else fireSt0 n e.vec e.t t cmp tdc (lookAt n t s)
  | .strobe1 cmp tdc =>
    if e.gen = 9 then endTdc n e.vec t s
    else if off then maskSt1 n e.vec s else fireSt1 n e.vec t cmp tdc (lookAt n t s)

/-- The earliest edge of a channel unit fires. -/
def fireEdge (n : Nat) (s : State) : State :=
  match firstEdge n s (chan n s).sched with
  | none => s
  | some e =>
    let t := (ballTime n e s).toNat
    let s := expireWindows n t (toTime t s)
    let s := modChan n (fun c => { c with sched := c.sched.erase e, fired := if e.gen < 8 then Tab.set e.gen e.t c.fired else c.fired }) s
    let s := applyEdge n t e s
    if n < 256 then settleGroup (n / 16) s else s

/-- A scheduled edge reaches its time and is applied (R25). -/
def execEdgeFire (ch : Fin 264) (s : State) : Host.Outcome State Fault Refusal := .next (fireEdge ch s)

/-- The dead time after a warm-up segment expires (R20). -/
def execDeadTimeEnd (g : Fin 16) (s : State) : Host.Outcome State Fault Refusal :=
  .next (
    let l := leader g s
    match (seq l s).dead with
    | some t => modSeq l (fun q => { q with dead := none }) (toTime t s)
    | none => s)

/-! ### Comparators (R50, R54, R60) -/

/-- How far back a strobe may look at the comparators' transitions: twice the reach of compare deskew (R44). -/
def lookBack : Nat := 16 * tref

/-- A comparator input of a channel takes a level at an instant, which is not before what the channel's strobes and
earlier transitions have looked at (log 6). -/
def setInput (n : Nat) (cl level : Bool) (t : Nat) (s : State) : State :=
  let c := chan n s
  let old := if cl then c.cmpL else c.cmpH
  let t := max t c.seen
  if old = level then s
  else
    let x : Transition := ⟨t, cl, level⟩
    let s := modChan n (fun c => { c with
      cmpL := if cl then level else c.cmpL, cmpH := if cl then c.cmpH else level, seen := t
      past := x :: c.past.filter (fun y => t ≤ y.t + lookBack) }) (toTime t s)
    settleGroup (n / 16) (seeTransition n x s)

/-- A transition on a comparator input (R60). -/
def execComparatorTransition (n : Fin 256) (cl level : Bool) (t : Nat) (s : State) :
    Host.Outcome State Fault Refusal := .next (setInput n cl level t s)

/-! ### Ring and spill (R66–R70, R74) -/

/-- The ring writer takes staged entries, up to 4 in one SEQCLK cycle (R66). -/
def execCaptureRingWrite (g : Fin 16) (s : State) : Host.Outcome State Fault Refusal :=
  .next (
    let old := rd (K.capFill g) s
    let s := takeEntry g (takeEntry g (takeEntry g (takeEntry g s)))
    let new := rd (K.capFill g) s
    -- one crossing of CAP_LEVEL posts once (R71)
    setFill g new (wr (K.capFill g) old s))

/-- Entries that the next drain burst moves: to the next 64-byte boundary of the region, and no more than the
source holds or the region has room for (R70). -/
def drainCount (size wrOff held n : Nat) : Nat := min (4 - wrOff % 64 / 16) (min n ((size - held) / 16))

/-- The entries of a drain burst that has been written leave the ring (R70). -/
def retireCapture (g : Nat) (s : State) : State :=
  match (grp g s).spillCap with
  | some n => if (grp g s).capDone then
      releaseEntries g n (modGrp g (fun x => { x with spillCap := none, capDone := false }) s) else s
  | none => s

/-- The records of a drain burst that has been written leave the FIFO (R70, R74). -/
def retireFail (g : Nat) (s : State) : State :=
  match (grp g s).spillFail with
  | some n => if (grp g s).failDone then
      popRecords g n (modGrp g (fun x => { x with spillFail := none, failDone := false }) s) else s
  | none => s

/-- The drain of a capture ring requests its next burst (R70); a region that reaches past mapped DRAM takes
nothing (R188). -/
def drainCapture (g : Nat) (s : State) : State :=
  let size := rd (K.capSpillSize g) s
  let off := rd (K.capSpillWr g) s
  let a := rd (K.capSpillBase g) s + off
  let n := drainCount size off (grp g s).capHeld (rd (K.capFill g) s)
  if rd (K.capMode g) s ≠ 2 ∨ size = 0 ∨ (grp g s).spillCap.isSome ∨ n = 0 ∨ rd K.dramReady s = 0 ∨ ¬ mapped a (16 * n) s ∨
      fenced g s then s
  else
    let s := modGrp g (fun x => { x with spillCap := some n }) s
    queueReqs [mkReq 1 a true (.capSpill g) s] s

/-- The drain of a fail FIFO requests its next burst (R70, R74). -/
def drainFail (g : Nat) (s : State) : State :=
  let size := rd (K.failSpillSize g) s
  let off := rd (K.failSpillWr g) s
  let a := rd (K.failSpillBase g) s + off
  let n := drainCount size off (grp g s).failHeld (grp g s).fifo.length
  if size = 0 ∨ (grp g s).spillFail.isSome ∨ n = 0 ∨ rd K.dramReady s = 0 ∨ ¬ mapped a (16 * n) s ∨
      fenced g s then s
  else
    let s := modGrp g (fun x => { x with spillFail := some n }) s
    queueReqs [mkReq 1 a true (.failSpill g) s] s

/-- The DP1 drain of a capture ring (R70): entries already written leave the ring, and the next burst is
requested. -/
def execCaptureSpillDrain (g : Fin 16) (s : State) : Host.Outcome State Fault Refusal := .next (drainCapture g (retireCapture g s))

/-- The DP1 drain of a fail FIFO (R74), as that of a ring. -/
def execFailSpillDrain (g : Fin 16) (s : State) : Host.Outcome State Fault Refusal := .next (drainFail g (retireFail g s))

end Sys2Proof.Machine
end

