-- ==== Sys2Proof/Machine/RunControl.lean ====
section
/-! DEFINITION. Run control: commands, arming, starts, halts, pauses, triggers and jump requests (06). -/
namespace Sys2Proof.Machine

/-! ### Crossing into SEQCLK (R10) -/

/-- The SEQCLK edge at which a host command reaches a sequencer: between 3 and 5 cycles on (R10), of which there are
three for a command that leaves on an edge and two otherwise; which of these is a free value. -/
def crossing (s : State) : Nat × State :=
  let r := drawBelow (if s.now % seqclk = 0 then 3 else 2) s
  (nextSeqclk (s.now + 3 * seqclk) + r.1 * seqclk, r.2)

/-! ### Outputs of a group (R15, R138) -/

/-- The channels of a group take the levels of READY entered from OFF: DEN disabled, DRV at CH_TERM_SEL
(R138); in OFF and FENCED these are the levels of the safe state (R350). -/
def safeOutputs (g t : Nat) (s : State) : State :=
  forEach (List.range 16) (fun k s => enterSafe (16 * g + k) t s) s

/-- Whether DRV of a channel is defined as its CH_TERM_SEL level (R138). -/
def termLevel (n : Nat) (s : State) : Bool :=
  let g := n / 16
  let r := runState g s
  r = 0 || r = 6 || (r = 1 && (grp g s).fromOff) || (mode g s = 2 && n % 2 = 1)

/-! ### Leaving a run (R97, R162, R446) -/

/-- What a run holds on the play and IU side is dropped, its registers kept. -/
def clearRun (l : Nat) (s : State) : State :=
  let s := keepBlocks l s
  modSeq l (fun q => { first := q.first, tsNeed := q.tsNeed, page := q.page
                       segPage := q.segPage, played := q.played, origin := q.origin
                       anyFail := q.anyFail, failSites := q.failSites }) s

/-- A gang that is not in a run releases what it fetched for one (R162). -/
def releaseRun (l : Nat) (s : State) : State :=
  forEach (members l s) (fun g s => applyBase g (dropContent g false s)) (clearRun l s)

/-! ### Commands (R137, R139, R140) -/

/-- Whether a gang's leader takes a command: addressed to the leader, no arming in progress (R139, R140). -/
def takesCommand (g : Nat) (s : State) : Bool := leader g s = g

/-- ENABLE (R137, R138): OFF to READY at the SEQCLK edge at which it reaches the sequencer (R10, log 6), as DISABLE and
CLEAR. Refused while a boundary instruction acts (R440). -/
def runEnable (g : Nat) (s : State) : Ans :=
  need (runState g s = 0 && !s.jtag.acting) Code.state s
    (let c := crossing s
     let s := sourceEnds g (toTime c.1 c.2)
     done (setService g (setRunState g 1 (forEach (members g s) (fun m s => modGrp m (fun x => { x with fromOff := true }) s) s))))

/-- DISABLE (R137): READY or HALTED to OFF, the outputs to the safe state. READY is not left while TCLK is not locked
(R12, log 50). -/
def runDisable (g : Nat) (s : State) : Ans :=
  need ((runState g s = 1 && tclkLocked s) || runState g s = 5) Code.state s
    (let c := crossing s
     let s := toTime c.1 c.2
     let s := setRunState g 0 (releaseRun g s)
     done (setService g (forEach (members g s) (fun m s => safeOutputs m s.now (modGrp m (fun x => { x with fromOff := true }) s)) s)))

/-- The objects that arming clears (R78, R99, R135, R163, R184, R207) and the ring, slots and FIFO. -/
def clearForArm (g : Nat) (s : State) : State :=
  let s := forEach (members g s) (fun m s =>
    let s := dropSpill (.failSpill m) (restartRing m s)
    let s := modGrp m (fun x => { x with
      judges := [], stage := [], fifo := [], firstDone := 0, sealFail := 0, conflict := false, spillFail := none
      failDone := false, capHeld := 0, failHeld := 0, fifoHead := 0
      capMem := x.capMem.filter (fun e => 4160 ≤ e.1) }) s
    let s := wrs [(K.rfLeadMinNs m, 0), (K.failLost m, 0), (K.capLost m, 0), (K.capOverruns m, 0), (K.failSpillWr m, 0), (K.failSpillRd m, 0),
      (K.capSpillWr m, 0), (K.capSpillRd m, 0), (K.rfReplayPasses m, 0), (K.rfRestreamPasses m, 0)] s
    let s := forEach (List.range 16) (fun k s =>
      wrs [(K.chFails (16 * m + k), 0), (K.chWindowErrs (16 * m + k), 0)] s) s
    forEach (List.range 64) (fun x s =>
      let s := wr (K.siteFails x m) 0 s
      if siteInGroup x m s ∧ rd (K.siteEnable x) s = 1 then wr (K.siteState x) 1 s else s) s) s
  wrs [(K.segErr g, 0), (K.segErrAddr g, 0), (K.segErrGran g, 0), (K.segErrOff g, 0),
    (K.seqErr g, 0), (K.seqErrPc g, 0), (K.seqErrSeg g, 0), (K.seqGapCycles g, 0), (K.seqGaps g, 0), (K.seqHoldCycles g, 0),
    (K.seqMatchReps g, 0), (K.seqMatchPass g, 0), (K.seqHaltCode g, 0), (K.seqFlags g, 0), (K.seqPc g, 0),
    (K.runHaltReason g, 0), (K.runHaltVec g, 0), (K.runStartLate g, 0), (K.runUnderruns g, 0), (K.runPauseCycles g, 0),
    (K.runSegtrigCount g, 0), (K.jtPending g, 0xFF), (K.jtTaken g, 0), (K.jtReplaced g, 0), (K.jtDiscarded g, 0),
    (K.jtLast g, 0xFF), (K.mcTraps g, 0),
    (K.runArmFail g, 0)] s

/-- The fetches of arming: the heads of the pinned pages, then the head of the first segment (R141, R151). -/
def armFetch (g first : Nat) (s : State) : State :=
  let s := forEach (pinnedPages g s) (fun p s => if pageMapped p s then fetchHead g p 0 s else s) s
  if pageMapped first s then fetchHead g first 0 s else s

/-- The firings of timers detected before an arming begins whose placed edge is still to come (R144, R290). -/
def firingsToCome (s : State) : List (Nat × Nat) :=
  ((List.range 16).map (fun t => (t, rd (K.tmrLastTref t) s * tref))).filter (fun f => s.now ≤ f.2 && 0 < f.2)

/-- ARM reaches the sequencer (R10) and arming starts (R141). -/
def startArming (g first : Nat) (s : State) : State :=
  let s := wr (K.runArmBusy g) 1 (clearForArm g s)
  let s := setSeq g { first, page := first, segPage := first, entry := 1, armAt := s.now, iuAt := s.now, wait := .head first
                      fires := firingsToCome s
                      tsNeed := (seq g s).tsNeed } s
  armFetch g first (forEach (members g s) (fun m s => dropContent m false s) s)

/-- ARM (R137, R140, R141), which acts at the SEQCLK edge at which it reaches the sequencer (R10, log 6); refused
while the timing-set bank is locked (R176) and while a patch is being applied (R182). While the DRAM speed changes it
fails step 5 at once (R198). -/
def runArm (g first : Nat) (s : State) : Ans :=
  need (runState g s = 1) Code.state s <| need (rd (K.mcTsLock g) s = 0 && rd K.mcPatchStatus s ≠ 4) Code.state s
    (if rd K.dramSpeedStatus s = 2 then done (wrs [(K.runArmFail g, 5), (K.tsCheck g, 0)] (clearForArm g s)) else
     let c := crossing s
     done (startArming g first (toTime c.1 c.2)))

/-- START (R137, R142): the first cycle start at least 16 Tref after the command takes effect, plus
RUN_START_DELAY. -/
def startAfter (g t : Nat) (s : State) : State :=
  let s := modSeq g (fun q => { q with
    startAt := some (nextTref t + (16 + rd (K.runStartDelay g) s) * tref) }) s
  setRunState g 3 s

/-- START, which acts at the SEQCLK edge at which it reaches the sequencer (R10, log 6); ARMED is not left while TCLK is
not locked (R12, log 50). -/
def runStart (g : Nat) (s : State) : Ans :=
  need (runState g s = 2 && rd (K.runStartSrc g) s = 0 && tclkLocked s) Code.state s
    (let c := crossing s
     done (startAfter g c.1 (toTime c.1 c.2)))

/-- DISARM (R137), which acts at the SEQCLK edge at which it reaches the sequencer (R10, log 6). -/
def runDisarm (g : Nat) (s : State) : Ans :=
  need (runState g s = 2 && tclkLocked s) Code.state s
    (let c := crossing s
     done (setService g (setRunState g 1 (sourceEnds g (releaseRun g (discardRequest g (toTime c.1 c.2)))))))

/-- PAUSE (R137, R160): takes effect at a granule boundary at least 16 SEQCLK cycles after it reaches the
sequencer. A second one leaves the instant of the first. Refused once play has ended (R446). -/
def runPause (g : Nat) (s : State) : Ans :=
  need (runState g s = 3 && (seq g s).stopped.isNone) Code.state s
    (let c := crossing s
     done (modSeq g (fun q => { q with pauseAt := q.pauseAt.or (some (c.1 + 16 * seqclk)) }) c.2))

/-- RESUME (R137, R159, R160): after a host pause. -/
def runResume (g : Nat) (s : State) : Ans :=
  need (runState g s = 4 && (seq g s).pauseWhy = 1 && (seq g s).stopped.isNone) Code.state s
    (let c := crossing s
     done (modSeq g (fun q => { q with resumeAt := q.resumeAt.or (some (c.1 + 8 * seqclk)) }) c.2))

/-- HALT (R137, R162): in ARMED at the edge at which it reaches the sequencer, otherwise at the first cycle
start after. -/
def runHalt (g : Nat) (s : State) : Ans :=
  need (busyState (runState g s)) Code.state s
    (let c := crossing s
     done (modSeq g (fun q => { q with haltAt := q.haltAt.or (some c.1) }) c.2))

/-- CLEAR (R137): HALTED to READY, the levels held (R138). -/
def runClear (g : Nat) (s : State) : Ans :=
  need (runState g s = 5) Code.state s
    (let c := crossing s
     let s := sourceEnds g (toTime c.1 c.2)
     done (setService g (setRunState g 1
      (forEach (members g s) (fun m s => modGrp m (fun x => { x with fromOff := false }) s) s))))

/-- A write of RUN_CMD (R137, R139, R140). -/
def runCommand (g v first : Nat) (s : State) : Ans :=
  need (1 ≤ v && v ≤ 9) Code.range s <| need (takesCommand g s) Code.refused s <|
  need (rd (K.runArmBusy g) s = 0) Code.state s <|
  match v with
  | 1 => runEnable g s
  | 2 => runDisable g s
  | 3 => runArm g first s
  | 4 => runStart g s
  | 5 => runDisarm g s
  | 6 => runPause g s
  | 7 => runResume g s
  | 8 => runHalt g s
  | _ => runClear g s

/-- RUN_GROUP_START (R143): all named groups or none; one crossing for all. -/
def groupStart (mask : Nat) (s : State) : Ans :=
  let gs := bitsOf mask 16
  need (gs.all (fun g => takesCommand g s && runState g s = 2 && rd (K.runStartSrc g) s = 0 && rd (K.runArmBusy g) s = 0) &&
    tclkLocked s) Code.state s
    (let c := crossing s
     done (forEach gs (fun g s => startAfter g c.1 s) (toTime c.1 c.2)))

/-- A host's jump request, which becomes pending at the SEQCLK edge at which it reaches the sequencer (R10, R152). -/
def hostJump (k e : Nat) (s : State) : Ans :=
  need (e < 16) Code.range s <|
  need (busyState (runState k s) && rd (K.jtEnable k) s = 1 || leader k s != k) Code.state s <|
  need (leader k s = k && jumpAccepted k e s) Code.refused s
    (let c := crossing s
     done (sendJump k e c.1 .host c.2))

/-! ### Arming (R141, R151) -/

/-- Whether the queue counts as filled (R97, R100, R178). -/
def queueFilled (l : Nat) (s : State) : Bool :=
  let q := seq l s
  q.ending.isSome || 16 ≤ q.queue.length ||
  (match q.wait with
    | .none => (match (codeAt l (pcOf l s) s).map (· / 2 ^ 56) with
      | some op => op = 0xE || op = 0 || 0x11 < op
      | none => false)
    | .head _ => false
    | _ => true)

/-- Whether a member still fetches anything for a pinned page. -/
def pinComing (l p : Nat) (s : State) : Bool :=
  headComing l p s || (members l s).any (fun g => fetching g (.pinned p) s)

/-- The failure of a pinned image that arming reports (R96): code 7 for a page that is not mapped; and, where CG_MODE has
changed since a header was checked, code 3 for its other mode (R14). -/
def pinFailed (l : Nat) (s : State) : Option FmtErr :=
  match (pinnedPages l s).find? (fun p => !pageMapped p s) with
  | some p => some ⟨7, 0, 48, 0xFFFFFFFF, p⟩
  | none => (seq l s).pinErr.or ((((pinnedPages l s).filterMap (fun p => headOf l (keyOf l p s) s)).find? (fun h => h.mode != mode l s)).map
      (fun h => ⟨3, 0, 5, 0xFFFFFFFF, h.page⟩))

/-- Step 4 of R141: none while it goes on, otherwise whether it passes (R151). -/
def pinStep (l : Nat) (s : State) : Option Bool :=
  let q := seq l s
  let ps := pinnedPages l s
  if (pinFailed l s).isSome ∨ q.pinBad then some false
  else if ps.any (fun p => pinComing l p s) then none
  else some (ps.all (fun p => pinHeld l p s))

/-- The failure of the first segment's image that arming reports (R96): that of its head; a first page that is not
mapped, as code 7; and, where CG_MODE has changed since its header was checked, another mode, as code 3 (R14). -/
def firstFailed (l : Nat) (s : State) : Option FmtErr :=
  let q := seq l s
  if ¬ pageMapped q.first s then some ⟨7, 0, 48, 0xFFFFFFFF, q.first⟩
  else if q.firstErr.isSome then q.firstErr
  else (headOf l (keyOf l q.first s) s).bind (fun h => if h.mode = mode l s then none else some ⟨3, 0, 5, 0xFFFFFFFF, q.first⟩)

/-- Step 5 of R141: the first segment's head (R96). -/
def firstStep (l : Nat) (s : State) : Option Bool :=
  let q := seq l s
  if (firstFailed l s).isSome then some false
  else if headComing l q.first s then none
  else some (headOf l (keyOf l q.first s) s).isSome

/-- Step 8 of R141: the named timer has a firing to come (R291), or the ring is trained. -/
def sourceUsable (l : Nat) (s : State) : Bool :=
  let v := rd (K.runStartSrc l) s
  if 0x20 ≤ v ∧ v ≤ 0x2F then tmrMode (v - 0x20) s != 0 && timerWaiting (v - 0x20) s
  else if v = 0x30 then rd K.rlyState s = 2
  else true


/-- What arming comes to: none while it goes on, 0 when every step passes, otherwise the failed step. -/
def armVerdict (l : Nat) (s : State) : Option Nat :=
  if !tclkLocked s then some 1
  else if !(members l s).all (fun g => runState g s = 1 && leader g s = l) then some 2
  else if tsCheck l s ≠ 0 then some 3
  else match pinStep l s with
    | none => none
    | some false => some 4
    | some true => match firstStep l s with
      | none => none
      | some false => some 5
      | some true =>
        if (seq l s).ending = some .seqErr then some 6
        else if !queueFilled l s then none
        else if !leadReached l (rd (K.rfUrgentNs l) s) s ∧ (members l s).all (fun g => (grp g s).blockErrs.isEmpty) then
          (if (members l s).any (fun g => !(grp g s).fetches.isEmpty) then none else some 7)
        else if (members l s).any (fun g => (blockErrOf g (keyOf l (seq l s).first s) s).isSome) then some 5
        else if !sourceUsable l s then some 8 else some 0

/-- Arming is refused (R141): READY with the cause; the content fetched for the run is discarded. Where a check
of R96 failed, SEG_ERR holds it. -/
def refuseArm (l c : Nat) (s : State) : State :=
  let q := seq l s
  let s := wrs [(K.runArmBusy l, 0), (K.runArmFail l, c), (K.tsCheck l, if c = 3 then tsCheck l s else 0)] s
  let err := if c = 4 then pinFailed l s else if c = 5 then
      (firstFailed l s).or (gangBlockErr l (keyOf l q.first s) s) else none
  let s := match err with | some e => recordFmt l false e s | none => s
  setService l (releaseRun l (discardRequest l s))

/-- The placed edges of the armed timer's firings that arming has seen (R144). -/
def seenFirings (l : Nat) (s : State) : List Nat :=
  ((seq l s).fires.filter (fun f => 0x20 + f.1 == rd (K.runStartSrc l) s)).map (·.2)

/-- The armed timer starts the group on a firing detected while it armed whose edge is still to come; one whose edge
lies before the end of arming is missed (R144). -/
def armTimer (l : Nat) (s : State) : State :=
  let s' := if (seenFirings l s).any (· < s.now) then wr (K.runStartLate l) 1 s else s
  match (seenFirings l s).filter (s.now ≤ ·) with
  | [] => s'
  | e :: t => setRunState l 3 (modSeq l (fun q => { q with
      startAt := some (t.foldl min e + rd (K.runStartDelay l) s * tref) }) s')

/-- An activation that has not fired the group's start yet fires it on entering ARMED (R146, R161): one in progress on
a level input, and one that began in the same SEQCLK cycle. -/
def armTrigger (l : Nat) (s : State) : State :=
  let v := rd (K.runStartSrc l) s
  let i := v - 0x10
  let x := trig i s
  let now := 0 < x.since && x.since / seqclk == s.now / seqclk
  if 0x10 ≤ v ∧ v ≤ 0x17 ∧ ((rd (K.trigType i) s = 1 ∧ x.active) ∨ now) ∧ ¬ x.firedBy.contains l then
    let s := modTrig i (fun x => { x with firedBy := l :: x.firedBy }) s
    let t := if rd (K.trigType i) s = 1 then max (nextTref s.now) x.since else x.since
    setRunState l 3 (modSeq l (fun q => { q with startAt := some (t + (40 + rd (K.runStartDelay l) s) * tref) }) s)
  else s

/-- Arming passes: the start source and the jump map are armed and the group enters ARMED (R141, R146, R174). A jump
request that has reached the sequencer by then finds it in READY (R152). -/
def enterArmed (l : Nat) (s : State) : State :=
  let s := wrs [(K.runArmBusy l, 0), (K.runArmFail l, 0), (K.tsCheck l, 0), (K.mcAbandon l, 0), (K.mcAbandonTotal l, 0)] s
  armTrigger l (armTimer l (armMaps l s.now (setRunState l 2 (landJumps l s.now s))))

/-- Arming finishes (R141). -/
def execArmComplete (g : Fin 16) (s : State) : Host.Outcome State Fault Refusal :=
  .next (
    if rd (K.runArmBusy g) s = 0 ∨ fenced g s then s
    else match armVerdict g s with
      | none => s
      | some 0 => enterArmed g s
      | some c => refuseArm g c s)

/-! ### The first cycle (R142, R38, R144) -/

/-- The period of hold cycles that come before the run's first vector (R101): in Distance that of the base period in
force, since no vector has played (DESIGN CHOICE, log 57). -/
def firstPeriod (l : Nat) (s : State) : Nat :=
  match mode l s with
  | 0 => rd (K.cgBasePeriodAct l) s
  | 1 => 512
  | _ => 256

/-- The run's first cycle starts: origin, start time, and the phase of the chain; what is aligned to the run
starts with it (R46, R318, R323). -/
def beginRun (l t : Nat) (s : State) : State :=
  let s := toTime t s
  let s := modSeq l (fun q => { q with
    startAt := none, live := true, nextAt := t, origin := t, iuAt := max q.iuAt q.freedAt, period := firstPeriod l s }) s
  let s := wr (K.runStartTime l) (actAt t s) s
  let s := alignSys l t s
  let tx := rd K.jtxGroup s
  let s := if tx < 16 ∧ leader tx s = l ∧ rd K.jtxPlay s = 1 then
      { s with jtx := { s.jtx with startAt := some (t + rd K.jtxStartDelay s * tref) } } else s
  let rx := rd K.jrxGroup s
  if rx < 16 ∧ leader rx s = l ∧ rd K.jrxEn s = 1 ∧ ¬ s.jrx.capturing then
    wr K.jrxWr 0 { s with jrx := { s.jrx with capturing := true, fresh := true, recorded := 0, part := [], base := lemcAfter K.jrxParams s.jrx.lemc (t + 1) s } }
  else s

/-- The run's first cycle starts after the start latency and RUN_START_DELAY (R142). -/
def execFirstCycleStart (g : Fin 16) (s : State) : Host.Outcome State Fault Refusal :=
  .next (match (seq g s).startAt with
    | some t => if runState g s = 3 ∧ leader g s = g ∧ tclkLocked s ∧ (seq g s).haltAt.all (fun h => t < h) then beginRun g t s
        else s
    | none => s)

/-! ### Halts and pauses (R160–R162) -/

/-- A host HALT finds no cycle of the run to wait for (R162): in ARMED it acts at the edge at which it reached the
sequencer, between a start event and the first cycle start at that cycle start. -/
def haltArmed (l t : Nat) (s : State) : State :=
  wrs [(K.runHaltReason l, 2), (K.runHaltVec l, 0)]
    (setRunState l 5 (sourceEnds l (releaseRun l (discardRequest l (toTime t s)))))

/-- A host HALT takes effect (R162). Once play has stopped it changes only how RUN_STATE ends (R446). -/
def haltNow (l : Nat) (s : State) : State :=
  let q := seq l s
  match q.haltAt with
  | none => s
  | some a =>
    if runState l s = 2 then haltArmed l a s
    else if ¬ q.live then
      (match q.startAt with | some t => if a ≤ t then haltArmed l t s else s | none => s)
    else if q.stopped.isNone ∧ a ≤ q.nextAt ∧ q.dead.isNone then
      stopPlay l q.nextAt .hostHalt (countPause l q.nextAt (toTime q.nextAt s))
    else s

/-- A host HALT takes effect (R162). -/
def execHaltTakesEffect (g : Fin 16) (s : State) : Host.Outcome State Fault Refusal :=
  .next (if leader g s = g ∧ busyState (runState g s) ∧ tclkLocked s then haltNow g s else s)

/-- A host PAUSE takes effect at a granule boundary (R160). An underrun at the same boundary comes first
(R161). -/
def execPauseTakesEffect (g : Fin 16) (s : State) : Host.Outcome State Fault Refusal :=
  .next (
    let q := seq g s
    if !(leader g s = g && q.live && pauseDue g s && !haltDue q) then s
    else if runsShort g s then modSeq g (fun q => { q with pauseAt := none }) s
    else
      setRunState g 4 (modSeq g (fun q => { q with
        pauseAt := none, pauseWhy := 1, pauseFrom := q.nextAt, resumeAt := none }) s))

/-- The lead is restored, the granule that was missing among it, and a group paused on an underrun resumes at the
next cycle start (R159, R206). After a wait for a head, that granule is of the first range that the IU issues. -/
def execUnderrunResume (g : Fin 16) (s : State) : Host.Outcome State Fault Refusal :=
  .next (
    let q := seq g s
    if leader g s = g ∧ runState g s = 4 ∧ q.pauseWhy = 2 ∧ q.resumeAt.isNone ∧ q.stopped.isNone ∧ (¬ runsShort g s ∨ fmtAhead g s) ∧
        (q.cur.isSome ∨ ¬ q.queue.isEmpty ∨ q.ending.isSome) ∧
        leadReached g (rd (K.rfLeadResumeNs g) s) s then
      modSeq g (fun q => { q with resumeAt := some s.now }) s
    else s)

/-- RUN_STATE changes at the delayed instant after play ends (R446). A HALT given by then makes it HALTED with reason 2,
also where it has not reached the sequencer yet: R446 asks when it was given. -/
def execEndOfRun (g : Fin 16) (s : State) : Host.Outcome State Fault Refusal :=
  .next (
    let q := seq g s
    match q.stopped with
    | some k =>
      if leader g s = g ∧ (q.played = 0 ∨ q.verdictAt.isSome) ∧ q.dead.isNone ∧ (k ≠ .stop ∨ q.load.isNone) ∧
          q.blks.all (fun b => !b.isMatch || b.decided) ∧ (members g s).all (fun m => (grp m s).judges.isEmpty) then
        let s := toTime (q.verdictAt.getD 0) s
        let k := if q.haltAt.isSome then .hostHalt else k
        finishRun g k s
      else s
    | none => s)

/-! ### Trigger inputs (R145–R148) -/


/-- The leaders of gangs. -/
def leaders (s : State) : List Nat := (List.range 16).filter (fun g => leader g s == g)

/-- The start of a group fires on an input at its firing instant (R142, R146). -/
def fireStart (i l t : Nat) (s : State) : State :=
  if rd (K.runStartSrc l) s = 0x10 + i ∧ startable l t s then
    let s := modTrig i (fun x => { x with firedBy := l :: x.firedBy }) s
    setRunState l 3 (modSeq l (fun q => { q with startAt := some (t + (40 + rd (K.runStartDelay l) s) * tref) }) s)
  else s

/-- The consumers of an input that fire at an instant (R146). -/
def fireConsumers (i t : Nat) (s : State) : State :=
  forEach (leaders s) (fun l s =>
    let s := fireStart i l t s
    let s := if waitArmed l i s ∧ ¬ (trig i s).firedBy.contains (32 + l) then
        waitEvent l i (reachesSeq t) (modTrig i (fun x => { x with firedBy := (32 + l) :: x.firedBy }) s) else s
    let s := landJumps l t s
    if mapArmed l i s ∧ ¬ (trig i s).firedBy.contains (16 + l) then
      sendJump l (trigMap l i s) (reachesSeq t) (.trigger i) (modTrig i (fun x => { x with firedBy := (16 + l) :: x.firedBy }) s)
    else s) s

/-- 8 ns in Tref/1024, rounded up: the least inactive time between activations (R145). -/
def trigQuiet : Nat := 13108

/-- A trigger input becomes active at a Tref edge (R145): a new activation, or the activation before it where less
than 8 ns have passed. -/
def execTriginActivation (i : Fin 8) (edge : Nat) (s : State) : Host.Outcome State Fault Refusal :=
  .next (
    let t := max (edge * tref) (nextTref s.now)
    let x := trig i s
    if x.active then s
    else
      let s := wr (K.trigLevel i) 1 (toTime t s)
      let merged := match x.ended with | some e => decide (t < e + trigQuiet) | none => false
      if merged then
        -- the activation goes on, and with it the condition of one that has lasted too long (R147)
        let s := bump16 (K.trigOverruns i) (modTrig i (fun x => { x with active := true }) s)
        if x.stuck then wr (K.trigStuck i) 1 { s with flt := { s.flt with active := (32 + i.val) :: s.flt.active } } else s
      else
        let s := modTrig i (fun x => { x with active := true, since := t, firedBy := [], stuck := false }) s
        fireConsumers i t (bump (K.trigFires i) s))

/-- A trigger input becomes inactive (R145, R147). -/
def execTriginDeactivation (i : Fin 8) (edge : Nat) (s : State) : Host.Outcome State Fault Refusal :=
  .next (
    let t := max (edge * tref) s.now
    if (trig i s).active then
      wrs [(K.trigLevel i, 0), (K.trigStuck i, 0)] (endFault (32 + i) <| modTrig i (fun x => { x with active := false, ended := some t }) (toTime t s))
    else s)

/-- An activation outlasts TRIG_STUCK_US (R147). -/
def execTrigStuck (i : Fin 8) (edge : Nat) (s : State) : Host.Outcome State Fault Refusal :=
  .next (
    let t := max (edge * tref) s.now
    let x := trig i s
    let us := rd (K.trigStuckUs i) s
    if x.active ∧ ¬ x.stuck ∧ 0 < us ∧ x.since + us * 1600 * tref < t then
      raiseFault (32 + i) (wr (K.trigStuck i) 1 (modTrig i (fun x => { x with stuck := true }) (toTime t s)))
    else s)

/-- A pulse of a trigger output ends (R149). -/
def execToutPulseEnd (j : Fin 8) (s : State) : Host.Outcome State Fault Refusal :=
  .next (match (tout j s).pulses with
    | p :: rest => modTout j (fun o => { o with pulses := rest }) (toTime p.2 s)
    | [] => s)

end Sys2Proof.Machine
end

