-- ==== Sys2Proof/Machine/Starter.lean ====
section
/-! DEFINITION. The Starter: tasks, dispatch, pre-emption, ends of runs, ticks and control-core services
(11_starter_and_result_queues.md). Engines are numbered as in R263: 0–15 PE0–PE15, 16–19 CC0–CC3. -/
namespace Sys2Proof.Machine

/-- A named task: 0xFFFF names none (R260). -/
def noTask : Nat := 0xFFFF

/-- The task that an engine runs, 0xFFFF none. -/
def taskOf (e : Nat) (s : State) : Nat := rd (K.engTask e) s

/-- PE_STATE of an engine (R236): 0 STOPPED, 1 IDLE, 2 BUSY, 3 ERROR, 4 FENCED. -/
def peState (e : Nat) (s : State) : Nat := rd (K.peState e) s

/-- Whether an engine is eligible for dispatch (R263). -/
def eligible (e : Nat) (s : State) : Bool :=
  if e < 16 then peState e s = 1 && !fatal s else taskOf e s = noTask

/-- An engine becomes eligible at a SYSCLK cycle. -/
def nowEligible (e cycle : Nat) (s : State) : State :=
  { s with starter := { s.starter with elig := Tab.set e (max cycle s.time.sys) s.starter.elig } }

/-! ### The ready lists (R264) -/

/-- A task before another in the ready lists: by priority, then by the order of entry. -/
def readyBefore (a b : Nat × Tcb) : Bool :=
  a.2.pri < b.2.pri || (a.2.pri == b.2.pri && a.2.order ≤ b.2.order)

/-- A task inserted into a list in ready order. -/
def insertReady (a : Nat × Tcb) : List (Nat × Tcb) → List (Nat × Tcb)
  | [] => [a]
  | b :: t => if readyBefore a b then a :: b :: t else b :: insertReady a t

/-- The READY tasks in order. -/
def readyTasks (s : State) : List (Nat × Tcb) := (s.tcbs.filter (fun x => x.2.state == 1)).foldr insertReady []

/-- READY tasks assigned in order, each to the lowest-numbered eligible engine of its mask that is still
free (R264). -/
def assign (s : State) : List (Nat × Tcb) → List Nat → List (Nat × Nat)
  | [], _ => []
  | x :: t, free =>
    match free.find? (fun e => bitAt x.2.mask e) with
    | some e => (e, x.1) :: assign s t (free.filter (· != e))
    | none => assign s t free

/-- The SYSCLK cycle since which an engine is eligible. -/
def eligSince (e : Nat) (s : State) : Nat := Tab.get 0 e s.starter.elig

/-- The first cycle at which a task of a list and an engine that suits it are both there. -/
def nextDecision (ts : List (Nat × Tcb)) (free : List Nat) (s : State) : Option Nat :=
  let at_ := ts.flatMap (fun x => (free.filter (fun e => bitAt x.2.mask e)).map (fun e => max x.2.since (eligSince e s)))
  at_.foldl (fun a t => some (match a with | some b => min b t | none => t)) none

/-- The decisions that are due, each made at the cycle of its event by what was there then (R264): the engine, the task
and the cycle. Each round takes an engine, so that 20 rounds are enough. -/
def decisions : Nat → List (Nat × Tcb) → List Nat → State → List (Nat × Nat × Nat)
  | 0, _, _, _ => []
  | n + 1, ts, free, s =>
    match nextDecision ts free s with
    | none => []
    | some t =>
      let made := assign s (ts.filter (fun x => x.2.since ≤ t)) (free.filter (fun e => eligSince e s ≤ t))
      made.map (fun p => (p.1, p.2, t)) ++
        decisions n (ts.filter (fun x => !made.any (fun p => p.2 == x.1))) (free.filter (fun e => !made.any (fun p => p.1 == e))) s

/-- The task that the Starter delivers to an engine, if any, and the cycle of the event that made its decision due
(R264). -/
def dispatchee (e : Nat) (s : State) : Option (Nat × Nat) :=
  ((decisions 20 (readyTasks s) ((List.range 20).filter (fun e => eligible e s)) s).find? (fun p => p.1 == e)).map (·.2)

/-- The TASKID value of a request for a task (R264). -/
def taskWord (t : Nat) (s : State) : BitVec 16 := BitVec.ofNat 16 (t + if (tcb t s).res then 0x8000 else 0)

/-- Pre-emption requests that name a task are withdrawn (R265). -/
def withdrawTask (t : Nat) (s : State) : State :=
  forEach (List.range 16) (fun e s =>
    if rd (K.engPreemptPending e) s = t then
      wr (K.engPreemptPending e) noTask (modPe e (fun p => { p with req := false }) s)
    else s) s

/-! ### Ends of runs (R266) -/

/-- The state of a task after the end of a run: a task disabled during the run stops (R270). -/
def stateAfter (kind : Nat) (c : Tcb) : Nat :=
  if c.stopReq ∨ kind = 2 then 4 else if kind = 1 then 1 else 0

/-- A run of a task ends at a SYSCLK cycle (R266): KIND and CODE recorded, the state afterwards, and the posts that
follow. A task that F041 stopped during the run stays STOPPED (R345). -/
def endTask (e kind code cycle : Nat) (s : State) : State :=
  let t := taskOf e s
  let s := wr (K.engTask e) noTask s
  if t ≥ 4096 then s
  else
    let c := tcb t s
    let s := modTcb t (fun c => { c with
      last := kind * 256 + code, runs := min (2 ^ 32 - 1) (c.runs + 1)
      state := if c.state = 2 then stateAfter kind c else c.state
      res := kind = 1, rpt := if kind = 1 then c.rpt else false, stopReq := false }) s
    if kind = 1 then
      let s := bump K.stYields s
      if c.stopReq ∨ c.state ≠ 2 then s else enterReady t cycle true s
    else if kind = 0 then
      let s := if c.next < 4096 then postWith false c.next cycle s else s
      if c.rpt then postWith false t cycle s else s
    else s

/-! ### Dispatch (R233, R264) -/

/-- SR fields. -/
def srBit (i : Nat) (v : Bool) (sr : Word) : Word := BitVec.ofNat 32 (putBit sr.toNat i v)

/-- Interrupt acceptance at the boundary before the instruction at PC (R233), with every write of the
instructions already issued applied: the saved PC and SR, IE and LLVL cleared, and the entry at IVEC, which
issues at a cycle. A loop body not yet captured is not cached (R232). -/
def enterHandler (cause cycle : Nat) (p : Pe) : Pe :=
  { p with
    ipc := p.pc, isr := p.sr, icause := BitVec.ofNat 8 cause
    sr := p.sr &&& 0xFFFE3FFF#32
    pc := p.ivec, cycl := p.cycl + (cycle - p.issue), issue := cycle, stalled := false, resume := false
    cacheAt := if p.cached then p.cacheAt else none }

/-- A dispatch decided at a cycle is delivered to an engine (R264): waiting time, counters, the argument as it stands, and
for a Pacer engine its entry at IVEC 4 cycles after the request arrives. -/
def deliver (e t decided : Nat) (s : State) : State :=
  let c := tcb t s
  let at_ := decided + 16
  let wait := at_ - c.since
  let word := taskWord t s
  let s := withdrawTask t s
  let s := modTcb t (fun c => { c with
    state := 2, engine := e, argRun := c.arg, waitLast := min (2 ^ 32 - 1) wait, waitMax := min (2 ^ 32 - 1) (max c.waitMax wait) }) s
  let s := wr (K.engTask e) t (bump (K.engDispatches e) (incWrap 64 K.stDispatches 1 s))
  if e < 16 then
    wr (K.peState e) 2 (modPe e (fun p =>
      let p := enterHandler 1 (at_ + 4) p
      { p with taskid := word, targ := BitVec.ofNat 32 c.arg, lastReq := none, tended := none, window := p.window + 4 }) s)
  else { s with starter := { s.starter with elig := Tab.set e at_ s.starter.elig } }

/-! ### Pre-emption (R265) -/

/-- The priority of the task that an engine runs. -/
def runningPri (e : Nat) (s : State) : Nat := (tcb (taskOf e s) s).pri

/-- The SYSCLK cycle since which an engine has run its task: that of the dispatch's delivery. -/
def runSince (e : Nat) (s : State) : Nat := (tcb (taskOf e s) s).since + (tcb (taskOf e s) s).waitLast

/-- The engine that a waiting task pre-empts at a cycle: among the Pacer engines of its mask that are busy by then with a
task of numerically greater priority, that of the greatest, the lowest-numbered at a tie. -/
def victim (c : Tcb) (at_ : Nat) (s : State) : Option Nat :=
  let busy := (List.range 16).filter (fun e =>
    bitAt c.mask e && peState e s = 2 && taskOf e s < 4096 && c.pri < runningPri e s && runSince e s ≤ at_)
  let worst := (busy.map (fun e => runningPri e s)).foldl max 0
  busy.find? (fun e => runningPri e s == worst)

/-- The READY task of a cycle, first in order, that has no eligible engine then and asks for engine e; after a request of
the same run only one of strictly higher priority. -/
def preemptorAt (e at_ : Nat) (s : State) : Option (Nat × Tcb) :=
  (readyTasks s).find? (fun x =>
    decide (x.2.since ≤ at_) && !((List.range 20).any (fun f => bitAt x.2.mask f && eligible f s && eligSince f s ≤ at_)) &&
    victim x.2 at_ s == some e &&
    (match (pe e s).lastReq with | some u => x.2.pri < (tcb u s).pri | none => true))

/-- The cycles of the events that may make a pre-emption request due: a task enters READY, or an engine takes a task. -/
def requestEvents (s : State) : List Nat :=
  (readyTasks s).map (fun x => x.2.since) ++ ((List.range 16).filter (fun e => peState e s = 2)).map (fun e => runSince e s)

/-- The task of the next pre-emption request of an engine: that of the first event at which one is due, judged by what was
there then, so that a later event makes a request of its own (R264, R265). -/
def preemptor (e : Nat) (s : State) : Option (Nat × Tcb) :=
  let due := (requestEvents s).filter (fun t => (preemptorAt e t s).isSome)
  match due.foldl (fun a t => some (match a with | some b => min b t | none => t)) none with
  | some t => preemptorAt e t s
  | none => none

/-- The Starter delivers a pre-emption request to a busy engine (R265). -/
def execPreemptionRequest (e : Fin 16) (s : State) : Host.Outcome State Fault Refusal :=
  .next (match preemptor e s with
    | some (t, c) =>
      let word := taskWord t s
      let arg := BitVec.ofNat 32 c.arg
      wr (K.engPreemptPending e) t (bump K.stPreemptReqs (modPe e (fun p => { p with
        req := true, lastReq := some t, taskid := word, targ := arg }) s))
    | none => s)

/-! ### Commands of the host (R261, R268, R270) -/

/-- CANCEL (R268): the schedule ends; a waiting task returns to DORMANT. -/
def cancelTask (t : Nat) (s : State) : State :=
  let c := tcb t s
  let s := if c.state = 1 then withdrawTask t s else s
  modTcb t (fun c => { c with
    sched := false, toGo := 0
    state := if c.state = 1 ∨ c.state = 3 then 0 else c.state
    rpt := if c.state = 2 then false else c.rpt }) s

/-- DISABLE (R270): to STOPPED; a RUNNING task finishes its run first. A delay that has run out on the latest tick is
ignored and counted (R278). -/
def disableTask (t : Nat) (s : State) : State :=
  let c := tcb t s
  let s := if c.state = 1 then withdrawTask t s else s
  modTcb t (fun c =>
    if c.state = 2 then { c with stopReq := true }
    else if c.state = 3 ∧ c.left = 0 then { c.absorb with state := 4 }
    else { c with state := 4 }) s

/-- ENABLE (R270): STOPPED to DORMANT. -/
def enableTask (t : Nat) (s : State) : State :=
  modTcb t (fun c => if c.state = 4 then { c with state := 0 } else c) s

/-- A write of TCB_CMD for a task (R270). -/
def tcbCommand (t v : Nat) (s : State) : Ans :=
  match v with
  | 1 => done (post t s)
  | 2 => done (cancelTask t s)
  | 3 => done (disableTask t s)
  | 4 => done (enableTask t s)
  | _ => refuse Code.range s

/-! ### Ticks (R268, R269) -/

/-- Whether a task's delay has run out. -/
def delayDue (c : Tcb) : Bool := c.state == 3 && c.left == 0

/-- Whether a task's period has run out. -/
def periodDue (c : Tcb) : Bool := c.sched && c.toGo == 0

/-- Whether an expiry waits for its step. -/
def anyExpiry (s : State) : Bool := s.tcbs.any (fun x => delayDue x.2 || periodDue x.2)

/-- One tick of a task's delay and period. -/
def countDown (c : Tcb) : Tcb :=
  { c with left := if c.state = 3 then c.left - 1 else c.left, toGo := if c.sched then c.toGo - 1 else c.toGo }

/-- A Starter tick of ST_TICK_NS passes once so many ns have (R268): running delays and periods count down, and
a new length of the tick takes effect. -/
def execStarterTick (s : State) : Host.Outcome State Fault Refusal :=
  .next (
    if s.starter.phase < s.starter.tickNs ∨ anyExpiry s then s
    else
      let s := { s with tcbs := s.tcbs.map (fun (x : Nat × Tcb) => (x.1, countDown x.2)) }
      { s with starter := { s.starter with phase := s.starter.phase - s.starter.tickNs, tickNs := rd K.stTickNs s } })

/-- The expiry that enters READY first on a tick: by priority and then by task number (R268). -/
def firstExpiry (s : State) : Option Nat :=
  let due := s.tcbs.filter (fun x => delayDue x.2 || periodDue x.2)
  let best := (due.map (fun x => x.2.pri)).foldl min 32
  (due.find? (fun x => x.2.pri == best)).map (·.1)

/-- A DELAYED task's delay expires (R268). -/
def execDelayExpiry (task : BitVec 12) (s : State) : Host.Outcome State Fault Refusal :=
  .next (
    let t := task.toNat
    if firstExpiry s = some t ∧ delayDue (tcb t s) then enterReady t s.time.sys false s else s)

/-- A task's period expires and acts as a post that bypasses TCB_DELAY (R268). Where TCB_PERIOD has been written to 0 the
schedule ends with this expiry (DESIGN CHOICE, log 62). -/
def execPeriodExpiry (task : BitVec 12) (s : State) : Host.Outcome State Fault Refusal :=
  .next (
    let t := task.toNat
    if firstExpiry s = some t ∧ periodDue (tcb t s) then
      postWith true t s.time.sys (modTcb t (fun c => { c with toGo := c.period, sched := c.period != 0 }) s)
    else s)

/-- What an engine's busy count lacks at the end of a load window (R269): the cycles up to it of a run in progress, which
has been counted up to a cycle, or less than nothing where cycles past it have been counted. -/
def windowLack (running : Bool) (ends upTo : Nat) : Int :=
  let d : Int := (ends : Int) - upTo
  if running then d else min 0 d

/-- ENG_LOAD of a window: 0 to 1,000,000. -/
def loadOf (v : Int) : Nat := min 1000000 v.toNat

/-- A load window of 1,000,000 SYSCLK cycles ends (R269). What a count lacks is taken from the next window. -/
def execEngLoadWindow (s : State) : Host.Outcome State Fault Refusal :=
  .next (
    let ends := s.starter.window + 1000000
    if s.time.sys < ends then s
    else
      let s := forEach (List.range 16) (fun e s =>
        let lack := windowLack (peState e s = 2) ends (pe e s).issue
        wr (K.engLoad e) (loadOf ((pe e s).window + lack)) (modPe e (fun p => { p with window := -lack }) s)) s
      let s := forEach (List.range 4) (fun k s =>
        let e := 16 + k
        let lack := windowLack (taskOf e s != noTask) ends (eligSince e s)
        let s := wr (K.engLoad e) (loadOf (Tab.get 0 e s.starter.busy + lack)) s
        { s with starter := { s.starter with busy := Tab.set e (-lack) s.starter.busy } }) s
      { s with starter := { s.starter with window := ends } })

/-! ### Control-core services (R267) -/

/-- A service ends, up to 20 µs after its dispatch: a free value. -/
def serviceEnds (k code : Nat) (s : State) : State :=
  let r := drawBelow 20001 s
  let e := 16 + k
  let stop := eligSince e s + r.1
  let s := endTask e 0 code stop r.2
  let s := { s with starter := { s.starter with busy := Tab.set e (Tab.get 0 e s.starter.busy + (r.1 : Int)) s.starter.busy } }
  nowEligible e stop s

/-- The item that a record becomes (R267): its queue and its eight words. -/
def recordItem (pri stream e : Nat) : Nat × List Word :=
  let b := entryBytes e
  let ty := entryType e
  let tag := if ty = 4 then 0xFFF1 else if ty = 5 then 0xFFF2 else 0xFFF0
  let site := if ty = 4 then 0 else e / 2 ^ 118 % 64
  (site * 4096 + stream,
    [BitVec.ofNat 32 (tag * 65536 + pri * 4096)] ++ (List.range 4).map (fun i => BitVec.ofNat 32 (leAt (4 * i) 4 b)) ++ [0, 0, 0])

/-- FAIL_FWD (R267): up to 64 records of the group's fail FIFO become items for the Result Queue Manager. A
FIFO with a spill region is drained there and gives no record, as FAIL_POP. -/
def forwardFails (k arg : Nat) (s : State) : Nat × State :=
  let g := arg % 16
  let n := takeable g 64 s
  let items := ((grp g s).fifo.take n).map (recordItem (arg / 2 ^ 28) (arg / 65536 % 4096))
  let s := popRecords g n s
  (n, { s with rqm := { s.rqm with ccItems := Tab.set (16 + k) (Tab.get [] (16 + k) s.rqm.ccItems ++ items) s.rqm.ccItems } })

/-- The service code that the task of a control core names. -/
def serviceOf (k : Nat) (s : State) : Nat :=
  if taskOf (16 + k) s < 4096 then (tcb (taskOf (16 + k) s) s).service else 0

/-- Control-core service FAIL_FWD (R267). -/
def execFailFwd (k : Fin 4) (s : State) : Host.Outcome State Fault Refusal :=
  .next (
    if serviceOf k s = 1 then
      let r := forwardFails k (tcb (taskOf (16 + k) s) s).argRun s
      serviceEnds k r.1 r.2
    else s)

/-- Control-core service HOST_NOTE (R267, R380). -/
def execHostNote (k : Fin 4) (s : State) : Host.Outcome State Fault Refusal :=
  .next (
    if serviceOf k s = 2 then
      let t := taskOf (16 + k) s
      let arg := (tcb t s).argRun
      serviceEnds k 0 (notifyEvent K.stNote noPtr (leBytes 4 arg ++ leBytes 2 t) (wr K.stNote arg s))
    else s)

end Sys2Proof.Machine
end

