-- ==== Sys2Proof/Machine/Queues.lean ====
section
/-! DEFINITION. The Result Queue Manager: pools, pushes, notices, reads and losses
(11_starter_and_result_queues.md). A queue is numbered site × 4096 + stream (R271). -/
namespace Sys2Proof.Machine

/-! ### Pools (R274, R275) -/

/-- Reserved slots: 64 × RQ_STREAMS. -/
def reserve (s : State) : Nat := 64 * rd K.rqStreams s

/-- Whether the reserve stands in DRAM. -/
def reserveInDram (s : State) : Bool := 32768 < reserve s

/-- Items of a queue that stand on chip. -/
def RQueue.chip (q : RQueue) : Nat := (q.items.filter (fun i => !i.inDram)).length

/-- Items of a queue that stand in DRAM. -/
def RQueue.spilled (q : RQueue) : Nat := (q.items.filter (·.inDram)).length

/-- Slots of the on-chip shared pool that a queue takes: its items on chip, less the one that is charged to
its reserved slot. -/
def RQueue.chipUse (inDram : Bool) (q : RQueue) : Nat :=
  if inDram then (if q.spilled = 0 then q.chip - 1 else q.chip) else q.chip - 1

/-- Slots of the spill pool that a queue takes. -/
def RQueue.spillUse (inDram : Bool) (q : RQueue) : Nat :=
  if inDram then q.spilled - 1 else if q.chip = 0 then q.spilled - 1 else q.spilled

/-- A figure summed over all queues. -/
def sumQueues (f : RQueue → Nat) (s : State) : Nat := (s.queues.map (fun q => f q.2)).foldl (· + ·) 0

/-- RQ_CACHE_FREE: free slots of the on-chip shared pool. -/
def cacheFree (s : State) : Nat :=
  (if reserveInDram s then 65536 else 65536 - reserve s) - sumQueues (RQueue.chipUse (reserveInDram s)) s

/-- Slots of the spill pool; none where the region has left mapped DRAM (R279). -/
def spillPool (s : State) : Nat :=
  if s.rqm.noSpill then 0 else rd K.rqSpillSize s / 32 - (if reserveInDram s then reserve s else 0)

/-- RQ_SPILL_FREE: free slots of the spill pool. -/
def spillFree (s : State) : Nat := spillPool s - sumQueues (RQueue.spillUse (reserveInDram s)) s

/-- RQ_ITEMS: items held in all queues. -/
def allItems (s : State) : Nat := sumQueues (fun q => q.items.length) s

/-- Whether slots in DRAM can be used now: not until DRAM_READY returns to 1 after a map change (R279). While the speed
changes, which keeps the content, writes of DP4 wait (R198). -/
def dramSlots (s : State) : Bool := (rd K.dramReady s = 1 || rd K.dramSpeedStatus s = 2) && !s.rqm.noSpill

/-- The slots of the spill region that hold an item. -/
def usedSlots (s : State) : List Nat := s.queues.flatMap (fun q => q.2.items.filterMap (·.slot))

/-- The first slot from a place on that is not among those used. -/
def firstFree (used : List Nat) : Nat → Nat → Nat
  | a, 0 => a
  | a, n + 1 => if used.contains a then firstFree used (a + 1) n else a

/-- The slot that an item of a queue takes: the queue's own where the reserve stands in DRAM, at the start of the region in
the order of sites and streams, otherwise the lowest that is free (DESIGN CHOICE, log 61). -/
def takeSlot (q : Nat) (s : State) : Nat :=
  let used := usedSlots s
  if reserveInDram s then
    let own := q / 4096 * rd K.rqStreams s + q % 4096
    let a := firstFree used (reserve s) used.length
    if !used.contains own then own
    else if 32 * a + 32 ≤ rd K.rqSpillSize s then a else firstFree used 0 used.length
  else firstFree used 0 used.length

/-- The DRAM address of a slot. -/
def slotAddr (j : Nat) (s : State) : Nat := rd K.rqSpillBase s + 32 * j

/-! ### Items (R272) -/

/-- PRI of an item. -/
def Item.pri (i : Item) : Nat := (i.words.headD 0).toNat / 4096 % 16

/-- The words of an item as they are stored: rsv bits zero. -/
def cleanWords : List Word → List Word
  | [] => []
  | w :: t => (w &&& 0xFFFFF000#32) :: t

/-- Whether the words name an item that may be pushed: TAG not 0xFFFF. -/
def tagOk (w : List Word) : Bool := (w.headD 0).toNat / 65536 ≠ 0xFFFF

/-- The 32 bytes of an item. -/
def Item.bytes (i : Item) : Bytes := i.words.flatMap (fun w => leBytes 4 w.toNat)

/-- The idle item (R272). -/
def idleItem : Bytes := leBytes 4 0xFFFF0000 ++ List.replicate 28 0

/-! ### Pushes (R273, R274, R277) -/

/-- The notice of a queue: hit bits, and a NOTIFY to the subscribers of its Q_DEPTH (R277, R380). -/
def fireNotice (q : Nat) (s : State) : State :=
  let site := q / 4096
  let s := { s with rqm := { s.rqm with hits := Tab.set site (setBit (Tab.get 0 site s.rqm.hits) (q % 4096)) s.rqm.hits } }
  notifyEvent K.qDepth q (leBytes 4 (rqueue q s).items.length) (setObjBit K.rqHitSites site s)

/-- An item lands in a queue; the crossing of Q_LEVEL upwards gives notice (R277). -/
def landItem (q : Nat) (i : Item) (s : State) : State :=
  let old := rqueue q s
  let s := modQueue q (fun x => { x with items := x.items ++ [i] }) s
  if old.items.length = old.level ∧ old.level ≠ 0xFFFFFFFF then fireNotice q s else s

/-- The greatest urgency among items. -/
def topPri (l : List Item) : Nat := (l.map Item.pri).foldl min 15

/-- The items of a list in the order in which they leave: by PRI and then in push order (R276); at most n. -/
def inOrder : Nat → List Item → List Item
  | 0, _ => []
  | n + 1, l =>
    match l.find? (fun i => i.pri == topPri l) with
    | none => []
    | some i => i :: inOrder n (l.erase i)

/-- Whether the cache has a place for a spilled item of a queue: a free slot of the on-chip pool, or the queue's own, where
the reserve stands on chip and no item of the queue does (R274). -/
def backFree (q : Nat) (s : State) : Bool := 0 < cacheFree s || (!reserveInDram s && (rqueue q s).chip == 0)

/-- The slot of the first spilled item among a queue's next 64. -/
def nextSpilled (q : Nat) (s : State) : Option Nat := (inOrder 64 (rqueue q s).items).findSome? (·.slot)

/-- The manager fetches a spilled item back into the cache ahead of its turn (R275): the first of the queue's next 64, as
long as the cache has a place for it (DESIGN CHOICE, log 61). -/
def fetchBack (q : Nat) (s : State) : State :=
  match nextSpilled q s with
  | none => s
  | some j =>
    if backFree q s = false ∨ s.dram.reqs.any (fun r => r.owner == .rqFetch q j) then s
    else queueReqs [mkReq 4 (slotAddr j s) false (.rqFetch q j) s] s

/-- An item of a queue stands on chip again. -/
def onChip (q j : Nat) (s : State) : State :=
  modQueue q (fun x => { x with items := x.items.map (fun i => if i.slot == some j then { i with slot := none } else i) }) s

/-- Where every slot of the spill region holds an item although the pool has one free, some queue has no item on chip and
its reserved slot there is free: that queue's next spilled item is fetched back into it (DESIGN CHOICE, log 61: R274 counts
the slots, and the spec does not say which item makes room). -/
def makeRoom (q : Nat) (s : State) : State :=
  if 32 * takeSlot q s + 32 ≤ rd K.rqSpillSize s then s
  else match (s.queues.map (·.1)).findSome? (fun p => if (rqueue p s).chip = 0 then (nextSpilled p s).map (fun j => (p, j)) else none) with
    | some (p, j) => onChip p j (queueReqs [mkReq 4 (slotAddr j s) false (.rqFetch p j) s] s)
    | none => s

/-- An item lands in a slot of the spill region, and DP4 is asked to write it (R275). -/
def landSpilled (q : Nat) (words : List Word) (s : State) : State :=
  let s := makeRoom q s
  let j := takeSlot q s
  queueReqs [mkReq 4 (slotAddr j s) true (.rqSpill j words) s] (landItem q { words, slot := some j } s)

/-- A push refused for lack of space (R274). -/
def dropItem (q : Nat) (s : State) : State :=
  incSat 64 K.rqDroppedTotal 1 (modQueue q (fun x => { x with dropped := min (2 ^ 32 - 1) (x.dropped + 1) }) s)

/-- A push of an item to a queue (R271, R272, R274, R279). -/
def pushItem (q : Nat) (w : List Word) (s : State) : State :=
  if ¬ (q % 4096 < rd K.rqStreams s ∧ q < 262144 ∧ tagOk w) then bump K.rqBadPush s
  else
    let words := cleanWords w
    if (rqueue q s).items.isEmpty then
      (if reserveInDram s then (if dramSlots s then landSpilled q words s else dropItem q s)
       else landItem q { words } s)
    else if 0 < cacheFree s then landItem q { words } s
    else if dramSlots s ∧ 0 < spillFree s then landSpilled q words s
    else dropItem q s

/-- Whether a source has an item to take: an engine's push buffer, or a control core's items. -/
def hasItem (e : Nat) (s : State) : Bool :=
  if e < 16 then !fenced (0x10 + e) s && !(pe e s).buffer.isEmpty else !(Tab.get [] e s.rqm.ccItems).isEmpty

/-- The source that the manager takes from next, in rotation among the 20 (R273). -/
def nextSource (s : State) : Option Nat :=
  ((List.range 20).map (fun i => (s.rqm.turn + i) % 20)).find? (fun e => hasItem e s)

/-- The Result Queue Manager takes the next item of the source whose turn it is (R273): a Pacer engine's push buffer, or
the items of a control core. -/
def execPush (src : Fin 20) (s : State) : Host.Outcome State Fault Refusal :=
  .next (
    let e : Nat := src
    if nextSource s ≠ some e then s
    else
      let s := { s with rqm := { s.rqm with turn := (e + 1) % 20 } }
      if e < 16 then
        (match (pe e s).buffer with
          | (q, w) :: rest => pushItem q w (modPe e (fun p => { p with buffer := rest, freeAt := max p.freeAt s.time.sys }) s)
          | [] => s)
      else match Tab.get [] e s.rqm.ccItems with
        | (q, w) :: rest => pushItem q w { s with rqm := { s.rqm with ccItems := Tab.set e rest s.rqm.ccItems } }
        | [] => s)

/-! ### Spill bursts (R199, R275, R279) -/

/-- Items of a queue lost and counted. -/
def loseItems (q n : Nat) (s : State) : State :=
  incSat 64 K.rqLostTotal n (modQueue q (fun x => { x with lost := min (2 ^ 32 - 1) (x.lost + n) }) s)

/-- Whether an item stands in a burst of the spill region. -/
def Item.inBurst (a : Nat) (s : State) (i : Item) : Bool := i.slot.any (fun j => slotAddr j s / 64 == a / 64)

/-- The items of a burst that a DP4 read finds uncorrectable are lost (R199, R279). -/
def loseBurst (a : Nat) (s : State) : State :=
  forEach (s.queues.map (·.1)) (fun q s =>
    let n := ((rqueue q s).items.filter (fun i => i.inBurst a s)).length
    if n = 0 then s
    else loseItems q n (modQueue q (fun x => { x with items := x.items.filter (fun i => !i.inBurst a s) }) s)) s

/-- A spill write is done: the item stands in its slot, in a burst with fresh check bits (R199). -/
def itemSpilled (j : Nat) (words : List Word) (s : State) : State :=
  memWrite (slotAddr j s) (words.flatMap (fun w => leBytes 4 w.toNat)) (clearBad (slotAddr j s / 64 * 64) s)

/-- A spilled item is back (R275): it stands on chip where a slot is free, and the next one is fetched. -/
def itemBack (q j : Nat) (s : State) : State :=
  if backFree q s then fetchBack q (onChip q j s) else s

/-! ### Reads and clears (R276, R277) -/

/-- The items that a read removes, in order of PRI and then of push, and the items that stay: at most `n`, and
items held in DRAM only while DP4 has `delivered` more of them. The flag tells that a read stopped at an
item not delivered. -/
def takeItems : Nat → Nat → List Item → List Item × List Item × Bool
  | 0, _, l => ([], l, false)
  | n + 1, delivered, l =>
    match l.find? (fun i => i.pri == topPri l) with
    | none => ([], l, false)
    | some i =>
      if i.inDram ∧ delivered = 0 then ([], l, true)
      else
        let r := takeItems n (if i.inDram then delivered - 1 else delivered) (l.erase i)
        (i :: r.1, r.2.1, r.2.2)

/-- The bursts of the spilled items that a read takes. -/
def takenBursts (l : List Item) (s : State) : List Nat :=
  (l.filterMap (·.slot)).map (fun j => slotAddr j s / 64 * 64)

/-- What DP4 finds in a burst that a read takes (R199): a free value unless the burst is known to be bad. An uncorrectable
burst loses its items (R279). -/
def judgeBurst (a : Nat) (s : State) : State :=
  let r := drawBelow 3 s
  match eccOf a (match r.1 with | 0 => Ecc.clean | 1 => Ecc.corrected | _ => Ecc.uncorrected) s with
  | .clean => r.2
  | .corrected => correctedBurst a r.2
  | .uncorrected => loseBurst a (raiseFault 42 (uncorrectedBurst a r.2))

/-- The bursts that a read takes are judged, each once, those of the items that take the place of lost ones too (R199,
R276, R279): `n` items at most, `come` of them from DRAM, in as many rounds as are left. -/
def settleReads (q n come : Nat) : Nat → List Nat → State → State
  | 0, _, s => s
  | k + 1, judged, s =>
    match (takenBursts (takeItems n come (rqueue q s).items).1 s).find? (fun a => !judged.contains a) with
    | none => s
    | some a => settleReads q n come k (a :: judged) (judgeBurst a s)

/-- A read of Q_READ (R276): `delivered` items held in DRAM arrive within 1 ms, each in a burst of DP4; none while the
ports are closed. -/
def qReadBody (delivered : Nat) (x : Session) (s : State) : Ans :=
  let q := x.qPtr
  let n := min x.readMax (answerMax x s / 32)
  let come := if rd K.dramReady s = 1 then delivered else 0
  let s := settleReads q n come (rqueue q s).items.length [] s
  let l := (rqueue q s).items
  if l.isEmpty then give idleItem s
  else
    let r := takeItems n come l
    if r.1.isEmpty ∧ r.2.2 then refuse Code.busy s
    else
      let s := incWrap 64 (K.dpBytes 4) (64 * (takenBursts r.1 s).length) s
      give (r.1.flatMap Item.bytes) (fetchBack q (modQueue q (fun y => { y with items := r.2.1 }) s))

/-- A write of Q_CLEAR (R280): every item removed, without notice. -/
def qClearBody (q v : Nat) (s : State) : Ans :=
  done (if v = 1 then modQueue q (fun x => { x with items := [] }) s else s)

/-- A write of Q_HIT_MAP clears the bits written as 1 (R277). -/
def hitMapBody (q : Nat) (p : Bytes) (s : State) : Ans :=
  let site := q / 4096
  let old := Tab.get 0 site s.rqm.hits
  done { s with rqm := { s.rqm with hits := Tab.set site (old - (old &&& leNat p)) s.rqm.hits } }

/-- A write of RQ_HIT_SITES clears the bits written as 1 (R277). -/
def hitSitesBody (v : Nat) (s : State) : Ans :=
  let old := rd K.rqHitSites s
  done (wr K.rqHitSites (old - (old &&& v)) s)

/-- Whether RQ_STREAMS, RQ_SPILL_BASE and RQ_SPILL_SIZE may be written: every queue empty and no task RUNNING
(R274). -/
def poolsFree (s : State) : Bool := allItems s = 0 && s.tcbs.all (fun x => x.2.state != 2)

/-- Whether a number of streams and a spill size agree (R274). -/
def streamsOk (streams size : Nat) : Bool :=
  1 ≤ streams && streams ≤ 4096 && (streams ≤ 512 || 32 * 64 * streams + 2 ^ 20 ≤ size)

/-! ### Fences and map changes (R279) -/

/-- An engine's push buffer is discarded at its fence and counted (R279). -/
def discardBuffer (e : Nat) (s : State) : State :=
  let n := (pe e s).buffer.length
  incSat 32 K.rqFenceDiscards n (modPe e (fun p => { p with buffer := [] }) s)

/-- After a map change the region may have left mapped DRAM: the spill size counts as 0 until the host writes
new values (R279). -/
def checkSpillRegion (s : State) : State :=
  if rd K.rqSpillSize s ≠ 0 ∧ ¬ mapped (rd K.rqSpillBase s) (rd K.rqSpillSize s) s then
    { s with rqm := { s.rqm with noSpill := true } }
  else s

end Sys2Proof.Machine
end

