-- ==== Sys2Proof/Machine/Flags.lean ====
section
/-! DEFINITION. The Pacer's status register, flags, conditions and exact arithmetic
(09_pacer_datapath.md, 10_pacer_instruction_set.md). -/
namespace Sys2Proof.Machine

/-! ### SR (R214) -/

/-- The bits of SR that hold a value; the others are rsv and read 0. -/
def srMask : Word := 0xFEFDC01F#32

/-- LLVL of SR. -/
def srLlvl (sr : Word) : Nat := sr.toNat / 2 ^ 14 % 4

/-- SR with LLVL replaced. -/
def putLlvl (n : Nat) (sr : Word) : Word := (sr &&& 0xFFFF3FFF#32) ||| BitVec.ofNat 32 (n % 4 * 2 ^ 14)

/-- SCALE of SR, as a signed shift. -/
def srScale (sr : Word) : Int := toSigned 5 (sr.toNat / 2 ^ 19)

/-- SR with SCALE replaced. -/
def putScale (v : BitVec 5) (sr : Word) : Word := (sr &&& 0xFF07FFFF#32) ||| BitVec.ofNat 32 (v.toNat * 2 ^ 19)

/-- Whether a SCALE lies in −8 to +8. -/
def scaleOk (v : Int) : Bool := -8 ≤ v && v ≤ 8

/-- WRAP of SR. -/
def srWrap (sr : Word) : Bool := sr.getLsbD 18

/-! ### X ALU flags (R214, R245) -/

/-- Z and N of a result. -/
def flagsZN (r sr : Word) : Word := srBit 0 (r == 0#32) (srBit 1 r.msb sr)

/-- Z, N, C and V of a result. -/
def flagsZNCV (r : Word) (c v : Bool) (sr : Word) : Word := srBit 2 c (srBit 3 v (flagsZN r sr))

/-- What an X ALU operation gives: the result, C and V. -/
structure AluOut where
  r : Word
  c : Bool := false
  v : Bool := false
  deriving DecidableEq, Repr

/-- Addition, with carry and signed overflow. -/
def aluAdd (a b : Word) : AluOut :=
  { r := a + b, c := 2 ^ 32 ≤ a.toNat + b.toNat, v := a.msb == b.msb && (a + b).msb != a.msb }

/-- Subtraction, with no-borrow and signed overflow. -/
def aluSub (a b : Word) : AluOut :=
  { r := a - b, c := b.toNat ≤ a.toNat, v := a.msb != b.msb && (a - b).msb != a.msb }

/-- Arithmetic shift right by a 6-bit count, with the last bit out. -/
def aluAsr (a : Word) (n : Nat) : AluOut :=
  if n = 0 then { r := a }
  else if n < 32 then { r := a.sshiftRight n, c := a.getLsbD (n - 1) }
  else { r := if a.msb then 0xFFFFFFFF#32 else 0#32 }

/-- Logical shift right by a 6-bit count. -/
def aluLsr (a : Word) (n : Nat) : AluOut :=
  if n = 0 then { r := a } else if n < 32 then { r := a >>> n, c := a.getLsbD (n - 1) } else { r := 0 }

/-- Shift left by a 6-bit count. -/
def aluLsl (a : Word) (n : Nat) : AluOut :=
  if n = 0 then { r := a } else if n < 32 then { r := a <<< n, c := a.getLsbD (32 - n) } else { r := 0 }

/-- Signed minimum. -/
def aluMin (a b : Word) : AluOut := { r := if a.toInt ≤ b.toInt then a else b }

/-- Signed maximum. -/
def aluMax (a b : Word) : AluOut := { r := if a.toInt ≤ b.toInt then b else a }

/-- Magnitude; the most negative value stays, with V = 1. C is not stated and is given from outside. -/
def aluAbs (c : Bool) (a : Word) : AluOut := { r := if a.msb then -a else a, c, v := a == 0x80000000#32 }

/-! ### Conditions of B (R241) -/

/-- The test of a condition code; none for the reserved code. -/
def condHolds (cond : Nat) (sr : Word) : Option Bool :=
  let z := sr.getLsbD 0
  let n := sr.getLsbD 1
  let c := sr.getLsbD 2
  let v := sr.getLsbD 3
  let e := sr.getLsbD 4
  match cond with
  | 0 => some true
  | 1 => some z
  | 2 => some (!z)
  | 3 => some n
  | 4 => some (!n)
  | 5 => some c
  | 6 => some (!c)
  | 7 => some v
  | 8 => some (!v)
  | 9 => some e
  | 10 => some (!e)
  | 11 => some (n == v)
  | 12 => some (n != v)
  | 13 => some (!z && n == v)
  | 14 => some (z || n != v)
  | _ => none

/-! ### Accumulators (R216–R220) -/

/-- Z, N and E of an accumulator result (R214). -/
def accFlags (a : Acc) (sr : Word) : Word :=
  let top := a.toNat / 2 ^ 63
  srBit 0 (a == 0#72) (srBit 1 a.msb (srBit 4 (top != 0 && top != 511) sr))

/-- An exact result judged for an accumulator (R217): clamped or wrapped, and whether it overflowed. -/
def judgeAcc (wrap : Bool) (v : Int) : Acc × Bool :=
  if -(2 ^ 71) ≤ v ∧ v ≤ 2 ^ 71 - 1 then (BitVec.ofInt 72 v, false)
  else if wrap then (BitVec.ofInt 72 v, true)
  else (BitVec.ofInt 72 (if v < 0 then -(2 ^ 71) else 2 ^ 71 - 1), true)

/-- A scaled move's value and whether it saturated (R218). -/
def scaledMove (a : Acc) (scale : Int) : Word × Bool :=
  let v := (a.toInt * 2 ^ (scale + 8).toNat + 2 ^ 39) / 2 ^ 40
  if v > 2 ^ 31 - 1 then (0x7FFFFFFF#32, true)
  else if v < -(2 ^ 31) then (0x80000000#32, true)
  else (BitVec.ofInt 32 v, false)

/-- An X register moved into an accumulator: bits [63:32], sign above, zeros below (R218). -/
def wordToAcc (w : Word) : Acc := BitVec.ofInt 72 (w.toInt * 2 ^ 32)

/-- The number of significant bits of a natural number. -/
def bitLen (n : Nat) : Nat := if n = 0 then 0 else Nat.log2 n + 1

/-- r of an accumulator: bits below the sign that equal it (R220). -/
def accRun (a : Acc) : Nat := 71 - bitLen (if a.msb then ~~~a else a).toNat

/-- e of an accumulator (R220). -/
def accExp (a : Acc) : Int := (accRun a : Int) - 8

/-- r of an X register (R220). -/
def wordRun (w : Word) : Nat := 31 - bitLen (if w.msb then ~~~w else w).toNat

/-- A × 2^c, a right shift rounding half up (R220). -/
def shiftAcc (a : Acc) (c : Int) : Int :=
  if 0 ≤ c then a.toInt * 2 ^ c.toNat else (a.toInt + 2 ^ ((-c).toNat - 1)) / 2 ^ (-c).toNat

/-- The exact product of two operands under SIGN (R216, R253). -/
def macProduct (sign : Nat) (a b : Word) : Int :=
  match sign with
  | 0 => a.toInt * b.toInt
  | 1 => a.toInt * b.toNat
  | _ => (a.toNat * b.toNat : Nat)

/-- A part of an accumulator as 32 bits (R219): 0 L, 1 H, 2 G. -/
def accPart (a : Acc) (part : Nat) : Word :=
  match part with
  | 0 => a.extractLsb' 0 32
  | 1 => a.extractLsb' 32 32
  | _ => (a.extractLsb' 64 8).signExtend 32

/-- An accumulator with a part replaced (R219). -/
def putPart (a : Acc) (part : Nat) (w : Word) : Acc :=
  match part with
  | 0 => (a.extractLsb' 32 40 ++ w : BitVec 72)
  | 1 => (a.extractLsb' 64 8 ++ w ++ a.extractLsb' 0 32 : BitVec 72)
  | _ => (w.extractLsb' 0 8 ++ a.extractLsb' 0 64 : BitVec 72)

end Sys2Proof.Machine
end

