-- ==== Sys2Proof/Machine/Operands.lean ====
section
/-! DEFINITION. The Pacer's operand forms: register fields, address generation, memory operands and the pending
writes of its pipeline (R209, R213, R222–R227, R249). -/
namespace Sys2Proof.Machine

/-- A field of an instruction: `w` bits from bit `lo`. -/
def fld (f lo w : Nat) : Nat := f / 2 ^ lo % 2 ^ w

/-- A 16-bit immediate, sign-extended to a word. -/
def immS (f : Nat) : Word := (BitVec.ofNat 16 f).signExtend 32

/-! ### Registers -/

/-- A register index within a bank. -/
def ix (n k : Nat) (h : 0 < n) : Fin n := ⟨k % n, Nat.mod_lt _ h⟩

/-- X register k. -/
def Pe.xr (k : Nat) (p : Pe) : Word := p.x.get (ix 8 k (by decide))
/-- X register k written. -/
def Pe.setX (k : Nat) (v : Word) (p : Pe) : Pe := { p with x := p.x.set (k % 8) v (Nat.mod_lt _ (by decide)) }
/-- Accumulator k. -/
def Pe.ac (k : Nat) (p : Pe) : Acc := p.acc.get (ix 4 k (by decide))
/-- Accumulator k written. -/
def Pe.setAc (k : Nat) (v : Acc) (p : Pe) : Pe := { p with acc := p.acc.set (k % 4) v (Nat.mod_lt _ (by decide)) }
/-- Pointer k. -/
def Pe.ptr (k : Nat) (p : Pe) : BitVec 16 := p.pt.get (ix 8 k (by decide))
/-- Pointer k written. -/
def Pe.setPt (k : Nat) (v : BitVec 16) (p : Pe) : Pe := { p with pt := p.pt.set (k % 8) v (Nat.mod_lt _ (by decide)) }
/-- Step k. -/
def Pe.step (k : Nat) (p : Pe) : BitVec 16 := p.ds.get (ix 8 k (by decide))
/-- Step k written. -/
def Pe.setDs (k : Nat) (v : BitVec 16) (p : Pe) : Pe := { p with ds := p.ds.set (k % 8) v (Nat.mod_lt _ (by decide)) }
/-- Window k. -/
def Pe.win (k : Nat) (p : Pe) : Word := p.cw.get (ix 8 k (by decide))
/-- Window k written. -/
def Pe.setCw (k : Nat) (v : Word) (p : Pe) : Pe := { p with cw := p.cw.set (k % 8) v (Nat.mod_lt _ (by decide)) }
/-- LC of a level, 1–3. -/
def Pe.lcOf (k : Nat) (p : Pe) : Word := p.lc.get (ix 3 (k + 2) (by decide))
/-- LC of a level written. -/
def Pe.setLc (k : Nat) (v : Word) (p : Pe) : Pe := { p with lc := p.lc.set ((k + 2) % 3) v (Nat.mod_lt _ (by decide)) }
/-- LS of a level, 1–3. -/
def Pe.lsOf (k : Nat) (p : Pe) : BitVec 14 := p.ls.get (ix 3 (k + 2) (by decide))
/-- LS of a level written. -/
def Pe.setLs (k : Nat) (v : BitVec 14) (p : Pe) : Pe := { p with ls := p.ls.set ((k + 2) % 3) v (Nat.mod_lt _ (by decide)) }
/-- LE of a level, 1–3. -/
def Pe.leOf (k : Nat) (p : Pe) : BitVec 14 := p.le.get (ix 3 (k + 2) (by decide))
/-- LE of a level written. -/
def Pe.setLe (k : Nat) (v : BitVec 14) (p : Pe) : Pe := { p with le := p.le.set ((k + 2) % 3) v (Nat.mod_lt _ (by decide)) }

/-- Active block-repeat levels. -/
def Pe.llvl (p : Pe) : Nat := srLlvl p.sr

/-! ### Memory operands (R209, R210, R249) -/

/-- Words of a memory: 0 XM, 1 YM, 2 PM (R208). -/
def busWords (bus : Nat) : Nat := if bus = 2 then 0x4000 else 0xE000

/-- A word of a memory. -/
def Pe.memWord (bus a : Nat) (p : Pe) : Word :=
  match bus with
  | 0 => Tab.get 0 a p.xm
  | 1 => Tab.get 0 a p.ym
  | _ => Tab.get 0 a p.pm

/-- A word of a memory written. -/
def Pe.putMem (bus a : Nat) (v : Word) (p : Pe) : Pe :=
  match bus with
  | 0 => { p with xm := Tab.set a v p.xm }
  | 1 => { p with ym := Tab.set a v p.ym }
  | _ => { p with pm := Tab.set a v p.pm }

/-- A read over a bus; a reserved address is program error 1 (R209). -/
def readBus (bus a : Nat) (p : Pe) : Except Nat Word :=
  if a < busWords bus then .ok (p.memWord bus a) else .error 1

/-- A store over a bus, seen by reads from the third instruction on (R249). -/
def storeBus (bus a : Nat) (v : Word) (p : Pe) : Except Nat Pe :=
  if a < busWords bus then .ok { p with stores := p.stores ++ [⟨p.pos, bus + 1, a, v, p.issue⟩] } else .error 1

/-- A late write of the instruction at the current position (R227). -/
def Pe.later (w : Late) (p : Pe) : Pe := { p with late := p.late ++ [⟨p.pos, w⟩] }

/-! ### Address generation (R222–R225) -/

/-- BASE and LEN of a window. -/
def winBase (w : Word) : Nat := w.toNat / 65536
def winLen (w : Word) : Nat := w.toNat % 65536

/-- A pointer post-modified by a signed amount under its window (R222, R223): the pointer and whether it fell
back to BASE. -/
def postModify (pt : BitVec 16) (m : Int) (w : Word) : Except Nat (BitVec 16 × Bool) :=
  let b : Int := winBase w
  let l : Int := winLen w
  if l = 0 then .ok (BitVec.ofInt 16 (pt.toNat + m), false)
  else if b + l > 0xE000 then .error 7
  else
    let v := pt.toNat + m
    let v := if v ≥ b + l then v - l else if v < b then v + l else v
    if b ≤ v ∧ v < b + l then .ok (BitVec.ofInt 16 v, false) else .ok (BitVec.ofInt 16 b, true)

/-- The low k bits of a value in reverse order. -/
def revBits (k v : Nat) : Nat := ((List.range k).map (fun i => if v.testBit i then 2 ^ (k - 1 - i) else 0)).foldl (· + ·) 0

/-- A bit-reversed post-modify (R225). -/
def postReverse (pt step : BitVec 16) (w : Word) : Except Nat (BitVec 16) :=
  let l := winLen w
  let k := Nat.log2 l
  if l < 2 ∨ l ≠ 2 ^ k ∨ winBase w % l ≠ 0 then .error 8
  else
    let sum := (revBits k (pt.toNat % l) + revBits k (step.toNat % l)) % l
    .ok (BitVec.ofNat 16 (pt.toNat / l * l + revBits k sum))

/-- Pointer n post-modified by a signed amount. -/
def bumpPt (n : Nat) (m : Int) (p : Pe) : Except Nat Pe :=
  match postModify (p.ptr n) m (p.win n) with
  | .error c => .error c
  | .ok (v, fell) =>
    let p := p.setPt n v
    .ok (if fell then { p with sr := srBit 26 true p.sr } else p)

/-- The post-modify that MODE selects (R248): none, by DSn, by an immediate, or bit-reversed. -/
def postMode (mode n imm : Nat) (p : Pe) : Except Nat Pe :=
  match mode with
  | 0 => .ok p
  | 1 => bumpPt n (p.step n).toInt p
  | 2 => bumpPt n (BitVec.ofNat 16 imm).toInt p
  | _ => (match postReverse (p.ptr n) (p.step n) (p.win n) with
    | .error c => .error c
    | .ok v => .ok (p.setPt n v))

/-! ### Late writes placed (R227) -/

/-- A write to a special register (R215), CAPRD apart. -/
def Pe.putSpr (n : Nat) (v : Word) (p : Pe) : Pe :=
  match n with
  | 0x00 => { p with sr := v &&& srMask }
  | 0x01 => { p with ipc := v.setWidth 14 }
  | 0x02 => { p with isr := v }
  | 0x04 => { p with ivec := v.setWidth 14 }
  | 0x08 => p.setLc 1 v
  | 0x09 => p.setLc 2 v
  | 0x0A => p.setLc 3 v
  | 0x0B => p.setLs 1 (v.setWidth 14)
  | 0x0C => p.setLs 2 (v.setWidth 14)
  | 0x0D => p.setLs 3 (v.setWidth 14)
  | 0x0E => p.setLe 1 (v.setWidth 14)
  | 0x0F => p.setLe 2 (v.setWidth 14)
  | 0x10 => p.setLe 3 (v.setWidth 14)
  | 0x11 => { p with sv := v }
  | 0x12 => { p with si := v }
  | 0x13 => { p with sc := v }
  | 0x16 => { p with capg := v.setWidth 4 }
  | _ => p

/-- A late write takes its place. -/
def Pe.place (p : Pe) : Late → Pe
  | .x r v => p.setX r v
  | .acc n v => p.setAc n v
  | .pt n v => p.setPt n v
  | .ds n v => p.setDs n v
  | .cwBase n v => p.setCw n (v ++ (p.win n).extractLsb' 0 16)
  | .cwLen n v => p.setCw n ((p.win n).extractLsb' 16 16 ++ v)
  | .cw n v => p.setCw n v
  | .srBit b v => { p with sr := srBit b v p.sr }
  | .srScale v => { p with sr := putScale v p.sr }
  | .spr n v => p.putSpr n v

/-- A write of CAPRD acts as one of the group's CAP_RD; where it is refused, CAPREJ is set (R215). -/
def placeCapRd (e : Nat) (v : Word) (s : State) : State :=
  match moveCapRd (pe e s).capg.toNat (v.toNat % 65536) s with
  | some s => s
  | none => modPe e (fun p => { p with sr := srBit 25 true p.sr }) s

/-- One late write of an engine. -/
def placeOne (e : Nat) (w : Late) (s : State) : State :=
  match w with
  | .spr 0x18 v => placeCapRd e v s
  | w => modPe e (fun p => p.place w) s

/-- The pending writes whose position lies two or more before `n` take their place: late writes (R227) and
stores (R249). -/
def placeDue (e n : Nat) (s : State) : State :=
  let p := pe e s
  let s := modPe e (fun p =>
    let p := (p.stores.filter (fun w => w.pos + 2 ≤ n)).foldl (fun p w => p.putMem (w.space - 1) w.addr w.v) p
    { p with late := p.late.filter (fun w => n < w.pos + 2), stores := p.stores.filter (fun w => n < w.pos + 2) }) s
  forEach (p.late.filter (fun w => w.pos + 2 ≤ n)) (fun w s => placeOne e w.w s) s

/-- Every pending write of an engine takes its place (R233, R235, R243). -/
def flushPe (e : Nat) (s : State) : State := placeDue e ((pe e s).pos + 2) s

end Sys2Proof.Machine
end

