-- ==== Sys2Proof/Machine/PacerDma.lean ====
section
/-! DEFINITION. The second port of an engine's memories, and DMA transfers (R211, R237, R256–R258). -/
namespace Sys2Proof.Machine

/-! ### The second port (R211, R226, R249) -/

/-- Whether a store has passed its W stage, five cycles after it issued (R226, R249): an engine that waits or has ended its
task has let it pass. The engine's own reads go by position instead. -/
def StoreW.landed (sys : Nat) (p : Pe) (w : StoreW) : Bool :=
  w.at_ + 5 ≤ max sys p.issue || p.stalled || p.tended.isSome

/-- A word of a memory as the second port reads it: with the stores that have landed. -/
def Pe.portWord (sys bus a : Nat) (p : Pe) : Word :=
  match p.stores.reverse.find? (fun w => w.space == bus + 1 && w.addr == a && w.landed sys p) with
  | some w => w.v
  | none => p.memWord bus a

/-- A word of a memory written through the second port, over a store that has landed; a PM word in the range of the
captured body ends the cache's service, at once or, where it serves the level already, when the level ends (R232). -/
def secondPort (sys bus a : Nat) (v : Word) (p : Pe) : Pe :=
  let p := { p with stores := p.stores.filter (fun w => !(w.space == bus + 1 && w.addr == a && w.landed sys p)) }.putMem bus a v
  match p.cacheAt with
  | some (ls, le) =>
    if bus = 2 ∧ ls.toNat ≤ a ∧ a ≤ le.toNat then
      (if p.served then { p with stale := true } else { p with cached := false, cacheAt := none })
    else p
  | none => p

/-- Words written from an address upwards through the second port. -/
def secondPortN (sys bus : Nat) : Nat → List Word → Pe → Pe
  | _, [], p => p
  | a, w :: t, p => secondPortN sys bus (a + 1) t (secondPort sys bus a w p)

/-- The words of a byte string. -/
def bytesWords (b : Bytes) : List Word := (List.range (b.length / 4)).map (fun i => BitVec.ofNat 32 (leAt (4 * i) 4 b))

/-- The memory that a space code of PE_MEM_ADDR names, as a bus. -/
def spaceBus (sp : Nat) : Nat := match sp with | 0 => 2 | 1 => 0 | _ => 1

/-! ### Channels and descriptors (R237, R256, R257) -/

/-- A DMA channel. -/
def Pe.ch (c : Nat) (p : Pe) : Dma := p.dma.get (ix 4 c (by decide))
/-- A DMA channel written. -/
def Pe.setCh (c : Nat) (d : Dma) (p : Pe) : Pe := { p with dma := p.dma.set (c % 4) d (Nat.mod_lt _ (by decide)) }

/-- A channel started on the descriptor at an XM word address: its eight words are read now (R257). An address
above 0xDFF8 holds no descriptor. -/
def startDma (sys c a epoch : Nat) (p : Pe) : Pe :=
  p.setCh c { busy := true, desc := if a ≤ 0xDFF8 then (List.range 8).map (fun i => p.portWord sys 0 (a + i)) else [], epoch
              at0 := p.issue * 8192 / 5 }

/-- The status word of a channel (R258). -/
def Dma.status (d : Dma) : Word := BitVec.ofNat 32 ((if d.busy then 2 ^ 31 else 0) + d.err * 2 ^ 28 + d.done)

/-- Alignment of a space (R237): 0 PM, 1 XM, 2 YM, 3 capture memory, 4 DRAM. -/
def spaceAlign (sp : Nat) : Nat := match sp with | 3 => 16 | 4 => 64 | _ => 4

/-- Bytes of an on-chip space (R237). -/
def spaceBytes (sp : Nat) : Nat := match sp with | 0 => 65536 | 3 => 1048576 | _ => 229376

/-- A descriptor's fields (R257). -/
structure Desc where
  ssp  : Nat
  dsp  : Nat
  cg   : Nat
  ev   : Bool
  src  : Nat
  dst  : Nat
  len  : Nat
  stop : Bool
  next : Nat
  rsv  : Bool
  deriving DecidableEq, Repr

/-- The fields of a descriptor's words. -/
def readDesc (d : List Word) : Desc :=
  let w := fun i => (d.getD i 0).toNat
  { ssp := w 0 / 2 ^ 28, dsp := w 0 / 2 ^ 24 % 16, cg := w 0 / 2 ^ 20 % 16, ev := (w 0).testBit 19
    src := w 1 + w 2 * 2 ^ 32, dst := w 3 + w 4 * 2 ^ 32, len := w 5, stop := (w 6).testBit 31, next := w 6 % 65536
    rsv := w 0 % 2 ^ 19 ≠ 0 || w 6 / 65536 % 32768 ≠ 0 || w 7 ≠ 0 }

/-- Whether a range lies in its space; DRAM is judged apart (R257, R258). -/
def rangeIn (sp a n : Nat) : Bool := sp = 4 || a + n ≤ spaceBytes sp

/-- Whether a descriptor is valid (R257). -/
def Desc.ok (d : Desc) : Bool :=
  let al := max (spaceAlign d.ssp) (spaceAlign d.dsp)
  d.ssp ≤ 4 && d.dsp ≤ 4 && d.dsp ≠ 3 && !d.rsv && (d.ssp = 3 || d.cg = 0) && 1 ≤ d.len && d.len ≤ 2 ^ 24 &&
  d.src % al = 0 && d.dst % al = 0 && d.len % al = 0 && rangeIn d.ssp d.src d.len && rangeIn d.dsp d.dst d.len

/-- The words that a descriptor moves, from its source (R237). -/
def dmaRead (e : Nat) (d : Desc) (s : State) : List Word :=
  let n := d.len / 4
  match d.ssp with
  | 3 => (List.range n).map (fun i =>
      let a := d.src + 4 * i
      BitVec.ofNat 32 (leAt (a % 16) 4 (entryBytes (Tab.get 0 (a / 16) (grp d.cg s).capMem))))
  | 4 => bytesWords (memBytes d.src d.len s)
  | sp => (List.range n).map (fun i => (pe e s).portWord s.time.sys (spaceBus sp) (d.src / 4 + i))

/-- The words placed at the destination; whole bursts of DRAM take fresh check bits (R199). -/
def dmaWrite (e : Nat) (d : Desc) (l : List Word) (s : State) : State :=
  if d.dsp = 4 then
    forEach (burstsOf d.dst d.len) (fun a s => clearBad a s) (memWrite d.dst (l.flatMap (fun w => leBytes 4 w.toNat)) s)
  else modPe e (fun p => secondPortN s.time.sys (spaceBus d.dsp) (d.dst / 4) l p) s

/-- Whether DRAM is one of a descriptor's spaces. -/
def Desc.dram (d : Desc) : Bool := d.ssp = 4 || d.dsp = 4

/-- A descriptor from an offset on, for n bytes. -/
def Desc.part (d : Desc) (o n : Nat) : Desc := { d with src := d.src + o, dst := d.dst + o, len := n }

/-- Whether a burst of DRAM at an offset of a descriptor is mapped. -/
def Desc.mappedAt (d : Desc) (o : Nat) (s : State) : Bool :=
  (d.ssp ≠ 4 || mapped (d.src + o) 64 s) && (d.dsp ≠ 4 || mapped (d.dst + o) 64 s)

/-- The error of a channel's descriptor as it stands (R258), 0 none: an invalid descriptor moves nothing, a burst that is
not mapped stops it where it has come to (DEDUCED, log 35), and a change of map at any time. -/
def Dma.error (x : Dma) (s : State) : Nat :=
  let d := readDesc x.desc
  if x.desc.length ≠ 8 ∨ ¬ d.ok then 1
  else if x.done < d.len ∧ ¬ d.mappedAt x.done s then 2
  else if d.dram ∧ x.epoch ≠ rd K.dramMapEpoch s then 3
  else 0

/-- The burst that a channel asks of DP3 next, and whether it writes (R191, R258): a burst read from DRAM is placed before
the next one is asked for. One burst of a channel is under way at a time (DESIGN CHOICE, log 35). -/
def dmaBurst (e c : Nat) (s : State) : Option (Nat × Bool) :=
  let x := (pe e s).ch c
  let d := readDesc x.desc
  if ¬ x.busy ∨ fenced (0x10 + e) s ∨ x.error s ≠ 0 ∨ d.len ≤ x.done then none
  else if d.dsp = 4 ∧ (d.ssp ≠ 4 ∨ x.hold.isSome) then some (d.dst + x.done, true)
  else if d.ssp = 4 then some (d.src + x.done, false)
  else none

/-- A channel's state changed. -/
def modDma (e c : Nat) (f : Dma → Dma) (s : State) : State := modPe e (fun p => p.setCh c (f (p.ch c))) s

/-- n bytes of a descriptor are placed at its destination, and the channel has moved so many more (R258). -/
def dmaPlace (e c n : Nat) (l : List Word) (s : State) : State :=
  let x := (pe e s).ch c
  modDma e c (fun x => { x with done := x.done + n, hold := none, at0 := s.now }) (dmaWrite e ((readDesc x.desc).part x.done n) l s)

/-- A burst that a channel has read from DRAM arrives. -/
def dmaGot (e c : Nat) (s : State) : State :=
  let x := (pe e s).ch c
  let d := readDesc x.desc
  let l := dmaRead e (d.part x.done 64) s
  if d.dsp = 4 then modDma e c (fun x => { x with hold := some l, at0 := s.now }) s else dmaPlace e c 64 l s

/-- A burst that a channel writes to DRAM is written. -/
def dmaWrote (e c : Nat) (s : State) : State :=
  let x := (pe e s).ch c
  dmaPlace e c 64 (x.hold.getD (dmaRead e ((readDesc x.desc).part x.done 64) s)) s

/-! ### Transfers between memories on chip (R211, R258) -/

/-- The words that a channel between memories on chip has still to move; none where it stands or DRAM is one of its
spaces. -/
def wordsLeft (e c : Nat) (s : State) : Nat :=
  let x := (pe e s).ch c
  let d := readDesc x.desc
  if x.busy && !fenced (0x10 + e) s && x.error s == 0 && !d.dram then (d.len - x.done) / 4 else 0

/-- The second port moves one word of a channel, if it has one to move. -/
def moveWord (e c : Nat) (s : State) : State :=
  if wordsLeft e c s = 0 then s
  else
    let x := (pe e s).ch c
    dmaPlace e c 4 (dmaRead e ((readDesc x.desc).part x.done 4) s) s

/-- One turn of the rotation: a word of each channel below a number. -/
def portTurn (e upTo : Nat) (s : State) : State := forEach (List.range upTo) (fun c s => moveWord e c s) s

/-- Whole turns of the rotation. -/
def portTurns (e : Nat) : Nat → State → State
  | 0, s => s
  | n + 1, s => portTurns e n (portTurn e 4 s)

/-- The most words that any channel of an engine has still to move on chip. -/
def mostLeft (e : Nat) (s : State) : Nat := (List.range 4).foldl (fun a c => max a (wordsLeft e c s)) 0

/-- What the second port has moved of an engine's transfers on chip when its memories are looked at, or the transfers cut
off (R258): a free number of whole turns, and a free part of one more, of the channels in rotation. The spec gives the
port's pace and the rotation, but not what JESD204C receive takes of it before (log 35). -/
def dmaMoves (e : Nat) (s : State) : State :=
  if mostLeft e s = 0 then s
  else
    let n := drawBelow (mostLeft e s) s
    let k := drawBelow 5 n.2
    portTurn e k.1 (portTurns e n.1 k.2)

/-- The second port moves what a channel has left, and of the other channels as many words in rotation, give or take the
one of the turn that ends it (R258). -/
def dmaFinish (e c : Nat) (s : State) : State :=
  let w := wordsLeft e c s
  if w = 0 then s
  else if (List.range 4).all (fun j => j == c || wordsLeft e j s == 0) then portTurns e w s
  else
    let k := drawBelow (4 - c) s
    portTurn e (c + 1 + k.1) (portTurns e (w - 1) k.2)

end Sys2Proof.Machine
end

