-- ==== Sys2Proof/Machine/PacerCore.lean ====
section
/-! DEFINITION. How a Pacer engine issues an instruction: the word it fetches, the loop cache, the write windows,
branches, block repeats, program errors and interrupts (R226–R236). -/
namespace Sys2Proof.Machine

/-! ### Fetching (R208, R232) -/

/-- Whether the loop cache serves the instruction at PC: its tag is that of the innermost active level. -/
def Pe.fromCache (p : Pe) : Bool :=
  match p.cacheAt with
  | some (ls, le) =>
    p.cached && 0 < p.llvl && p.lsOf p.llvl == ls && p.leOf p.llvl == le && ls.toNat ≤ p.pc.toNat && p.pc.toNat ≤ le.toNat
  | none => false

/-- The word that the engine issues at PC. -/
def Pe.word (p : Pe) : Word := if p.fromCache then Tab.get 0 p.pc.toNat p.cache else p.memWord 2 p.pc.toNat

/-- Whether a word names an operation (R239): no reserved class and no reserved operation code. -/
def wordDefined (w : Word) : Bool :=
  let c := w.toNat / 2 ^ 28
  let op := w.toNat / 2 ^ 24 % 16
  match c with
  | 0 => op ≤ 8
  | 1 => op ≤ 14
  | 2 => op ≤ 10
  | 3 => op ≤ 12
  | 4 => true
  | 5 => op ≤ 3
  | 6 => op ≤ 1
  | 7 => op ≤ 2
  | 8 => op ≤ 3
  | _ => 12 ≤ c

/-- The word of an operation in class `c` with operation code `op` and the bits below (R239). -/
def peWord (c op : Nat) (f : BitVec 24) : Word := BitVec.ofNat 32 (c * 2 ^ 28 + op * 2 ^ 24 + f.toNat)

/-! ### Program errors (R235) -/

/-- A program error stops the engine: the instructions already issued complete, and nothing else happens. -/
def programError (e code : Nat) (s : State) : State :=
  let s := flushPe e s
  let s := wrs [(K.peErr e, 2 ^ 31 + code), (K.peErrPc e, (pe e s).pc.toNat), (K.peState e, 3), (K.engPreemptPending e, noTask)] s
  let s := modPe e (fun p => { p with branch := none, tended := none, stalled := false, req := false }) s
  endTask e 2 code s.time.sys (raiseFault (130 + 4 * e) s)

/-! ### Going on (R228, R231, R232, R234) -/

/-- A level has ended: its body no longer issues as cached whatever PM holds, and is not served again where the second port
has written a word of it since the capture (R232). -/
def Pe.levelOver (k : Nat) (p : Pe) : Pe :=
  if p.cacheAt = some (p.lsOf k, p.leOf k) then
    (if p.stale then { p with served := false, stale := false, cached := false, cacheAt := none } else { p with served := false })
  else p

/-- The end of a pass of the innermost level, at an instruction that stood at its LE: the next address and the
level's registers (R231). The first pass of a cacheable body completes its capture (R232). -/
def loopEnd (p0 : Pe) (nxt : Nat) (p : Pe) : Pe × Nat :=
  let k := p0.llvl
  if k = 0 ∨ p0.pc ≠ p0.leOf k then (p, nxt)
  else if 1 < (p0.lcOf k).toNat then
    let p := p.setLc k (p0.lcOf k - 1)
    let p := if p.cacheAt = some (p0.lsOf k, p0.leOf k) ∧ ¬ p.cached then { p with
        cached := true, served := false, stale := false
        cache := p.pm.filter (fun w => (p0.lsOf k).toNat ≤ w.1 && w.1 ≤ (p0.leOf k).toNat) } else p
    (p, (p0.lsOf k).toNat)
  else (({ p.setLc k 0 with sr := putLlvl (k - 1) p.sr } : Pe).levelOver k, p0.pc.toNat + 1)

/-- The engine as the instruction at PC issues: SR ← ISR where a RETI has led to it (R234). -/
def Pe.resumed (p : Pe) : Pe := if p.resume then { p with sr := p.isr &&& srMask, resume := false } else p

/-- Whether an engine accepts a request at the boundary before the instruction at PC (R233). -/
def acceptsNow (e : Nat) (s : State) : Bool :=
  let p := pe e s
  peState e s = 2 && p.tended.isNone && p.sr.getLsbD 16 && p.branch.isNone && !p.stalled

/-- Whether the engine is about to issue a word that names no operation (R239): BUSY, with no request to accept before
it. -/
def undefinedNext (e : Nat) (s : State) : Bool :=
  let p := pe e s
  peState e s = 2 && p.tended.isNone && !p.stalled && !wordDefined p.resumed.word &&
    !(acceptsNow e s && (p.req || p.dmaEvt))

/-- The engine goes on to its next instruction; where the word names no operation, that is program error 2. -/
def checkNext (e : Nat) (s : State) : State := if undefinedNext e s then programError e 2 s else s

/-- The engines that hold a request for a task. -/
def askedFor (t : Nat) (s : State) : List Nat := (List.range 16).filter (fun e => rd (K.engPreemptPending e) s == t)

/-- Engines whose request has been withdrawn issue what stands at their PC (R239, R265). -/
def checkEngines (es : List Nat) (s : State) : State := forEach es (fun e s => checkNext e s) s

/-- Execution reaches an address: past the end of PM it is program error 6. -/
def arrive (e nxt : Nat) (s : State) : State :=
  if 0x4000 ≤ nxt then programError e 6 s
  else checkNext e (modPe e (fun p => { p with pc := BitVec.ofNat 14 nxt }) s)

/-- The instruction of an engine has issued: its own writes stand in `p`, and `nxt` is the address that follows
it. Loop ends, delay slots and the pending writes take their turn. -/
def finishInstr (e cost nxt : Nat) (p0 p : Pe) (s : State) : State :=
  let r := loopEnd p0 nxt { p with served := p.served || p0.fromCache }
  let p := { r.1 with
    issue := r.1.issue + cost, cycl := r.1.cycl + cost, window := r.1.window + cost, stalled := false
    pos := p0.pos + 1
    branch := match p0.branch with
      | some b => if b.left ≤ 1 then none else some { b with left := b.left - 1 }
      | none => r.1.branch }
  let s := placeDue e p0.pos (incWrap 64 (K.peCycles e) cost (setPe e p s))
  match p0.branch with
  | some b =>
    if b.left ≤ 1 ∧ b.taken then arrive e b.target.toNat (modPe e (fun p => { p with resume := b.reti }) s)
    else arrive e r.2 s
  | none => if p.tended.isSome then modPe e (fun p => { p with pc := BitVec.ofNat 14 nxt }) s else arrive e r.2 s

/-! ### Issuing an instruction -/

/-- Whether an engine issues a word now: BUSY, its task not ended, and that word at PC. -/
def runsWord (e : Nat) (w : Word) (s : State) : Bool :=
  peState e s = 2 && (pe e s).tended.isNone && (pe e s).resumed.word == w

/-- An instruction that has waited in issue goes on once what it needs is free: the cycles waited count (R215, R259). -/
def endWait (e : Nat) (s : State) : State :=
  let p := pe e s
  let w := p.freeAt - p.issue
  if p.stalled then
    incWrap 64 (K.peCycles e) w (setPe e { p with issue := p.issue + w, cycl := p.cycl + w, window := p.window + w, stalled := false } s)
  else s

/-- Whether PC is one of the last three addresses of an active body (R231). -/
def Pe.nearEnd (p : Pe) : Bool :=
  (List.range 3).any (fun i => i + 1 ≤ p.llvl && p.pc.toNat ≤ (p.leOf (i + 1)).toNat && (p.leOf (i + 1)).toNat ≤ p.pc.toNat + 2)

/-- What an instruction does: program error, or the engine after its own writes. -/
abbrev PeOp := Pe → Except Nat Pe

/-- An instruction that names the address after it: issued if the engine stands at its word, with what the second port has
moved by then in its memories. An ISR that a RETI brings back with a SCALE out of range is program error 5. -/
def peRunTo (e : Nat) (w : Word) (cost : Pe → Nat) (op : State → Pe → Except Nat (Pe × Nat)) (s : State) : State :=
  if !runsWord e w s then s
  else
    let s := modPe e Pe.resumed (endWait e (dmaMoves e s))
    if !scaleOk (srScale (pe e s).sr) then programError e 5 s
    else match op s (pe e s) with
      | .error c => programError e c s
      | .ok q => finishInstr e (cost (pe e s)) q.2 (pe e s) q.1 s

/-- An ordinary instruction: the next address follows it. -/
def peRun (e : Nat) (w : Word) (cost : Pe → Nat) (op : State → PeOp) (s : State) : State :=
  peRunTo e w cost (fun s p => (op s p).map (fun q => (q, p.pc.toNat + 1))) s

/-- The cost of most instructions (R259). -/
def oneCycle (_ : Pe) : Nat := 1

/-- An instruction that only rsv bits and the registers concern: a nonzero rsv bit is program error 2 (R239). -/
def rsvOk (f rsv : Nat) (k : Except Nat Pe) : Except Nat Pe := if f &&& rsv = 0 then k else .error 2

/-- A branch, RETI or task end: program errors 2 and 4 for its place (R228, R231). -/
def branchOk (p : Pe) (k : Except Nat Pe) : Except Nat Pe :=
  if p.branch.isSome then .error 2 else if p.nearEnd then .error 4 else k

/-- A branch to an address, with two delay slots. -/
def Pe.jumpTo (a : BitVec 14) (reti : Bool) (p : Pe) : Pe := { p with branch := some { target := a, left := 2, reti } }

/-- A taken branch with EXIT closes the innermost level (R242). -/
def closeLevel (exit : Bool) (p : Pe) : Pe :=
  if exit then ({ p.setLc p.llvl 0 with sr := putLlvl (p.llvl - 1) p.sr } : Pe).levelOver p.llvl else p

/-- The cost of an instruction that may read a data word from PM (R210). -/
def pmCost (reads : Bool) (p : Pe) : Nat := if reads && !p.fromCache then 2 else 1

/-! ### Interrupts (R233) -/

/-- The Starter delivers a READY task to an eligible engine (R264); a Pacer engine's entry stands at IVEC. -/
def execDispatch (e : Fin 20) (s : State) : Host.Outcome State Fault Refusal :=
  .next (
    if ¬ eligible e s then s
    else match dispatchee e s with
      | some (t, decided) =>
        let es := askedFor t s
        let s := deliver e t decided s
        checkEngines es (if (e : Nat) < 16 then arrive e (pe e s).pc.toNat (incWrap 64 (K.peCycles e) 4 s) else s)
      | none => s)

/-- The engine accepts a pre-emption request or a DMA event and enters IVEC (R233). Which of the two goes first is
not stated: a free value. -/
def execInterruptAccept (e : Fin 16) (s : State) : Host.Outcome State Fault Refusal :=
  .next (
    let p := pe e s
    if ¬ acceptsNow e s ∨ (p.req = false ∧ p.dmaEvt = false) then s
    else
      let both := p.req && p.dmaEvt
      let r := if both then drawBool s else (p.req, s)
      let s := flushPe e r.2
      let s := if r.1 then wr (K.engPreemptPending e) noTask (modPe e (fun p => { p with req := false }) s)
        else modPe e (fun p => { p with dmaEvt := false }) s
      let s := modPe e (fun p => { enterHandler (if r.1 then 2 else 3) (p.issue + 3) p with window := p.window + 3 }) s
      arrive e (pe e s).pc.toNat (incWrap 64 (K.peCycles e) 3 s))

/-! ### The end of a task (R243) -/

/-- After TEND, once every DMA channel is idle and the push buffer is empty, the engine reports the end, 5 cycles after
the TEND or when the last of them is done (R243). -/
def execTaskEnd (e : Fin 16) (s : State) : Host.Outcome State Fault Refusal :=
  .next (
    let p := pe e s
    match p.tended with
    | some code =>
      if peState e s = 2 ∧ p.buffer.isEmpty ∧ p.dma.toList.all (fun d => !d.busy) then
        let stop := max (p.issue + 4) p.freeAt
        let n := stop - p.issue
        let s := modPe e (fun p => { p with tended := none, req := false, cycl := p.cycl + n, issue := stop, window := p.window + n }) (flushPe e s)
        let s := wrs [(K.peState e, 1), (K.engPreemptPending e, noTask)] (incWrap 64 (K.peCycles e) n s)
        nowEligible e stop (endTask e (if code = 0xFF then 1 else 0) code stop s)
      else s
    | none => s)

/-! ### States of an engine (R213, R236) -/

/-- A reset of an engine: the registers of R213 take their reset values, its memories, DMA channels and push buffer
stay. -/
def Pe.reset (p : Pe) : Pe :=
  { pm := p.pm, xm := p.xm, ym := p.ym, dma := p.dma, buffer := p.buffer, issue := p.issue, window := p.window, freeAt := p.freeAt }

/-- A write of PE_CMD (R236). -/
def peCommand (e v : Nat) (s : State) : Ans :=
  match v with
  | 1 => need (peState e s = 0) Code.state s
      (done (nowEligible e s.time.sys (wr (K.peState e) 1 (modPe e (fun p => { p with cycl := 0, issue := max p.issue s.time.sys }) s))))
  | 2 => need (peState e s = 1) Code.state s
      (done (wr (K.peState e) 0 (modPe e (fun p => { p with cycl := p.cycl + (s.time.sys - p.issue), issue := max p.issue s.time.sys }) s)))
  | 3 => need (peState e s = 3) Code.state s
      (done (nowEligible e s.time.sys (wrs [(K.peState e, 1), (K.peErr e, 0)]
        (modPe e (fun p => { p.reset with issue := max p.issue s.time.sys }) s))))
  | _ => refuse Code.range s

/-! ### Host access (R211, R238) -/

/-- PE_MEM_ADDR of an engine in a session (R238, R375). -/
def Session.peAddr (e : Nat) (x : Session) : Nat := Tab.get 0 e x.memAddr

/-- PE_MEM_ADDR of an engine written. -/
def Session.setPeAddr (e v : Nat) (x : Session) : Session := { x with memAddr := Tab.set e v x.memAddr }

/-- A write of PE_MEM_DATA: 1 to 1,024 words at PE_MEM_ADDR, which advances (R238). -/
def memDataWrite (e : Nat) (p : Bytes) (x : Session) (s : State) : Ans :=
  let bus := spaceBus (x.peAddr e / 2 ^ 28)
  let a := x.peAddr e % 65536
  let n := p.length / 4
  need (p.length % 4 = 0 && 1 ≤ n && n ≤ 1024) Code.format s <|
  need (bus ≠ 2 || peState e s = 0) Code.state s <|
  need (a + n ≤ busWords bus) Code.refused s
    (done (modSession x.id (Session.setPeAddr e (x.peAddr e + n))
      (modPe e (fun q => secondPortN s.time.sys bus a (bytesWords p) q) (checkNext e (dmaMoves e s)))))

/-- A read of PE_MEM_DATA: up to 1,024 words within the answer limit, PE_MEM_ADDR advancing (R238, R369). -/
def memDataRead (e : Nat) (x : Session) (s : State) : Ans :=
  let bus := spaceBus (x.peAddr e / 2 ^ 28)
  let a := x.peAddr e % 65536
  let n := min 1024 (answerMax x s / 4)
  need (a < busWords bus) Code.refused s
    (let n := min n (busWords bus - a)
     let s := checkNext e (dmaMoves e s)
     give ((List.range n).flatMap (fun i => leBytes 4 ((pe e s).portWord s.time.sys bus (a + i)).toNat))
       (modSession x.id (Session.setPeAddr e (x.peAddr e + n)) s))

/-- A special register as MVS reads it (R215); none for a reserved number. -/
def sprRead (e n : Nat) (p : Pe) (s : State) : Option Word :=
  let g := p.capg.toNat
  match n with
  | 0x00 => some p.sr
  | 0x01 => some (p.ipc.setWidth 32)
  | 0x02 => some p.isr
  | 0x03 => some (p.icause.setWidth 32)
  | 0x04 => some (p.ivec.setWidth 32)
  | 0x05 => some (p.taskid.setWidth 32)
  | 0x06 => some p.targ
  | 0x08 | 0x09 | 0x0A => some (p.lcOf (n - 7))
  | 0x0B | 0x0C | 0x0D => some ((p.lsOf (n - 0x0A)).setWidth 32)
  | 0x0E | 0x0F | 0x10 => some ((p.leOf (n - 0x0D)).setWidth 32)
  | 0x11 => some p.sv
  | 0x12 => some p.si
  | 0x13 => some p.sc
  | 0x14 => some (BitVec.ofNat 32 p.cycl)
  | 0x15 => some p.cych
  | 0x16 => some (p.capg.setWidth 32)
  | 0x17 => some (BitVec.ofNat 32 (rd (K.capWr g) s))
  | 0x18 => some (BitVec.ofNat 32 (rd (K.capRd g) s))
  | 0x19 => some (BitVec.ofNat 32 (rd (K.capFill g) s))
  | 0x1A => some (BitVec.ofNat 32 (rd (K.capLenRdAct g) s))
  | 0x1B => some (BitVec.ofNat 32 e)
  | _ => none

/-- PE_REGS: 73 words (R238). -/
def peRegs (e : Nat) (s : State) : Bytes :=
  let p := pe e s
  let w := fun (v : Nat) => leBytes 4 v
  w p.pc.toNat ++ p.x.toList.flatMap (fun v => w v.toNat) ++
  p.acc.toList.flatMap (fun a => (List.range 3).flatMap (fun i => w (accPart a i).toNat)) ++
  p.pt.toList.flatMap (fun v => w v.toNat) ++ p.ds.toList.flatMap (fun v => w (v.signExtend 32).toNat) ++
  p.cw.toList.flatMap (fun v => w v.toNat) ++ w p.sr.toNat ++
  (List.range 27).flatMap (fun i => w ((sprRead e (i + 1) p s).getD 0).toNat)

end Sys2Proof.Machine
end

