-- ==== Sys2Proof/Machine/PacerControl.lean ====
section
/-! DEFINITION. The Pacer's control class (R240–R244): branches, block repeats, RETI, TEND, SRB and SSC. Every meaning
acts where the engine's word at PC is the instruction's (assumption log 10). -/
namespace Sys2Proof.Machine

/-- NOP (R240). -/
def execPacerNop (e : Fin 16) (f : BitVec 24) (s : State) : Host.Outcome State Fault Refusal :=
  .next (peRun e (peWord 0 0 f) oneCycle (fun _ p => rsvOk f.toNat 0xFFFFFF (.ok p)) s)

/-- A branch that is taken or not (R228, R241, R242): its delay slots stand either way, and behind those of one that is
not taken execution goes on as it would without it. -/
def branchTo (taken exit : Bool) (target : BitVec 14) (p : Pe) : Except Nat Pe :=
  branchOk p (
    if exit ∧ p.llvl = 0 then .error 3
    else if taken then .ok ((closeLevel exit p).jumpTo target false)
    else .ok { p with branch := some { target := 0, left := 2, reti := false, taken := false } })

/-- B (R240, R241). -/
def execB (e : Fin 16) (f : BitVec 24) (s : State) : Host.Outcome State Fault Refusal :=
  .next (peRun e (peWord 0 1 f) oneCycle (fun _ p => rsvOk f.toNat 0x07C000 (
    match condHolds (fld f.toNat 20 4) p.sr with
    | none => .error 2
    | some t => branchTo t (f.getLsbD 19) (f.extractLsb' 0 14) p)) s)

/-- CALL (R240): the link names the first instruction after the delay slots. -/
def execPacerCall (e : Fin 16) (f : BitVec 24) (s : State) : Host.Outcome State Fault Refusal :=
  .next (peRun e (peWord 0 2 f) oneCycle (fun _ p => rsvOk f.toNat 0x1FC000 (
    branchTo true false (f.extractLsb' 0 14) (p.setX (fld f.toNat 21 3) (BitVec.ofNat 32 (p.pc.toNat + 3))))) s)

/-- JR (R240). -/
def execJr (e : Fin 16) (f : BitVec 24) (s : State) : Host.Outcome State Fault Refusal :=
  .next (peRun e (peWord 0 3 f) oneCycle (fun _ p => rsvOk f.toNat 0x0FFFFF (
    branchTo true (f.getLsbD 20) ((p.xr (fld f.toNat 21 3)).setWidth 14) p)) s)

/-- The opening of a block-repeat level (R229, R230), or the skip of a body with a count of 0. A body of at most 32
instructions takes the loop cache (R232). -/
def openLevel (count : Word) (le : BitVec 14) (p : Pe) : Except Nat (Pe × Nat) :=
  let ls := p.pc.toNat + 1
  let k := p.llvl
  if k = 3 ∨ le.toNat < ls ∨ (0 < k ∧ (p.leOf k).toNat ≤ le.toNat) then .error 3
  else if count = 0 then .ok (p, le.toNat + 1)
  else
    let s := BitVec.ofNat 14 ls
    let q := ((p.setLc (k + 1) count).setLs (k + 1) s).setLe (k + 1) le
    let q := { q with sr := putLlvl (k + 1) q.sr }
    .ok (if le.toNat + 1 - ls ≤ 32 then { q with cacheAt := some (s, le), cached := false, served := false, stale := false, cache := [] } else q, ls)

/-- DO (R229–R231, R240). -/
def execDoRepeat (e : Fin 16) (f : BitVec 24) (s : State) : Host.Outcome State Fault Refusal :=
  .next (peRunTo e (peWord 0 4 f) (fun _ => 3) (fun _ p =>
    let le := f.extractLsb' 0 14
    if f.getLsbD 23 then (if fld f.toNat 14 6 = 0 then openLevel (p.xr (fld f.toNat 20 3)) le p else .error 2)
    else openLevel (BitVec.ofNat 32 (fld f.toNat 14 9)) le p) s)

/-- RETI (R234): a branch to IPC; SR ← ISR as the instruction there issues. -/
def execReti (e : Fin 16) (f : BitVec 24) (s : State) : Host.Outcome State Fault Refusal :=
  .next (peRun e (peWord 0 5 f) oneCycle (fun _ p => rsvOk f.toNat 0xFFFFFF (branchOk p (.ok (p.jumpTo p.ipc true)))) s)

/-- TEND (R240, R243): no instruction after it issues. -/
def execTend (e : Fin 16) (f : BitVec 24) (s : State) : Host.Outcome State Fault Refusal :=
  .next (peRun e (peWord 0 6 f) oneCycle (fun _ p => rsvOk f.toNat 0xFFFF00 (
    branchOk p (.ok { p with tended := some (fld f.toNat 0 8) }))) s)

/-- SRB (R244): one SR bit, late. -/
def execSrb (e : Fin 16) (f : BitVec 24) (s : State) : Host.Outcome State Fault Refusal :=
  .next (peRun e (peWord 0 7 f) oneCycle (fun _ p => rsvOk f.toNat 0xFFFFC0 (
    let b := fld f.toNat 0 5
    if b = 16 ∨ b = 18 ∨ 25 ≤ b then .ok (p.later (.srBit b (f.getLsbD 5))) else .error 2)) s)

/-- A SCALE written late; out of range it is program error 5. -/
def lateScale (v : Int) (p : Pe) : Except Nat Pe :=
  if scaleOk v then .ok (p.later (.srScale (BitVec.ofInt 5 v))) else .error 5

/-- SSC (R244). -/
def execSsc (e : Fin 16) (f : BitVec 24) (s : State) : Host.Outcome State Fault Refusal :=
  .next (peRun e (peWord 0 8 f) oneCycle (fun _ p =>
    if f.getLsbD 23 then rsvOk f.toNat 0x0FFFFF (lateScale (p.xr (fld f.toNat 20 3)).toInt p)
    else rsvOk f.toNat 0x7FFFE0 (lateScale (toSigned 5 f.toNat) p)) s)

end Sys2Proof.Machine
end

