-- ==== Sys2Proof/Machine/PacerAlu.lean ====
section
/-! DEFINITION. The Pacer's X ALU classes, register and immediate forms (R245, R246). -/
namespace Sys2Proof.Machine

/-- A register operation of class 0x1 on Xa and Xb: the result in Xd, with flags (R245). `rsv` are the bits that the
operation does not use. -/
def aluReg (e op rsv : Nat) (f : BitVec 24) (g : Word → Word → AluOut) (s : State) : State :=
  peRun e (peWord 1 op f) oneCycle (fun _ p => rsvOk f.toNat rsv (
    let o := g (p.xr (fld f.toNat 18 3)) (p.xr (fld f.toNat 15 3))
    .ok { p.setX (fld f.toNat 21 3) o.r with sr := flagsZNCV o.r o.c o.v p.sr })) s

/-- An immediate operation of class 0x2 on Xd and IMM (R246). -/
def aluImm (e op rsv : Nat) (f : BitVec 24) (g : Word → Nat → AluOut) (s : State) : State :=
  peRun e (peWord 2 op f) oneCycle (fun _ p => rsvOk f.toNat rsv (
    let o := g (p.xr (fld f.toNat 21 3)) (fld f.toNat 0 16)
    .ok { p.setX (fld f.toNat 21 3) o.r with sr := flagsZNCV o.r o.c o.v p.sr })) s

/-- ADD: Xa + Xb (R245). -/
def execAdd (e : Fin 16) (f : BitVec 24) (s : State) : Host.Outcome State Fault Refusal :=
  .next (aluReg e 0 0x007FFF f aluAdd s)

/-- SUB: Xa − Xb (R245). -/
def execSub (e : Fin 16) (f : BitVec 24) (s : State) : Host.Outcome State Fault Refusal :=
  .next (aluReg e 1 0x007FFF f aluSub s)

/-- AND (R245). -/
def execAnd (e : Fin 16) (f : BitVec 24) (s : State) : Host.Outcome State Fault Refusal :=
  .next (aluReg e 2 0x007FFF f (fun a b => { r := a &&& b }) s)

/-- OR (R245). -/
def execOr (e : Fin 16) (f : BitVec 24) (s : State) : Host.Outcome State Fault Refusal :=
  .next (aluReg e 3 0x007FFF f (fun a b => { r := a ||| b }) s)

/-- XOR (R245). -/
def execXor (e : Fin 16) (f : BitVec 24) (s : State) : Host.Outcome State Fault Refusal :=
  .next (aluReg e 4 0x007FFF f (fun a b => { r := a ^^^ b }) s)

/-- MOV (R245). -/
def execMov (e : Fin 16) (f : BitVec 24) (s : State) : Host.Outcome State Fault Refusal :=
  .next (aluReg e 5 0x03FFFF f (fun a _ => { r := a }) s)

/-- NOT (R245). -/
def execNot (e : Fin 16) (f : BitVec 24) (s : State) : Host.Outcome State Fault Refusal :=
  .next (aluReg e 6 0x03FFFF f (fun a _ => { r := ~~~a }) s)

/-- NEG: 0 − Xa (R245). -/
def execNeg (e : Fin 16) (f : BitVec 24) (s : State) : Host.Outcome State Fault Refusal :=
  .next (aluReg e 7 0x03FFFF f (fun a _ => aluSub 0 a) s)

/-- ASR (R245). -/
def execAsr (e : Fin 16) (f : BitVec 24) (s : State) : Host.Outcome State Fault Refusal :=
  .next (aluReg e 8 0x007FFF f (fun a b => aluAsr a (b.toNat % 64)) s)

/-- LSR (R245). -/
def execLsr (e : Fin 16) (f : BitVec 24) (s : State) : Host.Outcome State Fault Refusal :=
  .next (aluReg e 9 0x007FFF f (fun a b => aluLsr a (b.toNat % 64)) s)

/-- LSL (R245). -/
def execLsl (e : Fin 16) (f : BitVec 24) (s : State) : Host.Outcome State Fault Refusal :=
  .next (aluReg e 10 0x007FFF f (fun a b => aluLsl a (b.toNat % 64)) s)

/-- MIN, signed (R245). -/
def execMin (e : Fin 16) (f : BitVec 24) (s : State) : Host.Outcome State Fault Refusal :=
  .next (aluReg e 11 0x007FFF f aluMin s)

/-- MAX, signed (R245). -/
def execMax (e : Fin 16) (f : BitVec 24) (s : State) : Host.Outcome State Fault Refusal :=
  .next (aluReg e 12 0x007FFF f aluMax s)

/-- ABS (R245). C is not stated: a free value (log 2). -/
def execAbs (e : Fin 16) (f : BitVec 24) (s : State) : Host.Outcome State Fault Refusal :=
  .next (
    let r := if runsWord e (peWord 1 13 f) s then drawBool s else (false, s)
    aluReg e 13 0x03FFFF f (fun a _ => aluAbs r.1 a) r.2)

/-- CMP (R245): flags only, Xd not written and its field rsv. -/
def execCmp (e : Fin 16) (f : BitVec 24) (s : State) : Host.Outcome State Fault Refusal :=
  .next (peRun e (peWord 1 14 f) oneCycle (fun _ p => rsvOk f.toNat 0xE07FFF (
    let o := aluSub (p.xr (fld f.toNat 18 3)) (p.xr (fld f.toNat 15 3))
    .ok { p with sr := flagsZNCV o.r o.c o.v p.sr })) s)

/-- ADDI (R246). -/
def execAddi (e : Fin 16) (f : BitVec 24) (s : State) : Host.Outcome State Fault Refusal :=
  .next (aluImm e 0 0x1F0000 f (fun a i => aluAdd a (immS i)) s)

/-- SUBI (R246). -/
def execSubi (e : Fin 16) (f : BitVec 24) (s : State) : Host.Outcome State Fault Refusal :=
  .next (aluImm e 1 0x1F0000 f (fun a i => aluSub a (immS i)) s)

/-- ANDI (R246). -/
def execAndi (e : Fin 16) (f : BitVec 24) (s : State) : Host.Outcome State Fault Refusal :=
  .next (aluImm e 2 0x1F0000 f (fun a i => { r := a &&& BitVec.ofNat 32 i }) s)

/-- ORI (R246). -/
def execOri (e : Fin 16) (f : BitVec 24) (s : State) : Host.Outcome State Fault Refusal :=
  .next (aluImm e 3 0x1F0000 f (fun a i => { r := a ||| BitVec.ofNat 32 i }) s)

/-- XORI (R246). -/
def execXori (e : Fin 16) (f : BitVec 24) (s : State) : Host.Outcome State Fault Refusal :=
  .next (aluImm e 4 0x1F0000 f (fun a i => { r := a ^^^ BitVec.ofNat 32 i }) s)

/-- MOVI (R246). -/
def execMovi (e : Fin 16) (f : BitVec 24) (s : State) : Host.Outcome State Fault Refusal :=
  .next (aluImm e 5 0x1F0000 f (fun _ i => { r := immS i }) s)

/-- MOVH: the high half replaced (R246). -/
def execMovh (e : Fin 16) (f : BitVec 24) (s : State) : Host.Outcome State Fault Refusal :=
  .next (aluImm e 6 0x1F0000 f (fun a i => { r := (BitVec.ofNat 16 i ++ a.extractLsb' 0 16 : BitVec 32) }) s)

/-- CMPI (R246): flags only. -/
def execCmpi (e : Fin 16) (f : BitVec 24) (s : State) : Host.Outcome State Fault Refusal :=
  .next (peRun e (peWord 2 7 f) oneCycle (fun _ p => rsvOk f.toNat 0x1F0000 (
    let o := aluSub (p.xr (fld f.toNat 21 3)) (immS f.toNat)
    .ok { p with sr := flagsZNCV o.r o.c o.v p.sr })) s)

/-- ASRI (R246). -/
def execAsri (e : Fin 16) (f : BitVec 24) (s : State) : Host.Outcome State Fault Refusal :=
  .next (aluImm e 8 0x1FFFC0 f (fun a i => aluAsr a (i % 64)) s)

/-- LSRI (R246). -/
def execLsri (e : Fin 16) (f : BitVec 24) (s : State) : Host.Outcome State Fault Refusal :=
  .next (aluImm e 9 0x1FFFC0 f (fun a i => aluLsr a (i % 64)) s)

/-- LSLI (R246). -/
def execLsli (e : Fin 16) (f : BitVec 24) (s : State) : Host.Outcome State Fault Refusal :=
  .next (aluImm e 10 0x1FFFC0 f (fun a i => aluLsl a (i % 64)) s)

end Sys2Proof.Machine
end

