-- ==== Sys2Proof/Machine/PacerAcc.lean ====
section
/-! DEFINITION. The Pacer's accumulator, search and special-register classes, and dual multiply-accumulate
(R216–R221, R247, R251–R254). -/
namespace Sys2Proof.Machine

/-! ### Accumulators (R247) -/

/-- An exact result written to accumulator n: judged by R217, with Z, N and E. -/
def accWrite (n : Nat) (v : Int) (p : Pe) : Pe :=
  let j := judgeAcc (srWrap p.sr) v
  { p.setAc n j.1 with sr := accFlags j.1 (if j.2 then srBit (28 + n) true p.sr else p.sr) }

/-- An operation of class 0x3 (R247). -/
def accRun3 (e op rsv : Nat) (f : BitVec 24) (g : Nat → PeOp) (s : State) : State :=
  peRun e (peWord 3 op f) oneCycle (fun _ p => rsvOk f.toNat rsv (g f.toNat p)) s

/-- An, As, Xr, PART and Xs of class 0x3. -/
def fAn (f : Nat) : Nat := fld f 22 2
def fAs (f : Nat) : Nat := fld f 20 2
def fXr3 (f : Nat) : Nat := fld f 17 3
def fPart (f : Nat) : Nat := fld f 15 2
def fXs3 (f : Nat) : Nat := fld f 11 3

/-- CLR (R247). -/
def execClr (e : Fin 16) (f : BitVec 24) (s : State) : Host.Outcome State Fault Refusal :=
  .next (accRun3 e 0 0x3FFFFF f (fun f p => .ok (accWrite (fAn f) 0 p)) s)

/-- ADDA (R247). -/
def execAdda (e : Fin 16) (f : BitVec 24) (s : State) : Host.Outcome State Fault Refusal :=
  .next (accRun3 e 1 0x0FFFFF f (fun f p => .ok (accWrite (fAn f) ((p.ac (fAn f)).toInt + (p.ac (fAs f)).toInt) p)) s)

/-- SUBA (R247). -/
def execSuba (e : Fin 16) (f : BitVec 24) (s : State) : Host.Outcome State Fault Refusal :=
  .next (accRun3 e 2 0x0FFFFF f (fun f p => .ok (accWrite (fAn f) ((p.ac (fAn f)).toInt - (p.ac (fAs f)).toInt) p)) s)

/-- NEGA (R247). -/
def execNega (e : Fin 16) (f : BitVec 24) (s : State) : Host.Outcome State Fault Refusal :=
  .next (accRun3 e 3 0x0FFFFF f (fun f p => .ok (accWrite (fAn f) (-(p.ac (fAs f)).toInt) p)) s)

/-- MOVA (R247). -/
def execMova (e : Fin 16) (f : BitVec 24) (s : State) : Host.Outcome State Fault Refusal :=
  .next (accRun3 e 4 0x0FFFFF f (fun f p => .ok (accWrite (fAn f) (p.ac (fAs f)).toInt p)) s)

/-- SMOV: a scaled move (R218) (R247). -/
def execSmov (e : Fin 16) (f : BitVec 24) (s : State) : Host.Outcome State Fault Refusal :=
  .next (accRun3 e 5 0x31FFFF f (fun f p =>
    let m := scaledMove (p.ac (fAn f)) (srScale p.sr)
    .ok { p.setX (fXr3 f) m.1 with sr := if m.2 then srBit 27 true p.sr else p.sr }) s)

/-- XTOA (R218) (R247). -/
def execXtoa (e : Fin 16) (f : BitVec 24) (s : State) : Host.Outcome State Fault Refusal :=
  .next (accRun3 e 6 0x31FFFF f (fun f p => .ok (accWrite (fAn f) (wordToAcc (p.xr (fXr3 f))).toInt p)) s)

/-- RDP (R219) (R247). -/
def execRdp (e : Fin 16) (f : BitVec 24) (s : State) : Host.Outcome State Fault Refusal :=
  .next (accRun3 e 7 0x307FFF f (fun f p =>
    if fPart f = 3 then .error 2 else .ok (p.setX (fXr3 f) (accPart (p.ac (fAn f)) (fPart f)))) s)

/-- WRP (R219) (R247). -/
def execWrp (e : Fin 16) (f : BitVec 24) (s : State) : Host.Outcome State Fault Refusal :=
  .next (accRun3 e 8 0x307FFF f (fun f p =>
    if fPart f = 3 then .error 2 else .ok (p.setAc (fAn f) (putPart (p.ac (fAn f)) (fPart f) (p.xr (fXr3 f))))) s)

/-- EXPA (R220) (R247). -/
def execExpa (e : Fin 16) (f : BitVec 24) (s : State) : Host.Outcome State Fault Refusal :=
  .next (accRun3 e 9 0x31BFFF f (fun f p =>
    let v := BitVec.ofInt 32 (accExp (p.ac (fAn f)))
    let old := p.xr (fXr3 f)
    .ok (p.setX (fXr3 f) (if f.testBit 14 ∧ old.toInt ≤ v.toInt then old else v))) s)

/-- EXPX (R220) (R247). -/
def execExpx (e : Fin 16) (f : BitVec 24) (s : State) : Host.Outcome State Fault Refusal :=
  .next (accRun3 e 10 0xF1C7FF f (fun f p => .ok (p.setX (fXr3 f) (BitVec.ofNat 32 (wordRun (p.xr (fXs3 f)))))) s)

/-- NORM (R220) (R247). -/
def execNorm (e : Fin 16) (f : BitVec 24) (s : State) : Host.Outcome State Fault Refusal :=
  .next (accRun3 e 11 0x31FFFF f (fun f p =>
    let c := (p.xr (fXr3 f)).toInt
    if -72 ≤ c ∧ c ≤ 63 then .ok (accWrite (fAn f) (shiftAcc (p.ac (fAn f)) c) p) else .error 5) s)

/-- NORMA (R220): AOV is set when e is negative (R247). -/
def execNorma (e : Fin 16) (f : BitVec 24) (s : State) : Host.Outcome State Fault Refusal :=
  .next (accRun3 e 12 0x31FFFF f (fun f p =>
    let a := p.ac (fAn f)
    let v := accExp a
    let q := (accWrite (fAn f) (shiftAcc a v) p).setX (fXr3 f) (BitVec.ofInt 32 v)
    .ok (if v < 0 then { q with sr := srBit (28 + fAn f) true q.sr } else q)) s)

/-! ### Special registers (R251) -/

/-- MVS: a special register into an X register; a read of CYCL latches CYCH (R215). -/
def execMvs (e : Fin 16) (f : BitVec 24) (s : State) : Host.Outcome State Fault Refusal :=
  .next (peRun e (peWord 6 0 f) oneCycle (fun s p => rsvOk f.toNat 0x00FFFF (
    match sprRead e (fld f.toNat 16 5) p s with
    | none => .error 2
    | some v =>
      let q := p.setX (fld f.toNat 21 3) v
      .ok (if fld f.toNat 16 5 = 0x14 then { q with cych := BitVec.ofNat 32 (p.cycl / 2 ^ 32) } else q))) s)

/-- Special registers that R215 lets a program write. -/
def sprWritable (n : Nat) : Bool :=
  n = 0 || n = 1 || n = 2 || n = 4 || (8 ≤ n && n ≤ 0x13) || n = 0x16 || n = 0x18

/-- MSV: an X register into a special register, late (R251). -/
def execMsv (e : Fin 16) (f : BitVec 24) (s : State) : Host.Outcome State Fault Refusal :=
  .next (peRun e (peWord 6 1 f) oneCycle (fun _ p => rsvOk f.toNat 0x00FFFF (
    let n := fld f.toNat 16 5
    let v := p.xr (fld f.toNat 21 3)
    if ¬ sprWritable n then .error 2
    else if n = 0 ∧ ¬ scaleOk (srScale v) then .error 5
    else .ok (p.later (.spr n v)))) s)

/-! ### Search (R221, R252) -/

/-- SRCHS: a search starts (R221). -/
def execSrchs (e : Fin 16) (f : BitVec 24) (s : State) : Host.Outcome State Fault Refusal :=
  .next (peRun e (peWord 7 0 f) oneCycle (fun _ p => rsvOk f.toNat 0xE3FFFF (
    .ok { p with sc := p.xr (fld f.toNat 18 3), si := 0xFFFFFFFF#32 })) s)

/-- Whether an operand replaces SV: strictly greater (MAXI) or less (MINI), signed or unsigned (R221). -/
def searchBeats (max unsigned : Bool) (v sv : Word) : Bool :=
  let lt := fun (a b : Word) => if unsigned then decide (a.toNat < b.toNat) else decide (a.toInt < b.toInt)
  if max then lt sv v else lt v sv

/-- One operand compared at index SC (R221). -/
def searchStep (max unsigned : Bool) (v : Word) (p : Pe) : Pe :=
  let p := if p.si = 0xFFFFFFFF#32 ∨ searchBeats max unsigned v p.sv then { p with sv := v, si := p.sc } else p
  { p with sc := p.sc + 1 }

/-- A post-modify by the pointer's own step where M is set. -/
def bumpIf (m : Bool) (n : Nat) (p : Pe) : Except Nat Pe := if m then bumpPt n (p.step n).toInt p else .ok p

/-- A search step in its form (R252): register, one memory word, or XM and YM words. -/
def searchForm (max : Bool) (f : Nat) (p : Pe) : Except Nat Pe :=
  let u := f.testBit 23
  let m := f.testBit 16
  match fld f 21 2 with
  | 0 => rsvOk f 0x03FFFF (.ok (searchStep max u (p.xr (fld f 18 3)) p))
  | 1 => rsvOk f 0x00FFFF (do
      let n := fld f 17 3
      let v ← readBus (fld f 20 1) (p.ptr n).toNat p
      bumpIf m n (searchStep max u v p))
  | 2 => rsvOk f 0x00FFFF (do
      let a := fld f 19 2
      let b := 4 + fld f 17 2
      let v ← readBus 0 (p.ptr a).toNat p
      let w ← readBus 1 (p.ptr b).toNat p
      let p ← bumpIf m a (searchStep max u w (searchStep max u v p))
      bumpIf m b p)
  | _ => .error 2

/-- MAXI (R221, R252). -/
def execMaxi (e : Fin 16) (f : BitVec 24) (s : State) : Host.Outcome State Fault Refusal :=
  .next (peRun e (peWord 7 1 f) oneCycle (fun _ p => searchForm true f.toNat p) s)

/-- MINI (R221, R252). -/
def execMini (e : Fin 16) (f : BitVec 24) (s : State) : Host.Outcome State Fault Refusal :=
  .next (peRun e (peWord 7 2 f) oneCycle (fun _ p => searchForm false f.toNat p) s)

/-! ### Dual multiply-accumulate (R216, R253, R254) -/

/-- The word of a dual instruction: [31:30] = 0b11. -/
def dualWord (f : BitVec 30) : Word := BitVec.ofNat 32 (3 * 2 ^ 30 + f.toNat)

/-- The signed contribution of a unit: 0 none, 1 MPY, 2 MAC add the product, 3 MSU subtracts it. -/
def unitTerm (op : Nat) (v : Int) : Int := match op with | 0 => 0 | 3 => -v | _ => v

/-- Bits that must be zero for the fields that an instruction does not use (R253). -/
def dualRsv (f : Nat) : Bool :=
  let opa := fld f 28 2
  let opb := fld f 26 2
  (opa = 0 && fld f 16 4 != 0) || (opb = 0 && fld f 12 4 != 0) ||
  (opa = 0 && opb = 0 && (fld f 23 3 != 0 || fld f 20 2 != 0)) || (opb = 0 && f.testBit 23) ||
  (!f.testBit 11 && fld f 6 5 != 0) || (!f.testBit 5 && (fld f 0 5 != 0 || f.testBit 22)) || fld f 20 2 = 3

/-- The two units write their accumulators; `flagsB` says whose flags stand where both write different ones. -/
def dualMacs (f : Nat) (flagsB : Bool) (p : Pe) : Pe :=
  let opa := fld f 28 2
  let opb := fld f 26 2
  let sign := fld f 20 2
  let pa := unitTerm opa (macProduct sign (p.xr (fld f 18 2)) (p.xr (4 + fld f 16 2)))
  let pb := unitTerm opb (macProduct sign (p.xr (fld f 14 2)) (p.xr (4 + fld f 12 2)))
  let na := fld f 24 2
  let nb := if f.testBit 23 then na ^^^ 2 else na
  let va := pa + if opa = 1 then 0 else (p.ac na).toInt
  let vb := pb + if opb = 1 then 0 else (p.ac nb).toInt
  if opa = 0 ∧ opb = 0 then p
  else if opb = 0 then accWrite na va p
  else if opa = 0 then accWrite nb vb p
  else if na = nb then accWrite na (pa + pb + if opa = 1 ∨ opb = 1 then 0 else (p.ac na).toInt) p
  else if flagsB then accWrite nb vb (accWrite na va p)
  else accWrite na va (accWrite nb vb p)

/-- The parallel moves: late loads, then the post-modifies (R254). -/
def dualMoves (f : Nat) (p : Pe) : Except Nat Pe := do
  let xp := fld f 7 2
  let yp := 4 + fld f 1 2
  let p ← if f.testBit 11 then (do
      let v ← readBus 0 (p.ptr xp).toNat p
      .ok (p.later (.x (ix 8 (fld f 9 2) (by decide)) v))) else .ok p
  let p ← if f.testBit 5 then (do
      let v ← readBus (if f.testBit 22 then 2 else 1) (p.ptr yp).toNat p
      .ok (p.later (.x (ix 8 (4 + fld f 3 2) (by decide)) v))) else .ok p
  let p ← bumpIf (f.testBit 11 && f.testBit 6) xp p
  bumpIf (f.testBit 5 && f.testBit 0) yp p

/-- A dual multiply-accumulate instruction with parallel moves (R253, R254). Whose result the flags show where the
units write two accumulators is not stated: a free value (log 2). -/
def execDualMac (e : Fin 16) (f : BitVec 30) (s : State) : Host.Outcome State Fault Refusal :=
  .next (
    let r := if runsWord e (dualWord f) s then drawBool s else (false, s)
    peRun e (dualWord f) (pmCost (f.getLsbD 5 && f.getLsbD 22)) (fun _ p =>
      if dualRsv f.toNat then .error 2 else dualMoves f.toNat (dualMacs f.toNat r.1 p)) r.2)

end Sys2Proof.Machine
end

