-- ==== Sys2Proof/Machine/PacerMem.lean ====
section
/-! DEFINITION. The Pacer's loads and stores, address registers, PUSHQ and DMA (R248–R250, R255–R258). -/
namespace Sys2Proof.Machine

/-! ### Loads and stores (R248, R249) -/

/-- The word of a load or store: class 0x4, BUS in [27:26], OP in [25:24]. -/
def busWord (bus : BitVec 2) (op : Nat) (f : BitVec 24) : Word := peWord 4 (bus.toNat * 4 + op) f

/-- The pointer of class 0x4, and the checks of its fields: BUS 3 and a nonzero rsv field are program error 2. -/
def memForm (bus : BitVec 2) (rsv f : Nat) (k : Except Nat Pe) : Except Nat Pe :=
  if bus = 3 then .error 2
  else if fld f 19 2 ≠ 2 ∧ fld f 0 16 ≠ 0 then .error 2
  else rsvOk f rsv k

/-- The post-modify of class 0x4. -/
def memPost (f : Nat) (p : Pe) : Except Nat Pe := postMode (fld f 19 2) (fld f 21 3) (fld f 0 16) p

/-- LD (R248): an X register loaded late. -/
def execLd (e : Fin 16) (bus : BitVec 2) (f : BitVec 24) (s : State) : Host.Outcome State Fault Refusal :=
  .next (peRun e (busWord bus 0 f) (pmCost (bus == 2)) (fun _ p => memForm bus 0 f.toNat (do
    let v ← readBus bus.toNat (p.ptr (fld f.toNat 21 3)).toNat p
    memPost f.toNat (p.later (.x (ix 8 (fld f.toNat 16 3) (by decide)) v)))) s)

/-- ST (R248): an X register stored. -/
def execSt (e : Fin 16) (bus : BitVec 2) (f : BitVec 24) (s : State) : Host.Outcome State Fault Refusal :=
  .next (peRun e (busWord bus 1 f) oneCycle (fun _ p => memForm bus 0 f.toNat (do
    if bus = 2 then .error 2
    let q ← storeBus bus.toNat (p.ptr (fld f.toNat 21 3)).toNat (p.xr (fld f.toNat 16 3)) p
    memPost f.toNat q)) s)

/-- STS (R248): a scaled accumulator stored. -/
def execSts (e : Fin 16) (bus : BitVec 2) (f : BitVec 24) (s : State) : Host.Outcome State Fault Refusal :=
  .next (peRun e (busWord bus 2 f) oneCycle (fun _ p => memForm bus 0x040000 f.toNat (do
    if bus = 2 then .error 2
    let m := scaledMove (p.ac (fld f.toNat 16 2)) (srScale p.sr)
    let q ← storeBus bus.toNat (p.ptr (fld f.toNat 21 3)).toNat m.1 p
    memPost f.toNat { q with sr := if m.2 then srBit 27 true q.sr else q.sr })) s)

/-- LDA (R248): an accumulator loaded late, as XTOA does; the flags are an immediate write (R227). -/
def execLda (e : Fin 16) (bus : BitVec 2) (f : BitVec 24) (s : State) : Host.Outcome State Fault Refusal :=
  .next (peRun e (busWord bus 3 f) (pmCost (bus == 2)) (fun _ p => memForm bus 0x040000 f.toNat (do
    let v ← readBus bus.toNat (p.ptr (fld f.toNat 21 3)).toNat p
    let q := p.later (.acc (ix 4 (fld f.toNat 16 2) (by decide)) (wordToAcc v))
    memPost f.toNat { q with sr := accFlags (wordToAcc v) q.sr })) s)

/-! ### Address registers (R250) -/

/-- The late write of a 16-bit address register, by REG. -/
def lateReg (reg n : Nat) (v : BitVec 16) : Late :=
  match reg with
  | 0 => .pt (ix 8 n (by decide)) v
  | 1 => .ds (ix 8 n (by decide)) v
  | 2 => .cwBase (ix 8 n (by decide)) v
  | _ => .cwLen (ix 8 n (by decide)) v

/-- A 16-bit address register, by REG. -/
def regOf (reg n : Nat) (p : Pe) : BitVec 16 :=
  match reg with
  | 0 => p.ptr n
  | 1 => p.step n
  | 2 => (p.win n).extractLsb' 16 16
  | _ => (p.win n).extractLsb' 0 16

/-- LDR (R250). -/
def execLdr (e : Fin 16) (f : BitVec 24) (s : State) : Host.Outcome State Fault Refusal :=
  .next (peRun e (peWord 5 0 f) oneCycle (fun _ p => rsvOk f.toNat 0x1C0000 (
    .ok (p.later (lateReg (fld f.toNat 16 2) (fld f.toNat 21 3) (f.extractLsb' 0 16))))) s)

/-- ADDR (R250): modulo 2^16. -/
def execAddr (e : Fin 16) (f : BitVec 24) (s : State) : Host.Outcome State Fault Refusal :=
  .next (peRun e (peWord 5 1 f) oneCycle (fun _ p => rsvOk f.toNat 0x1C0000 (
    let n := fld f.toNat 21 3
    let reg := fld f.toNat 16 2
    .ok (p.later (lateReg reg n (regOf reg n p + f.extractLsb' 0 16))))) s)

/-- MVXR (R250). -/
def execMvxr (e : Fin 16) (f : BitVec 24) (s : State) : Host.Outcome State Fault Refusal :=
  .next (peRun e (peWord 5 2 f) oneCycle (fun _ p => rsvOk f.toNat 0x00FFFF (
    let n := fld f.toNat 21 3
    let v := p.xr (fld f.toNat 18 3)
    match fld f.toNat 16 2 with
    | 0 => .ok (p.later (lateReg 0 n (v.extractLsb' 0 16)))
    | 1 => .ok (p.later (lateReg 1 n (v.extractLsb' 0 16)))
    | 2 => .ok (p.later (.cw (ix 8 n (by decide)) v))
    | _ => .error 2)) s)

/-- MVRX (R250). -/
def execMvrx (e : Fin 16) (f : BitVec 24) (s : State) : Host.Outcome State Fault Refusal :=
  .next (peRun e (peWord 5 3 f) oneCycle (fun _ p => rsvOk f.toNat 0x00FFFF (
    let n := fld f.toNat 21 3
    let x := fld f.toNat 18 3
    match fld f.toNat 16 2 with
    | 0 => .ok (p.setX x ((p.ptr n).setWidth 32))
    | 1 => .ok (p.setX x ((p.step n).signExtend 32))
    | 2 => .ok (p.setX x (p.win n))
    | _ => .error 2)) s)

/-! ### PUSHQ (R255) -/

/-- An instruction that finds what it needs busy waits in issue (R255, R256). -/
def stall (e : Nat) (s : State) : State := modPe e (fun p => { p with stalled := true }) s

/-- The eight XM words of an item; a reserved address is program error 1. -/
def itemWords (a : Nat) (p : Pe) : Except Nat (List Word) :=
  if a + 7 < 0xE000 then .ok ((List.range 8).map (fun i => p.memWord 0 (a + i))) else .error 1

/-- PUSHQ (R255): an item enters the push buffer of 4; a full buffer makes it wait. -/
def execPushq (e : Fin 16) (f : BitVec 24) (s : State) : Host.Outcome State Fault Refusal :=
  .next (
    if runsWord e (peWord 8 0 f) s ∧ 4 ≤ (pe e s).buffer.length ∧ f.toNat &&& 0x01FFFF = 0 then stall e s
    else peRun e (peWord 8 0 f) (fun _ => 8) (fun _ p => rsvOk f.toNat 0x01FFFF (do
      let n := fld f.toNat 18 3
      let w ← itemWords (p.ptr n).toNat p
      let q := { p with buffer := p.buffer ++ [((p.xr (fld f.toNat 21 3)).toNat % 2 ^ 18, w)] }
      if f.getLsbD 17 then bumpPt n 8 q else .ok q)) s)

/-! ### DMA (R237, R256–R258) -/

/-- DMAGO (R256): waits while the channel is busy. -/
def execDmago (e : Fin 16) (f : BitVec 24) (s : State) : Host.Outcome State Fault Refusal :=
  .next (
    if runsWord e (peWord 8 1 f) s ∧ ((pe e s).ch (fld f.toNat 22 2)).busy ∧ f.toNat &&& 0x23FFFF = 0 then stall e s
    else peRun e (peWord 8 1 f) oneCycle (fun s p => rsvOk f.toNat 0x23FFFF (
      .ok (startDma s.time.sys (fld f.toNat 22 2) (p.ptr (fld f.toNat 18 3)).toNat (rd K.dramMapEpoch s) p))) s)

/-- DMAWT (R256): waits until every masked channel is idle. -/
def execDmawt (e : Fin 16) (f : BitVec 24) (s : State) : Host.Outcome State Fault Refusal :=
  .next (
    if runsWord e (peWord 8 2 f) s ∧ f.toNat &&& 0x0FFFFF = 0 ∧
        (bitsOf (fld f.toNat 20 4) 4).any (fun c => ((pe e s).ch c).busy) then stall e s
    else peRun e (peWord 8 2 f) oneCycle (fun _ p => rsvOk f.toNat 0x0FFFFF (.ok p)) s)

/-- DMAST (R256): the status as it stands. -/
def execDmast (e : Fin 16) (f : BitVec 24) (s : State) : Host.Outcome State Fault Refusal :=
  let c := fld f.toNat 19 2
  .next (peRun e (peWord 8 3 f) oneCycle (fun _ p => rsvOk f.toNat 0x07FFFF (
    .ok (p.setX (fld f.toNat 21 3) (p.ch c).status))) s)

/-- A descriptor's channel after its end: idle, or on the next descriptor of the chain. -/
def nextDesc (sys c err done : Nat) (d : Desc) (p : Pe) : Pe :=
  let x := p.ch c
  if err ≠ 0 ∨ d.stop then p.setCh c { x with busy := false, err, done, hold := none }
  else startDma sys c d.next x.epoch p

/-- A DMA descriptor ends, or ends in error, and may request an interrupt (R258). A transfer of DRAM ends once DP3 has moved
its bursts; one between memories on chip moves what is left. What it has placed at PC may name no operation. -/
def execDmaDescriptorEnd (e : Fin 16) (c : Fin 4) (s : State) : Host.Outcome State Fault Refusal :=
  .next (
    let x := (pe e s).ch c
    let d := readDesc x.desc
    let err := x.error s
    if ¬ x.busy ∨ fenced (0x10 + e) s ∨ (err = 0 ∧ d.dram ∧ x.done < d.len) then s
    else
      let s := dmaFinish e c s
      let epoch := rd K.dramMapEpoch s
      let s := modPe e (fun p =>
        let p := nextDesc s.time.sys c err (if err = 0 then d.len else x.done) d p
        let p := { p with freeAt := max p.freeAt s.time.sys }
        p.setCh c { p.ch c with epoch := if (p.ch c).busy then epoch else (p.ch c).epoch }) s
      checkNext e (if d.ev then modPe e (fun p => { p with dmaEvt := true }) s else s))

/-! ### Fences (R347) -/

/-- Whether a request moves data of an engine. -/
def Owner.ofDma (e : Nat) : Owner → Bool
  | .dma e' _ => e' == e
  | _ => false

/-- The cycles of an engine up to now are counted where it runs (R236, R238, R269): CYCL in IDLE and BUSY, PE_CYCLES and the
load window in BUSY, with those of a wait that is cut off. -/
def countRun (e : Nat) (s : State) : State :=
  let n := s.time.sys - (pe e s).issue
  let s := if peState e s = 1 ∨ peState e s = 2 then modPe e (fun p => { p with cycl := p.cycl + n, issue := p.issue + n }) s else s
  if peState e s = 2 then incWrap 64 (K.peCycles e) n (modPe e (fun p => { p with window := p.window + n }) s) else s

/-- An engine leaves BUSY or IDLE by a fence (R347): its task ends with KIND 3, its DMA ends where it has come to and its
push buffer is discarded. -/
def fencePe (e : Nat) (s : State) : State :=
  let s := countRun e (flushPe e s)
  let s := modDram (fun d => { d with reqs := d.reqs.map (fun r => if r.owner.ofDma e then { r with owner := .dropped r.owner } else r) }) s
  let s := modPe e (fun p => { p with
    branch := none, tended := none, stalled := false, req := false, dmaEvt := false
    dma := p.dma.map (fun d => { d with busy := false, hold := none }) }) s
  let s := wrs [(K.peState e, 4), (K.engPreemptPending e, noTask)] (discardBuffer e s)
  endTask e 3 0 s.time.sys s

/-- The fence of an engine is released: STOPPED, after a reset. -/
def releasePe (e : Nat) (s : State) : State := wr (K.peState e) 0 (modPe e Pe.reset s)

end Sys2Proof.Machine
end

