-- ==== Sys2Proof/Machine/Ring.lean ====
section
/-! DEFINITION. The Relay ring: training, frames, messages, flag rounds and landings (13_relay_ring.md). Ring counts
are whole; a frame carries their low 24 bits. -/
namespace Sys2Proof.Machine

/-- RLY_COUNT: the ring count at the present Tref edge (R300). -/
def ringCount (s : State) : Nat := (s.now / tref + s.rly.base) % 2 ^ 64

/-- The instant of a ring count. -/
def ringInstant (c : Nat) (s : State) : Nat := (c + 2 ^ 64 - s.rly.base) % 2 ^ 64 * tref

/-- The whole count whose low 24 bits a frame carries: the latest at or before the present. -/
def wholeCount (low : Nat) (s : State) : Nat :=
  let c := ringCount s
  c - (c + 2 ^ 24 - low % 2 ^ 24) % 2 ^ 24

/-- Whether the ring is trained and the port not fenced. -/
def ringUp (s : State) : Bool := rd K.rlyState s = 2

/-- This chip's position. -/
def position (s : State) : Nat := rd K.rlyPosition s

/-! ### Blocks and CRC (R299) -/

/-- One bit of the CRC-16 with polynomial 0x1021. -/
def crc16Bit (c : BitVec 16) (b : Bool) : BitVec 16 :=
  if xor c.msb b then (c <<< 1) ^^^ 0x1021#16 else c <<< 1

/-- The CRC-16 of a lane's content, bit 106 first, initial value 0xFFFF. -/
def crc16 (v : BitVec 107) : BitVec 16 :=
  (List.range 107).foldl (fun c i => crc16Bit c (v.getLsbD (106 - i))) 0xFFFF#16

/-- The payload of a content: the content and its CRC-16. -/
def payload (v : BitVec 107) : BitVec 123 := v ++ crc16 v

/-- One bit through the scrambler x^58 + x^39 + 1: the bit out, and the last 58 bits sent, the latest lowest. -/
def scrambleBit (h : BitVec 58) (b : Bool) : Bool × BitVec 58 :=
  let o := xor b (xor (h.getLsbD 38) (h.getLsbD 57))
  (o, h.shiftConcat o)

/-- One bit through the descrambler. -/
def descrambleBit (h : BitVec 58) (b : Bool) : Bool × BitVec 58 :=
  (xor b (xor (h.getLsbD 38) (h.getLsbD 57)), h.shiftConcat b)

/-- The top n bits of a payload through a scrambler or descrambler, bit 122 first. -/
def through (step : BitVec 58 → Bool → Bool × BitVec 58) (v : BitVec 123) : Nat → BitVec 58 → BitVec 123 → BitVec 123
  | 0, _, o => o
  | n + 1, h, o => let r := step h (v.getLsbD n); through step v n r.2 (o.shiftConcat r.1)

/-- What a lane's scrambling starts from: the last 58 bits of the block before, zero before the first (DESIGN CHOICE,
log 63: the spec gives no seed). -/
def history : Option LaneBlock → BitVec 58
  | some b => b.bits.extractLsb' 0 58
  | none => 0

/-- The lane block of a content: sync header 0b01 and the scrambled payload. -/
def mkBlock (before : Option LaneBlock) (v : Nat) : LaneBlock :=
  { bits := 1#2 ++ through scrambleBit (payload (BitVec.ofNat 107 v)) 123 (history before) 0 }

/-- The payload of a lane block received. -/
def payloadOf (before : Option LaneBlock) (b : LaneBlock) : BitVec 123 :=
  through descrambleBit (b.bits.extractLsb' 0 123) 123 (history before) 0

/-- The content of a lane block received. -/
def contentOf (before : Option LaneBlock) (b : LaneBlock) : Nat := (payloadOf before b).toNat / 2 ^ 16

/-- Whether a lane block is received without error: its CRC is right, and its sync header, which no CRC covers
(DESIGN CHOICE, log 63). -/
def blockGood (before : Option LaneBlock) (b : LaneBlock) : Bool :=
  b.bits.extractLsb' 123 2 == 1#2 && payload (BitVec.ofNat 107 (contentOf before b)) == payloadOf before b

/-- The lanes of a frame. -/
def lanesOf (f : RelayFrame) : List LaneBlock := [f.lane0, f.lane1, f.lane2, f.lane3]

/-- Lane i of the frame before, if there is one. -/
def laneBefore (f : Option RelayFrame) (i : Nat) : Option LaneBlock := f.bind (fun f => (lanesOf f)[i]?)

/-- The 32-bit field [74:43] of a message. -/
def Msg.target (m : Msg) : Nat := if m.kind = 4 then m.chips * 2 ^ 28 + m.groups * 2 ^ 22 else m.chips

/-- A message slot (R299); an empty slot is zero. -/
def slotWord : Option Msg → Nat
  | none => 0
  | some m =>
    m.kind * 2 ^ 104 + m.origin * 2 ^ 99 + m.s % 2 ^ 24 * 2 ^ 75 + m.target * 2 ^ 43 +
    (if m.kind = 2 then m.groups * 2 ^ 27 + m.entry * 2 ^ 23 else 0)

/-- Whether a slot holds a rsv KIND or a nonzero rsv field (R304). -/
def slotBad (v : Nat) : Bool :=
  let k := v / 2 ^ 104
  4 < k || v % 2 ^ 23 ≠ 0 ||
  (k ≠ 2 && v / 2 ^ 23 % 2 ^ 20 ≠ 0) || (k = 4 && v / 2 ^ 43 % 2 ^ 22 ≠ 0)

/-- The message of a slot, with its whole origin count. -/
def readSlot (v : Nat) (s : State) : Option Msg :=
  let k := v / 2 ^ 104
  if k = 0 then none
  else
    let f := v / 2 ^ 43 % 2 ^ 32
    some { kind := k, origin := v / 2 ^ 99 % 32, s := wholeCount (v / 2 ^ 75) s
           chips := if k = 4 then f / 2 ^ 28 else f
           groups := if k = 4 then f / 2 ^ 22 % 64 else v / 2 ^ 27 % 2 ^ 16
           entry := v / 2 ^ 23 % 16 }

/-- Lane 0 of a frame (R299). A chip in training tells no poison count, since training sets the counts anew (DEDUCED,
log 63). -/
def lane0Word (s : State) (fsamp facc rsamp res : Nat) : Nat :=
  (if ringUp s then 1 else if rd K.rlyState s = 1 then 2 else 0) * 2 ^ 105 +
  (match s.rly.poison with | some p => if rd K.rlyState s = 1 then 0 else 2 ^ 104 + p % 2 ^ 24 * 2 ^ 80 | none => 0) +
  fsamp % 2 ^ 24 * 2 ^ 56 + facc % 2 ^ 16 * 2 ^ 40 + rsamp % 2 ^ 24 * 2 ^ 16 + res % 2 ^ 16

/-! ### Going down (R303, R311) -/

/-- A poison count becomes known; the smaller of two stands (R303). -/
def poisonAt (c : Nat) (s : State) : State :=
  let p := match s.rly.poison with | some q => min q c | none => c
  wr K.rlyPoisonCount (p % 2 ^ 24) (modRly (fun r => { r with poison := some p }) s)

/-- The ring goes down: queued messages are discarded and nothing is forwarded (R311). -/
def ringDown (state : Nat) (s : State) : State :=
  wr K.rlyState state (modRly (fun r => { r with
    txq := [], fwd := [none, none, none], held := [false, false, false] }) s)

/-! ### Commands (R300, R312) -/

/-- Whether a group is ARMED with the ring as its start source. -/
def armedByRing (s : State) : Bool := (List.range 16).any (fun g => runState g s = 2 && rd (K.runStartSrc g) s = 0x30)

/-- A write of RLY_CMD: TRAIN on an enabled leader, or DOWN. One whose ports do not run refuses TRAIN (DESIGN CHOICE,
log 63). -/
def relayCommand (v : Nat) (s : State) : Ans :=
  match v with
  | 1 => need (rd K.rlyState s ≠ 4 && rd K.rlyLeader s = 1 && rd K.rlyEnable s = 1 && !armedByRing s) Code.state s
      (done (wrs [(K.rlyState, 1), (K.rlyTrainFail, 0)] (ringDown 1 s)))
  | 2 => need (rd K.rlyState s ≠ 4) Code.state s (done (ringDown 0 s))
  | _ => refuse Code.range s

/-- The hop delay in whole Tref, rounded up. -/
def hopTref (s : State) : Nat := ceilDiv (rd K.rlyHopFs s) 625000

/-- Training ends in the trained or failed state, as the ring has measured it (R300, R301). A failure reaches a second
leader as well, which is not in training; the leader's success ends the training that it began. -/
def execRelayTrainComplete (code : Fin 7) (position members hopFs offsetFs rtt count chOp : Nat) (s : State) :
    Host.Outcome State Fault Refusal :=
  .next (
    let lead := rd K.rlyLeader s = 1
    if rd K.rlyEnable s = 0 ∨ rd K.rlyState s = 4 then s
    else if code ≠ 0 then
      wrs [(K.rlyState, 3), (K.rlyTrainFail, code), (K.rlyPosition, 0xFF)] (ringDown 3 s)
    else if (lead ∧ rd K.rlyState s ≠ 1) ∨ maxRtt < rtt then s
    else
      let n := min 32 (max (if lead then 1 else 2) members)
      let pos := if lead then 0 else max 1 (min (n - 1) position)
      let s := wrs [(K.rlyState, 2), (K.rlyTrainFail, 0), (K.rlyPosition, pos), (K.rlyMembers, n),
        (K.rlyHopFs, hopFs % 2 ^ 64), (K.rlyOffsetFs, if lead then 0 else offsetFs % 2 ^ 64), (K.rlyRtt, rtt), (K.rlyLat, 2 * rtt + 64),
        (K.rlyPoisonCount, 0)] s
      let s := if lead then s else wr K.rlyChOp (chOp % 2 ^ 16) s
      let c := count % 2 ^ 64
      let first := ceilDiv c 16 * 16
      let s := modRly (fun x => { base := (c + 2 ^ 64 - s.now / tref % 2 ^ 64) % 2 ^ 64, txAt := first, rxDue := first
                                  tx := x.tx, rx := x.rx }) s
      endFault 205 s)

/-- A host's START, EVENT or JUMP (R305, R306): the message joins the queue of a trained ring. -/
def sendMsg (kind chips groups entry : Nat) (s : State) : Ans :=
  need (rd K.rlyState s ≠ 4) Code.state s
    (done (relayQueue { kind, origin := 0, s := 0, chips, groups, entry } s))

/-- RLY_JUMP_SEND: 8 bytes (R312). -/
def jumpSend (p : Bytes) (s : State) : Ans :=
  need (leAt 6 1 p < 16) Code.range s (sendMsg 2 (leAt 0 4 p) (leAt 4 2 p) (leAt 6 1 p) s)

/-! ### Flag rounds (R307–R309) -/

/-- Whether a flag channel is an OR. -/
def chOr (c : Nat) (s : State) : Bool := bitAt (rd K.rlyChOp s) c

/-- Whether a block is in play at an instant: begun by then, and not left. -/
def Block.at (b : Block) (t : Nat) : Bool :=
  (match b.began with | some a => decide (a ≤ t) | none => false) && (match b.ended with | some e => decide (t < e) | none => true)

/-- The MATCH with RLY set that a gang is in at an instant, of the run in progress or of one just ended. -/
def matchAt (t l : Nat) (s : State) : Option Block :=
  ((seq l s).blks ++ (s.rly.past.filter (fun p => p.1 == l)).map (·.2)).find? (fun b => b.isMatch && b.rly && b.at t)

/-- Whether a group is FENCED at an instant. -/
def fencedAt (t g : Nat) (s : State) : Bool :=
  (grp g s).fences.any (fun i => i.since ≤ t && (match i.till with | some e => decide (t < e) | none => true))

/-- A group's contribution to its flag channel as of an instant (R308): none where it is neutral. -/
def contribution (t g : Nat) (s : State) : Option Bool :=
  if fencedAt t g s then none
  else match matchAt t (leader g s) s with
    | some b => some (match b.oks.find? (fun o => o.1 ≤ t) with | some o => o.2 | none => false)
    | none => some false

/-- The chip's contribution to a channel as of an instant: its operation over the contributing groups, neutral without
any. -/
def chipFlag (t c : Nat) (s : State) : Bool :=
  let l := (List.range 16).filterMap (fun g => if rd (K.rlyMatchCh g) s = c then contribution t g s else none)
  if chOr c s then l.any id else l.all id

/-- The neutral accumulator: 1 for AND, 0 for OR (R307). -/
def neutralFlags (s : State) : Nat := maskOf ((List.range 16).filter (fun c => !chOr c s))

/-- The chip's contribution as of a round's ring count combined into its accumulator (R307). -/
def combineFlags (round acc : Nat) (s : State) : Nat :=
  let t := ringInstant round s
  maskOf ((List.range 16).filter (fun c =>
    if chOr c s then bitAt acc c || chipFlag t c s else bitAt acc c && chipFlag t c s))

/-! ### Sending and receiving (R299, R302, R303) -/

/-- Own messages placed in lane order, oldest first, into the slots that reached the chip empty, which a slot that the chip
has just emptied did not (R302); they take the frame's count as theirs. -/
def fillSlots (c : Nat) : List (Option Msg × Bool) → List Msg → List (Option Msg) × List Msg
  | [], _ => ([], [])
  | (none, false) :: t, m :: q => let r := fillSlots c t q; (some { m with s := c } :: r.1, { m with s := c } :: r.2)
  | x :: t, q => let r := fillSlots c t q; (x.1 :: r.1, r.2)

/-- The ring count of a chip's next frame: the multiple of 16 behind the latest one, or the next one to come where the
ring has not been trained. -/
def nextFrame (s : State) : Nat :=
  if ringUp s ∨ s.rly.poison.isSome then s.rly.txAt else ceilDiv (ringCount s) 16 * 16

/-- A chip sends a frame (R299): it forwards what it received, fills empty slots from its queue, and carries the flag
round on. The leader starts a round and places the result of the one that has come back. A chip whose port is fenced
forwards nothing and goes on telling what it knows of a poison count (R303, R311; DEDUCED, log 63). -/
def execRelayFrameSend (s : State) : Host.Outcome State Fault Refusal :=
  .next (
    if rd K.rlyEnable s = 0 ∨ (rd K.rlyState s = 4 ∧ s.rly.poison.isNone) then s
    else
      let c := nextFrame s
      let s := toTime (ringInstant c s) s
      let due := if ringUp s then s.rly.txq.filter (fun m => m.after ≤ c) else []
      let r := fillSlots c (s.rly.fwd.zip s.rly.held) due
      let own := r.2
      let lead := rd K.rlyLeader s = 1
      let round := if ¬ ringUp s then (0, 0)
        else if lead then (c, combineFlags c (neutralFlags s) s) else (s.rly.round.1, combineFlags s.rly.round.1 s.rly.round.2 s)
      let w := fun i => mkBlock (laneBefore s.rly.tx (i + 1)) (slotWord (r.1.getD i none))
      let lane0 := mkBlock (laneBefore s.rly.tx 0) (lane0Word s round.1 round.2 s.rly.result.1 s.rly.result.2)
      let f : RelayFrame := { lane0, lane1 := w 0, lane2 := w 1, lane3 := w 2 }
      modRly (fun x => { x with
        txq := (x.txq.filter (fun m => m.after ≤ c)).drop own.length ++ x.txq.filter (fun m => c < m.after)
        landing := x.landing ++ own, fwd := [none, none, none], held := [false, false, false], txAt := c + 16, tx := some f }) s)

/-- A link fault (R303): POISON from the frame that was due, and the Relay link fault. -/
def linkFault (s : State) : State :=
  raiseFault 204 (modRly (fun x => { x with rxDue := x.rxDue + 16 }) (poisonAt s.rly.rxDue s))

/-- The content of a good frame (R303, R307): slots are forwarded, or emptied where they are the chip's own, and
messages and results set out for their landing. -/
def takeFrame (a b c d : Nat) (s : State) : State :=
  let slots := [b, c, d].map (fun v => readSlot v s)
  let own := fun (m : Msg) => m.origin == position s
  let others := slots.map (fun m => m.filter (fun m => !own m))
  let lead := rd K.rlyLeader s = 1
  let fsamp := a / 2 ^ 56
  let facc := a / 2 ^ 40 % 2 ^ 16
  let rsamp := a / 2 ^ 16
  let res := a % 2 ^ 16
  let new := if lead then (wholeCount fsamp s, facc) else (wholeCount rsamp s, res)
  let seen := s.rly.result = new ∨ new.1 + rd K.rlyLat s < ringCount s
  modRly (fun x => { x with
    fwd := others
    held := slots.map (fun m => m.any own)
    landing := x.landing ++ others.filterMap id
    round := if lead then x.round else (wholeCount fsamp s, facc)
    result := new
    results := if seen then x.results else x.results ++ [new]
    rxDue := x.rxDue + 16 }) s

/-- The poison count that a frame carries becomes known. -/
def takePoison (a : Nat) (s : State) : State := poisonAt (wholeCount (a / 2 ^ 80) s) s

/-- POISON received (R303): the chip enters RLY_STATE 0 with the Relay ring-down fault, unless it is down on a poison count
already or its port is fenced, where it keeps the smaller count. -/
def poisoned (a : Nat) (s : State) : State :=
  let known := s.rly.poison.isSome
  let s := takePoison a s
  if rd K.rlyState s = 4 ∨ (known ∧ rd K.rlyState s = 0) then s else raiseFault 205 (ringDown 0 s)

/-- The Relay port is released: frames are due again from the next one on. -/
def releaseRing (s : State) : State :=
  let c := ceilDiv (ringCount s) 16 * 16
  modRly (fun x => { x with txAt := max x.txAt c, rxDue := max x.rxDue c }) s

/-- Whether frames are due: the ring is trained, or down on a poison count with the port not fenced. -/
def framesDue (s : State) : Bool := ringUp s || (s.rly.poison.isSome && rd K.rlyState s = 0)

/-- A frame without error that reaches a chip whose ring is not trained (R300, R303): training begins on a chip that does not
lead, and POISON is taken. A chip in training heeds neither. -/
def takeDown (a : Nat) (s : State) : State :=
  if rd K.rlyState s = 1 then s
  else if a / 2 ^ 105 = 2 ∧ rd K.rlyLeader s = 0 ∧ rd K.rlyState s ≠ 4 then wr K.rlyTrainFail 0 (ringDown 1 s)
  else if a.testBit 104 then poisoned a s
  else s

/-- A frame without error that reaches a chip of a trained ring. -/
def takeUp (a b c d : Nat) (s : State) : State :=
  if a / 2 ^ 105 = 2 ∧ rd K.rlyLeader s = 0 then wr K.rlyTrainFail 0 (ringDown 1 s)
  else
    let s := takeFrame a b c d s
    if a.testBit 104 then poisoned a s else s

/-- A frame arrives at a port that runs (R299, R303): a CRC error or a rsv field is counted, and where a frame is due it is
a link fault. -/
def execRelayFrameReceive (f : RelayFrame) (s : State) : Host.Outcome State Fault Refusal :=
  .next (
    if rd K.rlyEnable s = 0 then s
    else
      let before := s.rly.rx
      let due := framesDue s
      let s := if due then toTime (ringInstant (s.rly.rxDue + hopTref s) s) s else s
      let s := modRly (fun x => { x with rx := some f }) s
      let v := fun i => match (lanesOf f)[i]? with | some b => contentOf (laneBefore before i) b | none => 0
      let good := (List.range 4).all (fun i => match (lanesOf f)[i]? with | some b => blockGood (laneBefore before i) b | none => false)
      let a := v 0
      if !good || a / 2 ^ 105 = 3 || slotBad (v 1) || slotBad (v 2) || slotBad (v 3) then
        let s := bump K.rlyCrcErrs s
        if due then linkFault (modRly (fun x => { x with fwd := [none, none, none], held := [false, false, false] }) s) else s
      else if ringUp s then takeUp a (v 1) (v 2) (v 3) s
      else takeDown a (if due then modRly (fun x => { x with rxDue := x.rxDue + 16 }) s else s))

/-- No frame arrives within 32 Tref of the time it is due (R303). -/
def execRelayFrameMissing (s : State) : Host.Outcome State Fault Refusal :=
  .next (
    let due := s.rly.rxDue + hopTref s + 32
    if rd K.rlyEnable s = 1 ∧ framesDue s ∧ due ≤ ringCount s then linkFault s else s)

/-! ### Landings (R301, R304–R306, R309, R310) -/

/-- A message lands before another: by its landing edge, then by ORIGIN (R304). -/
def Msg.before (a b : Msg) : Bool := a.s < b.s || (a.s == b.s && a.origin ≤ b.origin)

/-- The message that lands first. -/
def firstMsg : List Msg → Option Msg
  | [] => none
  | a :: t => match firstMsg t with
    | none => some a
    | some b => some (if a.before b then a else b)

/-- The landing edge of an origin count (R301). -/
def landingCount (c : Nat) (s : State) : Nat := c + rd K.rlyLat s

/-- Whether what a count names is applied: it is before the poison count, or none is known and the ring is up (R303,
R311). -/
def unpoisoned (c : Nat) (s : State) : Bool := match s.rly.poison with | some p => decide (c < p) | none => ringUp s

/-- The next message lands, if it is of a kind: it leaves the list, and acts at its edge unless it is poisoned. -/
def land (kind : Nat) (act : Msg → Nat → State → State) (s : State) : State :=
  match firstMsg s.rly.landing with
  | none => s
  | some m =>
    if m.kind ≠ kind then s
    else
      let s := modRly (fun x => { x with landing := x.landing.erase m }) s
      if unpoisoned m.s s then
        let t := ringInstant (landingCount m.s s) s
        act m t (toTime t s)
      else s

/-- Whether a message names this chip. -/
def Msg.names (m : Msg) (s : State) : Bool := bitAt m.chips (position s)

/-- A START lands (R305): the groups ARMED with start source 0x30 start. -/
def execRelayStart (s : State) : Host.Outcome State Fault Refusal :=
  .next (land 1 (fun m t s =>
    if m.names s then
      forEach (leaders s) (fun l s =>
        if rd (K.runStartSrc l) s = 0x30 ∧ startable l t s then
          setRunState l 3 (modSeq l (fun q => { q with startAt := some (t + rd (K.runStartDelay l) s * tref) }) s)
        else s) s
    else s) s)

/-- An EVENT lands as the ring event of WAITT (R306). -/
def execRelayEvent (s : State) : Host.Outcome State Fault Refusal :=
  .next (land 3 (fun m t s =>
    if m.names s then forEach (leaders s) (fun l s =>
      if filling l s ∨ busyState (runState l s) then waitEvent l 0x21 (reachesSeq t) s else s) s
    else s) s)

/-- The groups whose leaders a list of groups names, each once. -/
def leadersOf (gs : List Nat) (s : State) : List Nat :=
  (List.range 16).filter (fun l => gs.any (fun g => leader g s == l))

/-- A JUMP lands as a dynamic jump request (R306). A member of a gang stands for its leader, and a gang is asked once
(DESIGN CHOICE, log 63). -/
def execRelayJump (s : State) : Host.Outcome State Fault Refusal :=
  .next (land 2 (fun m t s =>
    if m.names s then
      forEach (leadersOf (bitsOf m.groups 16) s) (fun g s =>
        if filling g s ∨ busyState (runState g s) then sendJump g m.entry (reachesSeq t) .ring s
        else bump (K.jtDiscarded g) s) s
    else s) s)

/-- A FAIL lands (R310): counted, recorded, and RLY_FAIL_TASK posted. -/
def execRelayFail (s : State) : Host.Outcome State Fault Refusal :=
  .next (land 4 (fun m _ s =>
    let c := landingCount m.s s % 2 ^ 24
    let s := wr K.rlyFailLast (c * 2 ^ 40 + m.origin * 2 ^ 35 + m.chips * 2 ^ 31 + m.groups * 2 ^ 25) (bump K.rlyFailsRx s)
    post (rd K.rlyFailTask s) s) s)

/-- A landed result reaches the open MATCH blocks with RLY set whose channel it names (R309). -/
def resultToMatch (l rsamp res t : Nat) (s : State) : State :=
  let c := rd (K.rlyMatchCh l) s
  modSeq l (fun q => { q with blks := q.blks.map (fun b =>
    if b.isMatch && !b.decided && b.rly && b.flagAt.isNone && c < 16 && bitAt res c &&
        (match b.began with | some a => decide (a ≤ ringInstant rsamp s) | none => false) then { b with flagAt := some t } else b) }) s

/-- The result of a flag round lands (R307, R309). -/
def execFlagResult (s : State) : Host.Outcome State Fault Refusal :=
  .next (match s.rly.results with
    | [] => s
    | (rs, res) :: rest =>
      let s := modRly (fun x => { x with results := rest }) s
      if ringUp s ∧ unpoisoned rs s then
        let t := ringInstant (landingCount rs s) s
        let s := wr K.rlyResult res (toTime t s)
        forEach (leaders s) (fun l s => resultToMatch l rs res t s) s
      else s)

end Sys2Proof.Machine
end

