-- ==== Sys2Proof/Machine/NetTime.lean ====
section
/-! DEFINITION. The steps of the time unit: ticks, timers, writes of its objects, and PTP
(12_time_unit.md). What IEEE 1588-2019 gives and the spec does not is PRESUMED (log 9). -/
namespace Sys2Proof.Machine

/-- At every fourth SYSCLK edge the time unit ticks (R281); the Tref count is latched, staged timer writes take
effect and the Starter's ns advance (R268). An engine about to issue a word that names no operation stops (R235).
Without SYSCLK nothing ticks. -/
def execTimeTick (tref_ : Nat) (s : State) : Host.Outcome State Fault Refusal :=
  .next (
    if s.flt.active.contains 1 then s
    else
      let c := max tref_ (max s.time.ck (s.now / tref))
      let s := tickTime c (toTime (c * tref) s)
      let s := forEach (List.range 16) (fun t s => applyTimer t s) s
      let s := forEach (List.range 16) (fun e s => checkNext e s) s
      { s with starter := { s.starter with phase := s.starter.phase + 4 } })

/-! ### Timers (R289–R291) -/

/-- A firing reaches its consumers (R290): group starts, WAITTs, TSYNC holds, trigger outputs and the ring. -/
def timerConsumers (t edge : Nat) (s : State) : State :=
  let at_ := edge * tref
  let s := forEach (leaders s) (fun l s =>
    let s := if rd (K.runStartSrc l) s = 0x20 + t ∧ startable l at_ s then
        setRunState l 3 (modSeq l (fun q => { q with startAt := some (at_ + rd (K.runStartDelay l) s * tref) }) s)
      else if filling l s then modSeq l (fun q => { q with fires := (t, at_) :: q.fires }) s
      else s
    let s := if filling l s ∨ busyState (runState l s) then waitEvent l (0x10 + t) (reachesSeq at_) s else s
    modSeq l (fun q => match q.queue with
      | r :: _ => (match r.kind with
        | .hold tm _ => if tm = t ∧ q.holdEnd.isSome ∧ q.holdEdge.isNone then { q with holdEdge := some at_ } else q
        | _ => q)
      | [] => q) s) s
  let s := forEach (List.range 8) (fun j s =>
    if rd (K.toutSrc j) s = 2 ∧ bitAt (rd (K.tmrTout t) s) j then toutPulse j (at_ + rd (K.toutDelay j) s * tref) s else s) s
  if rd (K.tmrRelay t) s = 1 then
    let c := (edge + s.rly.base) % 2 ^ 64
    relayQueue { kind := 1, origin := 0, s := 0, chips := rd K.rlyTmrMask s, groups := 0, entry := 0, after := ceilDiv c 16 * 16 } s
  else s

/-- Whether a timer is evaluated at this tick: waiting, and not yet judged at it. -/
def timerLive (t : Nat) (s : State) : Bool := timerWaiting t s && !(timer t s).judged

/-- A timer fires: its compare lies within 256 ns, and the firing is placed on the Tref grid (R289, R290). -/
def execTimerFire (t : Fin 16) (s : State) : Host.Outcome State Fault Refusal :=
  .next (
    let d := timerDiff t s
    if ¬ timerLive t s ∨ d ≤ 0 ∨ timerReach < d then s
    else
      let edge := placedEdge t s
      let s := wrs [(K.tmrLastTref t, edge), (K.tmrLastFire t, actTime edge s)] (bump (K.tmrFires t) s)
      let s := modTimer t (fun g => { g with judged := true }) s
      let s := if tmrMode t s = 2 then advanceTimer t 1 s else wr (K.tmrState t) 2 s
      timerConsumers t edge s)

/-- A timer misses its compare (R289, R291). -/
def execTimerMiss (t : Fin 16) (s : State) : Host.Outcome State Fault Refusal :=
  .next (
    if ¬ timerLive t s ∨ 0 < timerDiff t s then s
    else
      let s := modTimer t (fun g => { g with judged := true }) s
      if tmrMode t s = 2 then
        let n := missedPeriods t s
        advanceTimer t n (incSat 32 (K.tmrMissed t) n s)
      else wr (K.tmrState t) 2 (bump (K.tmrMissed t) s))

/-- TMR_CMP nearest ACT as a full time (R296): in units of 2^−32 ns. -/
def fullCmp (t : Nat) (s : State) : Nat := ofSigned 96 ((s.time.act : Int) + timerDiff t s)

/-- Fs of a period in TMR_CMP format, ties up (R291). -/
def periodFs (v : Nat) : Nat := roundDiv (v * 1000000) (2 ^ 24)

/-- A period in TMR_CMP format nearest a number of fs. -/
def fsPeriod (fs : Nat) : Nat := roundDiv (fs * 2 ^ 24) 1000000

/-- The range of TMR_PERIOD (R291). -/
def periodOk (v : Nat) : Bool := 1000 * 2 ^ 24 ≤ v && v ≤ 2 ^ 39 * 2 ^ 24

/-- A write of a timer's mode, compare time or period, effective at the next tick (R291). -/
def timerWrite (t sub v : Nat) (s : State) : Ans :=
  match sub with
  | 1 => need (v ≤ 2) Code.range s (done (modTimer t (fun g => { g with mode := some v }) s))
  | 2 => done (modTimer t (fun g => { g with cmp := some v }) s)
  | 3 => done (modTimer t (fun g => { g with cmp := some (v / 256 % 2 ^ 64) }) s)
  | 4 => need (periodOk v) Code.range s (done (modTimer t (fun g => { g with period := some v }) s))
  | _ => need (periodOk (fsPeriod v)) Code.range s (done (modTimer t (fun g => { g with period := some (fsPeriod v) }) s))

/-! ### Writes of a domain (R284, R292, R293) -/

/-- Whether a domain takes a host's steering: servo on the host, not fenced (R284). -/
def steerable (d : Nat) (s : State) : Bool := rd (K.tdServo d) s = 0 && !fenced (0x28 + d) s

/-- A staged write of a domain changed. -/
def modStage (d : Nat) (f : TdStage → TdStage) (s : State) : State :=
  modTime (fun t => { t with stage := Tab.set d (f (tdStage d s)) t.stage }) s

/-- TD_INC written (R281, R284). -/
def incWrite (d v : Nat) (s : State) : Ans :=
  need (tdIncOk v) Code.range s <| need (steerable d s) Code.state s (done (modStage d (fun g => { g with inc := some v }) s))

/-- TD_INC_PPB written (R284). -/
def ppbWrite (d : Nat) (ppb : Int) (s : State) : Ans :=
  need (-1000000 ≤ ppb && ppb ≤ 1000000) Code.range s (incWrite d (incOfPpb ppb) s)

/-- TD_OFFSET or TD_OFFSET_FS written; two offsets before one tick add up (R284). -/
def offsetWrite (d : Nat) (v : Int) (s : State) : Ans :=
  need (steerable d s) Code.state s (done (modStage d (fun g => { g with offset := g.offset + v, moved := true }) s))

/-- TD_SET written (R284); it supersedes an offset that waits. -/
def setWrite (d v : Nat) (s : State) : Ans :=
  need (steerable d s) Code.state s (done (modStage d (fun g => { g with set := some v, offset := 0, moved := false }) s))

/-- TIME_ACTIVE_SEL written (R292, R293). -/
def activeSelWrite (v : Nat) (s : State) : Ans :=
  need (v ≤ 1) Code.range s <| need (tdUsable v s) Code.state s
    (done (if v = s.time.sel then s else modTime (fun t => { t with newSel := some v }) s))

/-- TD_ENABLE written: the selected domain cannot be disabled (R293). -/
def tdEnableWrite (d v : Nat) (s : State) : Ans :=
  need (v = 1 || s.time.sel ≠ d) Code.state s (done (wr (K.tdEnable d) v s))

/-- TD_STATE: 0 disabled, 1 running, 2 fenced. -/
def tdState (d : Nat) (s : State) : Nat := if fenced (0x28 + d) s then 2 else rd (K.tdEnable d) s

/-! ### PTP (R286–R288) -/

/-- Whether an instance runs and owns frames of a port. -/
def ptpRuns (d port : Nat) (s : State) : Bool :=
  rd (K.ptpEnable d) s = 1 && rd (K.ptpPort d) s = port && !fenced (0x28 + d) s && rd (K.tdEnable d) s = 1 &&
  !fenced (0x24 + port) s && rd (K.ethLink port) s = 1

/-- Whether an instance takes a message that arrives at a port: its domainNumber and its transport are those of the
instance (R286); any other message is discarded. -/
def ptpTakes (d port : Nat) (number : BitVec 8) (transport : Fin 3) (s : State) : Bool :=
  ptpRuns d port s && rd (K.ptpDomainNumber d) s = number.toNat && rd (K.ptpTransport d) s = transport

/-- Whether an instance sends a message in a form: Sync and Pdelay_Resp in one step where PTP_ONE_STEP says so, and
otherwise in two (R286). -/
def ptpForm (d : Nat) (m : PtpEvent) (s : State) : Bool :=
  (m.kind != 0 && m.kind != 3) || m.twoStep == (rd (K.ptpOneStep d) s == 0)

/-- A signed 64-bit object. -/
def rdS64 (k : Nat) (s : State) : Int := toSigned 64 (rd k s)

/-- delayAsymmetry of a port in 2^−32 ns. -/
def asymOf (port : Nat) (s : State) : Int := fsToFrac (rdS64 (K.ethAsymFs port) s)

/-- The counter of a domain at the instant at which a message crosses the balls. -/
def countAt (d : Nat) (m : PtpEvent) (s : State) : Int := (tdCount d s : Int) + ((m.stamp % max 1 (tdInc d s) : Nat) : Int)

/-- The least multiple of 2^−6 ns that lies within 1 ns of a count. -/
def firstStamp (c : Int) : Int := -((2 ^ 32 - c) / 2 ^ 26) * 2 ^ 26

/-- A stamp of a count: a free multiple of 2^−6 ns within ±1 ns of it (R288). -/
def stampOf (c : Int) (s : State) : Int × State :=
  let lo := firstStamp c
  let r := drawBelow ((c + 2 ^ 32 - lo) / 2 ^ 26 + 1).toNat s
  (lo + (r.1 : Int) * 2 ^ 26, r.2)

/-- One event message stamped on a port (R288). -/
def countStamp (port : Nat) (s : State) : State := bump (K.ethPtpStamps port) s

/-- The time that a message's stamp gives after the correction of the port's latency (R288). -/
def correctedStamp (port : Nat) (m : PtpEvent) (ingress : Bool) (s : State) : Int × State :=
  let r := stampOf (countAt m.dom m s) s
  let lat := if ingress then -(fsToFrac (rdS64 (K.ethIngressLatFs port) s)) else fsToFrac (rdS64 (K.ethEgressLatFs port) s)
  (r.1 + lat, r.2)

/-- The offset measurement of an end-to-end slave with its path delay, once a Sync is complete. -/
def syncComplete (d : Nat) (s : State) : State :=
  let x := ptp d s
  match x.t1, x.t2 with
  | some a, some b =>
    let asym := asymOf (rd (K.ptpPort d) s) s
    let delay := fsToFrac (rdS64 (K.tdMeanPathDelay d) s)
    ptpMeasured d (b - a - delay - asym) delay s
  | _, _ => s

/-- The path delay of a Delay_Req exchange (end-to-end): the mean of both ways. It completes no offset measurement. -/
def delayComplete (d t4 : Nat) (s : State) : State :=
  let x := ptp d s
  match x.t1, x.t2, x.t3 with
  | some a, some b, some c =>
    let delay : Int := ((b - a) + ((t4 : Int) - c)) / 2
    wr (K.tdMeanPathDelay d) (ofSigned 64 (fracToFs delay)) (modPtp d (fun x => { x with t3 := none }) s)
  | _, _, _ => s

/-- The path delay of a completed peer delay exchange. delayAsymmetry comes off the request's correction and onto the
response's, so that it leaves the mean as it is. -/
def peerDelay (d : Nat) (delay : Int) (s : State) : State :=
  wr (K.tdMeanPathDelay d) (ofSigned 64 (fracToFs delay))
    (modPtp d (fun x => { x with p1 := none, p2 := none, p4 := none }) s)

/-- Whether an instance is a slave or on the way to it: 8 UNCALIBRATED, 9 SLAVE. -/
def isSlave (d : Nat) (s : State) : Bool := rd (K.ptpPortState d) s = 9 || rd (K.ptpPortState d) s = 8

/-- A PTP event message is received and time-stamped (R288). The stamp of a request goes into the answer to it. -/
def execPtpEventRx (port : Fin 4) (m : PtpEvent) (s : State) : Host.Outcome State Fault Refusal :=
  .next (
    let d : Nat := m.dom
    if ¬ ptpTakes d port m.number m.transport s then s
    else
      let r := correctedStamp port m true (countStamp port s)
      let s := r.2
      let p2p := rd (K.ptpDelayMech d) s = 1
      if m.kind = 0 ∧ isSlave d s then
        let s := modPtp d (fun x => { x with t2 := some r.1, t1 := if m.twoStep then none else some (m.origin : Int) }) s
        if m.twoStep then s else syncComplete d s
      else if m.kind = 3 ∧ p2p then
        (match m.twoStep, (ptp d s).p1 with
          | true, _ => modPtp d (fun x => { x with p2 := some (m.origin : Int), p4 := some r.1 }) s
          | false, some a => peerDelay d ((r.1 - a - m.origin) / 2) s
          | false, none => s)
      else if (m.kind = 1 ∧ ¬ p2p ∧ rd (K.ptpPortState d) s = 6) ∨ (m.kind = 2 ∧ p2p) then
        modPtp d (fun x => { x with frame := some (m.kind.val, r.1) }) s
      else s)

/-- Whether an instance sends a message in its port state and with its delay mechanism (R286): a master sends Sync, an
end-to-end slave Delay_Req, and peer delay messages go with the peer-to-peer mechanism alone. -/
def ptpSends (d : Nat) (m : PtpEvent) (s : State) : Bool :=
  let p2p := rd (K.ptpDelayMech d) s == 1
  match m.kind.val with
  | 0 => rd (K.ptpPortState d) s == 6
  | 1 => !p2p && isSlave d s
  | _ => p2p

/-- A PTP event message is sent and time-stamped (R288). The stamp of a Sync or a Pdelay_Resp goes into that frame, or into
the one that follows it. -/
def execPtpEventTx (port : Fin 4) (m : PtpEvent) (s : State) : Host.Outcome State Fault Refusal :=
  .next (
    let d : Nat := m.dom
    if ¬ (ptpTakes d port m.number m.transport s ∧ ptpForm d m s ∧ ptpSends d m s) then s
    else
      let r := correctedStamp port m false (countStamp port s)
      match m.kind.val with
      | 1 => modPtp d (fun x => { x with t3 := some r.1 }) r.2
      | 2 => modPtp d (fun x => { x with p1 := some r.1, p2 := none, p4 := none }) r.2
      | k => modPtp d (fun x => { x with frame := some (k, r.1) }) r.2)

/-! ### The best master clock algorithm (R286), of IEEE 1588-2019 (PRESUMED, log 9) -/

/-- What the comparison of two clocks goes by, the most significant first: priority1, class, accuracy, variance,
priority2 and identity. The lower is the better. -/
def clockRank (p1 cls quality p2 identity : Nat) : Nat :=
  p1 * 2 ^ 104 + cls * 2 ^ 96 + quality % 2 ^ 24 * 2 ^ 72 + p2 * 2 ^ 64 + identity

/-- The rank of the grandmaster of an Announce. -/
def announceRank (a : Announce) : Nat :=
  clockRank a.priority1.toNat a.clockClass.toNat (a.accuracy.toNat * 65536 + a.variance.toNat) a.priority2.toNat a.grandmaster.toNat

/-- Whether one Announce is better than another: by its grandmaster, and with one grandmaster by its distance and then by
its sender. -/
def announceBetter (a b : Announce) : Bool :=
  if a.grandmaster = b.grandmaster then
    a.steps.toNat < b.steps.toNat || (a.steps == b.steps && leNat a.sender.reverse < leNat b.sender.reverse)
  else announceRank a < announceRank b

/-- The rank of an instance's own clock: its priorities, and clockClass 248. -/
def ownRank (d : Nat) (s : State) : Nat :=
  clockRank (rd (K.ptpPriority1 d) s) 248 (Config.clockQuality d) (rd (K.ptpPriority2 d) s) (Config.clockIdentity d).toNat

/-- The best Announce that an instance knows, with one that it has just heard. -/
def bestOf (old : Option Announce) (a : Announce) : Announce :=
  match old with
  | some b => if b.sender = a.sender ∨ announceBetter a b then a else b
  | none => a

/-- A port follows a master: its parent and UTC offset, and the end of the time-reference-lost condition (R287). -/
def followMaster (d : Nat) (b : Announce) (s : State) : State :=
  endFault (200 + 2 * d) (wr (K.ptpUtcOffset d) b.utc.toNat
    (setBlob (K.ptpParent d) ((b.sender ++ List.replicate 10 0).take 10) s))

/-- The state decision of a port: a slave of the best master that it hears where it is slave-only or that master is better
than its own clock, and a master otherwise. When it leaves UNCALIBRATED is its own choice: a free value. -/
def decidePort (d : Nat) (b : Announce) (s : State) : State :=
  if rd (K.ptpSlaveOnly d) s = 1 ∨ announceRank b < ownRank d s then
    let stays := rd (K.ptpPortState d) s = 9 ∧ blob (List.replicate 10 0) (K.ptpParent d) s = b.sender
    let r := if stays then (true, s) else drawBool s
    wr (K.ptpPortState d) (if r.1 then 9 else 8) (followMaster d b r.2)
  else
    let own := (List.range 8).map (fun i => (Config.clockIdentity d).extractLsb' (8 * (7 - i)) 8) ++ [0, 0]
    wr (K.ptpPortState d) 6 (setBlob (K.ptpParent d) own s)

/-- A PTP general message is received (R286): Announce drives the BMCA, whose next state decision falls now or later, a
free value (log 9); Follow_Up and Delay_Resp complete a measurement. -/
def execPtpGeneralRx (port : Fin 4) (d : Fin 2) (m : PtpGeneral) (s : State) : Host.Outcome State Fault Refusal :=
  .next (
    if ¬ ptpTakes d port m.number m.transport s then s
    else match m.body with
      | .announce a =>
        let b := bestOf (ptp d s).best a
        let r := drawBool (modPtp d (fun x => { x with best := some b }) s)
        if r.1 then decidePort d b r.2 else r.2
      | .followUp origin => if isSlave d s then syncComplete d (modPtp d (fun x => { x with t1 := some (origin : Int) }) s) else s
      | .delayResp received => if isSlave d s ∧ rd (K.ptpDelayMech d) s = 0 then delayComplete d received s else s
      | .pdelayRespFollowUp origin =>
        (match (ptp d s).p1, (ptp d s).p2, (ptp d s).p4 with
          | some a, some b, some c => peerDelay d (((c - a) - ((origin : Int) - b)) / 2) s
          | _, _, _ => s)
      | .other => s)

/-- The announce receipt timeout expires (R287): the increment stays, the state machine goes on, and the
time-reference-lost fault is raised. -/
def execAnnounceReceiptTimeout (d : Fin 2) (s : State) : Host.Outcome State Fault Refusal :=
  .next (
    if rd (K.ptpEnable d) s = 1 ∧ isSlave d s ∧ ¬ fenced (0x28 + d) s then
      raiseFault (200 + 2 * d) (wr (K.ptpPortState d) (if rd (K.ptpSlaveOnly d) s = 1 then 4 else 6)
        (modPtp d (fun x => { x with best := none }) s))
    else s)

/-- PTP_ENABLE written: the instance starts in LISTENING by way of INITIALIZING, or stops with the default state (log 9). A
domain that is fenced does not start (R348). -/
def ptpEnableWrite (d v : Nat) (s : State) : Ans :=
  need (!(v = 1 && fenced (0x28 + d) s)) Code.state s <| done (wrs [(K.ptpEnable d, v), (K.ptpPortState d, if v = 1 then 4 else 1)]
    (if v = rd (K.ptpEnable d) s then s else endFault (200 + 2 * d) (modPtp d (fun _ => {}) s)))

/-- A domain is fenced (R294): its counter stops, its PTP instance too, and ACT leaves it at the tick. A switch to it that
still awaits its tick does not take place. -/
def fenceTd (d : Nat) (s : State) : State :=
  let s := wr (K.ptpPortState d) 3 (modPtp d (fun _ => {}) s)
  modTime (fun t =>
    if t.sel = d then { t with fenceSw := true, newSel := none }
    else { t with newSel := t.newSel.filter (· != d) }) s

/-- A domain's fence is released (R294): it takes ACT, and its PTP instance restarts. -/
def releaseTd (d : Nat) (s : State) : State :=
  let s := modTime (fun t => { t with td := Tab.set d t.act t.td }) s
  wr (K.ptpPortState d) 1 s

end Sys2Proof.Machine
end

