-- ==== Sys2Proof/Machine/Jesd.lean ====
section
/-! DEFINITION. The mixed-signal ports: the JESD204C links, source play with its NCO, and receive capture
(14_mixed_signal_ports.md). -/
namespace Sys2Proof.Machine

/-! ### Enabling (R314, R322) -/

/-- Transmit leaves its states for OFF (R314). -/
def jtxOff (s : State) : State :=
  let s := stopSource s
  wrs [(K.jtxEn, 0), (K.jtxState, 0)] { s with jtx := { s.jtx with lemc := none, zeros := 0, frame := [] } }

/-- Receive leaves its states for OFF (R314). The task of a record that a fence ended is still to be posted (R322). -/
def jrxOff (s : State) : State := wrs [(K.jrxEn, 0), (K.jrxState, 0)] { s with jrx := { ended := s.jrx.ended, stopAt := s.jrx.stopAt } }

/-- A write of JTX_EN (R313, R314). -/
def jtxEnBody (v : Nat) (s : State) : Ans :=
  need (v ≤ 1) Code.range s <| need (rd K.jtxState s ≠ 5) Code.state s <|
  if v = 0 then done (jtxOff s)
  else if rd K.jtxEn s = 1 then done s
  else need (linkOk K.jtxParams s) Code.refused s (done (wrs [(K.jtxEn, 1), (K.jtxState, 1)] s))

/-- Whether ranges of entries overlap. -/
def overlaps (a n b m : Nat) : Bool := a < b + m && b < a + n

/-- Whether the ring of a group, at a base and the lengths given, stands clear of the receive region (R322). -/
def ringClear (base : Nat) (lens : List Nat) (s : State) : Bool :=
  lens.all (fun n => !overlaps base n (rd K.jrxBase s) (rd K.jrxLen s))

/-- The lengths that a group's ring uses or will use (R69, R322). -/
def ringLens (g : Nat) (s : State) : List Nat := [rd (K.capLenWrAct g) s, rd (K.capLenRdAct g) s, rd (K.capLen g) s]

/-- Whether the receive region is valid (R322). -/
def rxRegionOk (s : State) : Bool :=
  let b := rd K.jrxBase s
  let n := rd K.jrxLen s
  let u := rd K.jrxUnit s
  b % 64 = 0 && n % 64 = 0 && 0 < n && u < 16 &&
  (if rd K.jrxDest s = 0 then 4160 ≤ b && b + n ≤ 65536 && ringClear (rd (K.capBase u) s) (ringLens u s) s
   else b + n ≤ 0xE000 && linkParam K.jrxParams 0 s * laneRate K.jrxParams s * 64 ≤ 32000000000 * 66)

/-- A write of JRX_EN (R313, R322). -/
def jrxEnBody (v : Nat) (s : State) : Ans :=
  need (v ≤ 1) Code.range s <| need (rd K.jrxState s ≠ 5) Code.state s <|
  if v = 0 then done (jrxOff s)
  else if rd K.jrxEn s = 1 then done s
  else need (linkOk K.jrxParams s && rxRegionOk s) Code.refused s
    (done (wrs [(K.jrxEn, 1), (K.jrxState, 1), (K.jrxWr, 0)] s))

/-- Whether a write of a group's ring base or length keeps the ring clear of an enabled receive region (R322). -/
def ringWriteOk (g base : Nat) (lens : List Nat) (s : State) : Bool :=
  !(rd K.jrxEn s = 1 && rd K.jrxDest s = 0 && rd K.jrxUnit s = g) || ringClear base lens s

/-! ### Bring-up (R314–R316) -/

/-- DEVCLK is present at a frequency and the direction's SerDes PLL locks; the direction enters ALIGN. -/
def execLinkClockReady (d : JesdDir) (devclkHz : Nat) (s : State) : Host.Outcome State Fault Refusal :=
  .next (
    if devclkHz < 50000000 ∨ 800000000 < devclkHz then s
    else
      let s := endFault 210 (wr K.jesdDevclkHz devclkHz s)
      match d with
      | .tx => if rd K.jtxState s = 1 ∧ rateOk K.jtxParams s then wr K.jtxState 2 s else s
      | .rx => if rd K.jrxState s = 1 ∧ rateOk K.jrxParams s then wr K.jrxState 2 s else s)

/-- The transmit LEMC aligns to a DEVCLK edge: a direction in ALIGN goes UP; a link in UP whose boundaries move relocks,
with zero samples for a time that the spec does not state, and its samples are timed from the new LEMC (R315, R324). -/
def alignTx (edge on : Nat) (s : State) : State :=
  let x : Option Lemc := some { edge, seen := edge, on }
  if rd K.jtxState s = 2 then wr K.jtxState 4 { s with jtx := { s.jtx with lemc := x } }
  else if rd K.jtxState s = 4 then
    let r := drawNat s
    { r.2 with jtx := { r.2.jtx with lemc := x, zeros := r.1, origin := on, sent := 0, frame := [] } }
  else s

/-- The receive LEMC aligns to a DEVCLK edge: on to LOCK. -/
def alignRx (edge on : Nat) (s : State) : State :=
  if 2 ≤ rd K.jrxState s ∧ rd K.jrxState s ≤ 4 then
    wr K.jrxState 3 { s with jrx := { s.jrx with lemc := some { edge, seen := edge, on } } }
  else s

/-- A SYSREF edge seen: where it stands among the DEVCLK edges and in time. -/
def Lemc.see (edge on : Nat) (x : Lemc) : Lemc := { x with seen := edge, on }

/-- A SYSREF edge (R314, R315), sampled by a DEVCLK edge of a number at an instant: it aligns the LEMC of a direction in
ALIGN, and is checked against one that is aligned; in mode 0 it aligns that too. -/
def execSysrefEdge (edge on : Nat) (s : State) : Host.Outcome State Fault Refusal :=
  .next (
    let s := toTime on s
    let on := s.now
    let txOff := rd K.jtxState s = 4 && s.jtx.lemc.any (fun x => !x.hits K.jtxParams edge s)
    let rxOff := 3 ≤ rd K.jrxState s && rd K.jrxState s ≤ 4 && s.jrx.lemc.any (fun x => !x.hits K.jrxParams edge s)
    let m := rd K.jesdSysrefMode s
    let s := { s with jtx := { s.jtx with lemc := s.jtx.lemc.map (Lemc.see edge on) }
                      jrx := { s.jrx with lemc := s.jrx.lemc.map (Lemc.see edge on) } }
    let s := if txOff || rxOff then bump K.jesdSysrefMisalign s else s
    let s := if (txOff || rxOff) && m = 1 then raiseFault 208 s else s
    let s := if rd K.jtxState s = 2 ∨ (m = 0 ∧ txOff) then alignTx edge on s else s
    if rd K.jrxState s = 2 ∨ (m = 0 ∧ rxOff) then alignRx edge on s else s)

/-- All receive lanes lock (R314). -/
def execRxLaneLock (s : State) : Host.Outcome State Fault Refusal :=
  .next (if rd K.jrxState s = 3 then wr K.jrxState 4 s else s)

/-- A receive lane loses lock (R316). -/
def execRxLinkLost (s : State) : Host.Outcome State Fault Refusal :=
  .next (if rd K.jrxState s = 4 then raiseFault 209 (bump K.jrxGaps (wr K.jrxState 3 s)) else s)

/-- DEVCLK is lost (R316). -/
def execDevclkLost (s : State) : Host.Outcome State Fault Refusal := .next (raiseFault 210 (wr K.jesdDevclkHz 0 s))

/-! ### Source images (R317, R321) -/

/-- The bytes of the source buffer's burst. -/
def burstVals : Nat := 32

/-- Bursts of samples that an image has. -/
def SrcImg.bursts (i : SrcImg) : Nat := i.samples * i.chans * 2 / 64

/-- The end of the chain as far as it is known, in bursts. -/
def chainEnd (s : State) : Nat := match s.jtx.imgs.getLast? with | some i => i.first + i.bursts | none => 0

/-- The header of a source image at a page, as DRAM holds it. -/
def readSource (page : Nat) (s : State) : Bytes := memBytes (4096 * page) 64 s

/-- What the check of a source header finds (R321); 0 where it passes. -/
def sourceErr (page : Nat) (s : State) : Nat :=
  let h := readSource page s
  let nco := leAt 6 2 h % 2 = 1
  let m := linkParam K.jtxParams 1 s
  let c := leAt 5 1 h
  let n := leAt 8 8 h
  let o := leAt 16 8 h
  if ¬ mapped (4096 * page) 64 s then 6
  else if leAt 0 4 h ≠ 0x4B545343 ∨ leAt 4 1 h ≠ 1 then 1
  else if leAt 60 4 h ≠ crc32c (h.take 60) then 2
  else if c = 0 ∨ 16 < c ∨ c ≠ (if nco then 2 * m else m) then 3
  else if n % 64 ≠ 0 ∨ n < 1024 ∨ 2 ^ 40 < n ∨ o % 64 ≠ 0 ∨ o < 64 ∨ ¬ mapped (4096 * page + o) (2 * n * c) s then 4
  else if leAt 6 2 h / 2 ≠ 0 ∨ leAt 28 32 h ≠ 0 then 5
  else 0

/-- A source header fails: the chain ends at the previous image (R321). -/
def sourceFails (code : Nat) (s : State) : State :=
  let s := raiseFault 212 (wr K.jtxErr code s)
  { s with jtx := { s.jtx with closed := true, header := false, arming := s.jtx.arming && !s.jtx.imgs.isEmpty } }

/-- The image of a page joins the chain, if its header passes. -/
def takeSource (page : Nat) (s : State) : State :=
  if sourceErr page s ≠ 0 then sourceFails (sourceErr page s) s
  else
    let h := readSource page s
    let i : SrcImg := {
      page, chans := leAt 5 1 h, nco := leAt 6 2 h % 2 = 1, samples := leAt 8 8 h, dataOff := leAt 16 8 h, next := leAt 24 4 h
      first := chainEnd s }
    { s with jtx := { s.jtx with imgs := s.jtx.imgs ++ [i], header := false, closed := i.next = 0xFFFFFFFF } }

/-- The header of a page is requested through DP2; a page that is not mapped fails at once. -/
def askHeader (page : Nat) (s : State) : State :=
  if ¬ mapped (4096 * page) 64 s then sourceFails 6 s
  else queueReqs [mkReq 2 (4096 * page) false (.header page) s] { s with jtx := { s.jtx with header := true } }

/-- The DRAM address of a burst of the chain. -/
def sourceAddr (n : Nat) (s : State) : Option Nat :=
  (s.jtx.imgs.find? (fun i => i.first ≤ n && n < i.first + i.bursts)).map (fun i => 4096 * i.page + i.dataOff + 64 * (n - i.first))

/-- Bursts of the source buffer of 512 KiB (R318). -/
def bufferBursts : Nat := 8192

/-- The source asks for what its buffer has room for, and for the next header ahead of play (R318, R321). -/
def refillSource (s : State) : State :=
  if s.jtx.imgs.isEmpty then s
  else
    let upTo := min (chainEnd s) (s.jtx.pos / burstVals + bufferBursts)
    let new := (List.range (upTo - s.jtx.asked)).map (fun i => s.jtx.asked + i)
    let s := queueReqs (new.filterMap (fun n => (sourceAddr n s).map (fun a => mkReq 2 a false (.source n) s))) s
    let s := { s with jtx := { s.jtx with asked := max s.jtx.asked upTo } }
    if s.jtx.closed ∨ s.jtx.header ∨ chainEnd s ≠ s.jtx.asked then s
    else match s.jtx.imgs.getLast? with
      | some i => askHeader i.next s
      | none => s

/-- A burst that DP2 has read arrives (R318). -/
def sourceArrives (n a : Nat) (s : State) : State :=
  refillSource { s with jtx := { s.jtx with buffer := Tab.set n (memBytes a 64 s) s.jtx.buffer } }

/-- A source header arrives. -/
def headerArrives (page : Nat) (s : State) : State := refillSource (takeSource page s)

/-! ### Play (R318–R321) -/

/-- The SYSCLK cycle of the present instant, of 1.6 Tref (its phase against Tref is a DESIGN CHOICE, log 33). -/
def sysCycle (s : State) : Nat := s.now * 5 / (8 * tref)

/-- JTX_CMD: ARM, START, STOP (R318). STOP leaves nothing armed, so that a START that follows in its SYSCLK cycle is refused
(R324). -/
def jtxCommand (v : Nat) (s : State) : Ans :=
  match v with
  | 1 =>
    need (rd K.jtxEn s = 1 && rd K.jtxState s ≠ 5 && rd K.jtxPlay s = 0 && !s.jtx.arming) Code.state s
      (let s := wr K.jtxErr 0 (stopSource s)
       let s := { s with jtx := { s.jtx with arming := true } }
       done (askHeader (rd K.jtxFirstPage s) s))
  | 2 =>
    need (rd K.jtxPlay s = 1) Code.state s
      (done { s with jtx := { s.jtx with startAt := some (s.now + rd K.jtxStartDelay s * tref) } })
  | 3 => done (stopSource s)
  | _ => refuse Code.range s

/-- The source buffer is filled, or the whole chain is in it (R318). -/
def execJtxArmComplete (s : State) : Host.Outcome State Fault Refusal :=
  .next (
    let n := min bufferBursts (chainEnd s)
    if s.jtx.arming ∧ ¬ s.jtx.imgs.isEmpty ∧ (s.jtx.closed ∨ n = bufferBursts) ∧ s.jtx.buffer.length = n then
      wr K.jtxPlay 1 { s with jtx := { s.jtx with arming := false } }
    else s)

/-- The 16-bit value at a place of the chain, where the buffer holds it. -/
def sourceVal (i : Nat) (s : State) : Option Nat :=
  (Tab.find (i / burstVals) s.jtx.buffer).map (fun b => leAt (2 * (i % burstVals)) 2 b)

/-- A result limited to 16 bits, and whether it was (R319). -/
def satSample (v : Int) : Int × Bool :=
  if 32767 < v then (32767, true) else if v < -32768 then (-32768, true) else (v, false)

/-- π in units of 2^−96. -/
def piFix : Nat := 248902613312231085230521944622

/-- The alternating power series of cos or sin in units of 2^−96: `n` terms from the k-th on, the first of which is given,
for the square of the angle. -/
def alternating (sq : Nat) : Nat → Nat → Nat → Int
  | 0, _, _ => 0
  | n + 1, k, term => (term : Int) - alternating sq n (k + 2) (term * sq / 2 ^ 96 / ((k + 1) * (k + 2)))

/-- cos and sin of 2πP ÷ 2^48 in units of 2^−96, each within 2^−90: those of the angle in the first quadrant, turned. -/
def cosSin (p : Nat) : Int × Int :=
  let x := p % 2 ^ 46 * piFix / 2 ^ 47
  let c := alternating (x * x / 2 ^ 96) 24 0 (2 ^ 96)
  let d := alternating (x * x / 2 ^ 96) 24 1 x
  match p / 2 ^ 46 % 4 with
  | 0 => (c, d)
  | 1 => (-d, c)
  | 2 => (-c, -d)
  | _ => (d, -c)

/-- A value in units of 2^−96 scaled by 2^17 − 1 as an integer (R319): itself where it is whole, and one of the two
beside it otherwise, since the rounding is not stated (log 3). -/
def scaled (up : Bool) (v : Int) : Int :=
  let w := v * (2 ^ 17 - 1)
  let near := (w + 2 ^ 95) / 2 ^ 96
  if (w - near * 2 ^ 96).natAbs < 2 ^ 26 then near else w / 2 ^ 96 + (if up then 1 else 0)

/-- cos of the phase P as the NCO has it (R319). -/
def ncoCos (p : Nat) : Int := scaled (Config.ncoCosUp p) (cosSin p).1

/-- sin of the phase P as the NCO has it (R319). -/
def ncoSin (p : Nat) : Int := scaled (Config.ncoSinUp p) (cosSin p).2

/-- The NCO's output for I and Q at a phase (R319). -/
def ncoMix (p i q : Nat) : Int × Bool :=
  satSample ((2 * (toSigned 16 i * ncoCos p - toSigned 16 q * ncoSin p) + 2 ^ 17) / 2 ^ 18)

/-- The samples of the converters from the values of one sample of every channel. -/
def converters (nco : Bool) (p : Nat) : List Nat → List (Int × Bool)
  | i :: q :: t => if nco then ncoMix p i q :: converters nco p t else (toSigned 16 i, false) :: converters nco p (q :: t)
  | [i] => if nco then [] else [(toSigned 16 i, false)]
  | [] => []

/-- The octets of a frame, most significant first: of converter 0 its S samples, then of converter 1 (PRESUMED as in JESD204C,
log 33). -/
def frameOctets (frame : List (List Int)) (m : Nat) : List Nat :=
  (List.range m).flatMap (fun c => frame.flatMap (fun x => let v := ofSigned 16 (x.getD c 0); [v / 256, v % 256]))

/-- The octets of a frame on each lane, F to a lane; those of a lane that JTX_POL inverts are inverted (R313). -/
def frameLanes (frame : List (List Int)) (s : State) : List (List Nat) :=
  let m := linkParam K.jtxParams 1 s
  let l := linkParam K.jtxParams 0 s
  let f := 2 * m * frame.length / max 1 l
  (List.range l).map (fun i =>
    ((frameOctets frame m).drop (i * f)).take f |>.map (fun o => if bitAt (rd K.jtxPol s) i then 255 - o else o))

/-- A sample of every converter leaves; with it a frame of S samples is complete, or goes on (R313). -/
def emit (vals : List Int) (s : State) : State :=
  let frame := s.jtx.frame ++ [vals]
  if frame.length < linkParam K.jtxParams 2 s then { s with jtx := { s.jtx with out := vals, frame } }
  else { s with jtx := { s.jtx with out := vals, frame := [], lanes := frameLanes frame s } }

/-- Zero samples leave (R314). -/
def zeroSample (s : State) : State := emit (List.replicate (linkParam K.jtxParams 1 s) 0) s

/-- The first sample of an image: the phase is set, a staged frequency without a bound group takes effect, and
its time is recorded within ±1 Tref (R318–R320). -/
def beginImage (s : State) : State :=
  let s := if rd K.jtxGroup s = 0xFF then applyNco s.now s else s
  let r := drawBelow 3 s
  wr K.jtxSegTime (actTime (r.2.now / tref + r.1 - 1) r.2) { r.2 with jtx := { r.2.jtx with resync := true } }

/-- The first sample leaves at the first LEMC boundary at or after the start instant (R318). -/
def beginSource (t : Nat) (s : State) : State :=
  wr K.jtxPlay 2 { s with jtx := { s.jtx with
    startAt := none, origin := lemcAfter K.jtxParams s.jtx.lemc t s, sent := 0, frame := [] } }

/-- The instant of the next sample of a source in play, in Tref/1024: samples leave at Fs from the boundary at
which play began (R313, R318). -/
def sampleAt (s : State) : Nat :=
  let f := sampleRate K.jtxParams s
  s.jtx.origin + (s.jtx.sent * 1600000000 * tref * f.2) / f.1

/-- Images that have played out leave the chain where another follows. -/
def dropPlayed (pos : Nat) : List SrcImg → List SrcImg
  | i :: j :: t => if (i.first + i.bursts) * burstVals ≤ pos then dropPlayed pos (j :: t) else i :: j :: t
  | l => l

/-- A sample of the image in play leaves (R319): the next of every channel. -/
def playSample (i : SrcImg) (vals : List Nat) (s : State) : State :=
  let s := if s.jtx.pos = i.first * burstVals then beginImage s else s
  let reset := s.jtx.resync
  let p := if reset then rd K.jtxNcoPhase0 s * 2 ^ 32 else s.jtx.phase
  let r := converters i.nco p vals
  let mute := s.jtx.zeros ≠ 0
  let s := if mute then s else incSat 32 K.jtxSat (r.filter (·.2)).length s
  let pos := s.jtx.pos + i.chans
  let s := { s with jtx := { s.jtx with
    pos, resync := false, sent := s.jtx.sent + 1
    phase := (p + rd K.jtxNcoFtw s) % 2 ^ 48
    resetAt := if reset then some s.now else s.jtx.resetAt
    zeros := s.jtx.zeros - 1
    buffer := s.jtx.buffer.filter (fun (x : Nat × Bytes) => pos / burstVals ≤ x.1) } }
  refillSource (emit (if mute then List.replicate r.length 0 else r.map (·.1)) s)

/-- The next sample of a source in play, the end of its chain, or an underrun (R318, R321). -/
def dueSample (s : State) : State :=
  let s := toTime (sampleAt s) s
  let s := { s with jtx := { s.jtx with imgs := dropPlayed s.jtx.pos s.jtx.imgs } }
  match s.jtx.imgs with
  | [] => zeroSample (stopSource s)
  | i :: _ =>
    if s.jtx.pos = (i.first + i.bursts) * burstVals ∧ s.jtx.closed then zeroSample (stopSource s)
    else
      let vals := ((List.range i.chans).filterMap (fun c => sourceVal (s.jtx.pos + c) s))
      if vals.length < i.chans ∨ s.jtx.pos = (i.first + i.bursts) * burstVals then
        zeroSample (stopSource (raiseFault 213 (bump K.jtxUnderruns s)))
      else playSample i vals s

/-- A sample of the transmit link is due: of a source in play, or of one whose start instant has come, else zero
(R314, R318–R321). A fenced transmitter sends zero samples while DEVCLK is present (R316). -/
def execSourceSample (s : State) : Host.Outcome State Fault Refusal :=
  .next (
    if rd K.jtxState s = 5 then (if rd K.jesdDevclkHz s = 0 then s else zeroSample s)
    else if rd K.jtxState s ≠ 4 then s
    else if rd K.jtxPlay s = 2 then dueSample s
    else match s.jtx.startAt with
      | some t => if rd K.jtxPlay s = 1 ∧ t ≤ s.now then dueSample (beginSource t s) else zeroSample s
      | none => zeroSample s)

/-! ### The NCO (R320) -/

/-- A write of the tuning word (R320). -/
def ftwWrite (v : Nat) (s : State) : Ans :=
  if rd K.jtxPlay s = 0 then done (wrs [(K.jtxNcoFtw, v), (K.jtxNcoPending, 0)] { s with jtx := { s.jtx with ftwNew := none } })
  else if v = rd K.jtxNcoFtw s then done (wr K.jtxNcoPending 0 { s with jtx := { s.jtx with ftwNew := none } })
  else
    let at_ := match s.jtx.ftwNew with | some (_, t) => t | none => s.now
    done (wr K.jtxNcoPending 1 { s with jtx := { s.jtx with ftwNew := some (v, at_) } })

/-- A write of the frequency in mHz, converted to the nearest tuning word, ties up (R325); refused while the
sample rate is not known. -/
def ncoFreqWrite (mhz : Nat) (s : State) : Ans :=
  let r := sampleRate K.jtxParams s
  need (r.1 ≠ 0) Code.state s <|
    let v := roundDiv (mhz * 2 ^ 48 * r.2) (1000 * r.1)
    need (v < 2 ^ 48) Code.range s (ftwWrite v s)

/-- The tuning word as a frequency in mHz, to nearest, ties up. -/
def ncoFreqRead (s : State) : Nat :=
  let r := sampleRate K.jtxParams s
  if r.2 = 0 then 0 else roundDiv (rd K.jtxNcoFtw s * 1000 * r.1) (2 ^ 48 * r.2)

/-! ### Receive (R322–R324) -/

/-- The unit ID whose memory the receiver writes (R322). -/
def rxUnitId (s : State) : Nat := if rd K.jrxDest s = 0 then rd K.jrxUnit s else 0x10 + rd K.jrxUnit s

/-- JRX_CMD: START, STOP (R323). START begins a capture anew at the start of the region; in the SYSCLK cycle of a STOP it has
no effect (R324). -/
def jrxCommand (v : Nat) (s : State) : Ans :=
  match v with
  | 1 => need (rd K.jrxEn s = 1 && rd K.jrxState s ≠ 5) Code.state s
      (done (if s.jrx.stopAt.any (fun x => x.1 == sysCycle s) then s
             else wr K.jrxWr 0
               { s with jrx := { s.jrx with capturing := true, fresh := true, recorded := 0, part := [], base := 0 } }))
  | 2 =>
    let was := s.jrx.capturing || s.jrx.stopAt = some (sysCycle s, true)
    done { s with jrx := { s.jrx with capturing := false, stopAt := some (sysCycle s, was) } }
  | _ => refuse Code.range s

/-- A unit of the region is written (R322): an entry of capture memory or a word of XM. -/
def rxPut (o v : Nat) (s : State) : State :=
  let a := rd K.jrxBase s + o
  let u := rd K.jrxUnit s
  if rd K.jrxDest s = 0 then modGrp u (fun x => { x with capMem := Tab.set a v x.capMem }) s
  else modPe u (secondPort s.time.sys 0 a (BitVec.ofNat 32 v)) s

/-- The place of the next unit and the posts of a unit written (R323). -/
def rxAdvance (s : State) : State :=
  let w := rd K.jrxWr s + 1
  let n := rd K.jrxLen s
  if rd K.jrxMode s = 0 then
    let s := wr K.jrxWr (if w < n then w else 0) s
    if w = n / 2 ∨ n ≤ w then post (rd K.jrxTask s) s else s
  else
    let k := s.jrx.recorded + 1
    let s := wr K.jrxWr w { s with jrx := { s.jrx with recorded := k } }
    if min (rd K.jrxRecUnits s) n ≤ k then post (rd K.jrxTask s) { s with jrx := { s.jrx with capturing := false } } else s

/-- The 16-bit samples of a unit of the region: 8 of an entry of capture memory, 2 of a word of XM (R322). -/
def unitSamples (s : State) : Nat := if rd K.jrxDest s = 0 then 8 else 2

/-- A unit of samples, the earliest in the lowest bits (R322). -/
def packUnit : List Nat → Nat
  | [] => 0
  | v :: t => v + 2 ^ 16 * packUnit t

/-- The first sample of a capture: JRX_START_TIME takes the LEMC boundary that it lies on or after (R323). -/
def rxBegin (s : State) : State :=
  wr K.jrxStartTime (actAt (lemcBefore K.jrxParams s.jrx.lemc s.now s) s) { s with jrx := { s.jrx with fresh := false } }

/-- Samples join the unit in progress, each unit that they complete is written, and a record that is complete takes no
more (R322, R323). -/
def rxTake : List Nat → State → State
  | [], s => s
  | v :: t, s =>
    if !s.jrx.capturing then s
    else
      let part := s.jrx.part ++ [v]
      if part.length < unitSamples s then rxTake t { s with jrx := { s.jrx with part } }
      else rxTake t (rxAdvance (rxPut (rd K.jrxWr s) (packUnit part) { s with jrx := { s.jrx with part := [] } }))

/-- Whether n more samples complete the record (R323). -/
def endsRecord (n : Nat) (s : State) : Bool :=
  rd K.jrxMode s = 1 &&
  min (rd K.jrxRecUnits s) (rd K.jrxLen s) ≤ s.jrx.recorded + (s.jrx.part.length + n) / unitSamples s

/-- Whether samples are captured: in a capture, or in the SYSCLK cycle of the STOP that ended it where they complete the
record, which is then complete (R324). -/
def captures (n : Nat) (s : State) : Bool :=
  s.jrx.capturing || (s.jrx.stopAt = some (sysCycle s, true) && endsRecord n s)

/-- A sample of every converter arrives (R316, R322, R323), in the order of the converters. A record of no unit ends with
the first. -/
def execRxSample (vals : List (BitVec 16)) (crcErrs : Nat) (s : State) : Host.Outcome State Fault Refusal :=
  .next (
    if rd K.jrxState s ≠ 4 ∨ vals.length ≠ linkParam K.jrxParams 1 s then s
    else
      let s := incSat 32 K.jrxCrcErrs crcErrs s
      if !captures vals.length s ∨ fenced (rxUnitId s) s ∨ s.now < s.jrx.base then s
      else
        let s := if s.jrx.fresh then rxBegin s else s
        if rd K.jrxMode s = 1 ∧ rd K.jrxRecUnits s = 0 then
          post (rd K.jrxTask s) { s with jrx := { s.jrx with capturing := false, stopAt := none } }
        else
          let stop := !s.jrx.capturing
          let s := rxTake (vals.map (·.toNat)) { s with jrx := { s.jrx with capturing := true } }
          if stop then { s with jrx := { s.jrx with stopAt := none } } else s)

/-- The unit that the receiver writes is fenced (R322): one gap; what has not filled a unit is discarded, and a record ends
incomplete. -/
def rxUnitFenced (u : Nat) (s : State) : State :=
  if rd K.jrxEn s = 1 ∧ rxUnitId s = u then
    let s := bump K.jrxGaps s
    let s := { s with jrx := { s.jrx with part := [] } }
    if s.jrx.capturing ∧ rd K.jrxMode s = 1 then
      { s with jrx := { s.jrx with capturing := false, ended := u :: s.jrx.ended } } else s
  else s

/-- That unit leaves FENCED (R322): the task of a record ended by its fence is posted; a capture in progress goes on at the
first LEMC boundary after it. -/
def rxUnitReleased (u : Nat) (s : State) : State :=
  let s := if s.jrx.ended.contains u then
      post (rd K.jrxTask s) { s with jrx := { s.jrx with ended := s.jrx.ended.filter (· != u) } } else s
  if rd K.jrxEn s = 1 ∧ rxUnitId s = u ∧ s.jrx.capturing then
    { s with jrx := { s.jrx with base := max s.jrx.base (lemcAfter K.jrxParams s.jrx.lemc (s.now + 1) s) } }
  else s

/-! ### Fences of the directions (R316) -/

/-- The transmit direction is fenced: play stops, zero samples follow. -/
def fenceTx (s : State) : State := wr K.jtxState 5 (stopSource s)

/-- The receive direction is fenced: it writes nothing. -/
def fenceRx (s : State) : State := wr K.jrxState 5 { s with jrx := { s.jrx with capturing := false } }

end Sys2Proof.Machine
end

