-- ==== Sys2Proof/Machine/Memory.lean ====
section
/-! DEFINITION. What the DDR5 controller does of its own: issuing and completing bursts, refresh, training,
speed changes, initialisation and scrubbing (08_dram_and_streaming.md). -/
namespace Sys2Proof.Machine

/-! ### Issuing commands (R191, R202) -/

/-- The bank index of a request's burst, counted over all subchannels. -/
def bankIndex (a : Nat) (s : State) : Nat := 4 * subchannelOf a s + bankOf a s

/-- Whether a bank index is blocked by a REFsb (R194). -/
def bankBlocked (i : Nat) (s : State) : Bool := s.dram.blocked.any (fun x => x.1 == i && s.now < x.2)

/-- tREFI of a subchannel in Tref/1024 (R194). -/
def tRefi (u : Nat) (s : State) : Nat := if s.dram.hot.testBit u then 1560 * tref else 3120 * tref

/-- tRFCsb in Tref/1024 (R194). -/
def tRfc (s : State) : Nat := (if rd K.dramDensity s = 32 then 304 else 208) * tref

/-- The instant up to which a bank index has had the REFsb of every interval. -/
def refUpTo (i : Nat) (s : State) : Nat := Tab.get s.dram.refFrom i s.dram.refAt

/-- Refresh intervals that have come due for a bank index and have not had their REFsb. -/
def refDue (i u : Nat) (s : State) : Nat := (s.now - refUpTo i s) / tRefi u s

/-- The rank of a request in DP0's order: the lead of an engine whose lead is urgent, otherwise last (R202). -/
def reqLead (r : DReq) (s : State) : Nat :=
  match r.owner with
  | .fetch g _ =>
    let l := leadNs g s
    if l < rd (K.rfUrgentNs (leader g s)) s then l else 0xFFFFFFFF
  | _ => 0xFFFFFFFF

/-- The refill engine of a request. -/
def Owner.engine : Owner → Nat
  | .fetch g _ => g
  | _ => 16

/-- The rank of a request within its group (R202). -/
def reqRank (r : DReq) : Nat := match r.owner with | .fetch _ k => fetchRank k | _ => 0

/-- The requests for which a figure is least, in their order. -/
def leastReqs (f : DReq → Nat) (l : List DReq) : List DReq :=
  match l.map f with
  | [] => []
  | a :: t => l.filter (fun r => f r == t.foldl min a)

/-- The place of an engine in a rotation behind the one served last. -/
def turnOf (last g : Nat) : Nat := (g + 15 - last) % 16

/-- The engine whose DP0 request a subchannel serves next, of requests that are ready: the urgent one of least lead,
otherwise the next in rotation (R202). -/
def nextEngine (u : Nat) (l : List DReq) (s : State) : Option Nat :=
  let urgent := leastReqs (fun r => reqLead r s) (l.filter (fun r => reqLead r s < 0xFFFFFFFF))
  let last := Tab.get 15 u s.dram.turn
  let pick := if urgent.isEmpty then leastReqs (fun r => turnOf last (r.owner.engine)) l else urgent
  pick.head?.map (fun r => r.owner.engine)

/-- The next burst of each DMA channel on DP3, which stands without being listed (R191). -/
def standingDma (s : State) : List DReq :=
  (List.range 16).flatMap (fun e => (List.range 4).filterMap (fun c =>
    if s.dram.reqs.any (fun r => r.owner == .dma e c) then none
    else (dmaBurst e c s).map (fun b => { port := 3, addr := b.1, write := b.2, owner := .dma e c, at0 := ((pe e s).ch c).at0 })))

/-- The requests that stand without being listed: those of DMA, and the patrol scrubber's next read on DP5 (R191, R200). -/
def standing (s : State) : List DReq :=
  standingDma s ++
  if rd K.scrubHours s = 0 ∨ s.dram.reqs.any (fun r => r.owner == .scrub) ∨ ¬ mapped (64 * s.dram.scrubAt) 64 s then []
  else [{ port := 5, addr := 64 * s.dram.scrubAt, write := false, owner := .scrub, at0 := s.dram.scrubFrom }]

/-- Whether a bank index awaits a forced REFsb, so that requests not yet issued to it wait (R195). -/
def bankHeld (i : Nat) (s : State) : Bool :=
  5 ≤ refDue i (i / 4) s && s.dram.reqs.any (fun r => r.port == 0 && bankIndex r.addr s == i)

/-- The request that a subchannel serves next: of the highest-priority port; within DP0 of the engine whose turn it is, its
TSLOAD records and heads ahead of its other requests (R191, R202). -/
def nextCommand (u : Nat) (s : State) : Option DReq :=
  let ready := (s.dram.reqs ++ standing s).filter (fun r => !r.issued && subchannelOf r.addr s == u &&
    !bankBlocked (bankIndex r.addr s) s && !bankHeld (bankIndex r.addr s) s)
  let top := leastReqs (·.port) ready
  match top with
  | [] => none
  | a :: _ =>
    if a.port ≠ 0 then some a
    else match nextEngine u top s with
      | some g => (leastReqs reqRank (top.filter (fun r => r.owner.engine == g))).head?
      | none => none

/-- A request issued: it stands behind those issued before it; one that was not listed joins as such. -/
def markIssued (r : DReq) (l : List DReq) : List DReq := l.erase r ++ [{ r with issued := true }]

/-- Whole ns of a span in Tref/1024. -/
def spanNs (t : Nat) : Nat := t * 5 / 8192

/-- The controller issues the next command on a subchannel (R191). -/
def execDramCommandIssue (u : Fin 8) (s : State) : Host.Outcome State Fault Refusal :=
  .next (
    if rd K.dramReady s = 0 ∨ s.dram.pause = some u.val then s
    else match nextCommand u s with
      | none => s
      | some r =>
        let w := spanNs (s.now - r.at0)
        let s := if rd (K.dpWaitMaxNs r.port) s < w then wr (K.dpWaitMaxNs r.port) (min (2 ^ 32 - 1) w) s else s
        modDram (fun d => { d with
          reqs := markIssued r d.reqs
          turn := if r.port = 0 ∧ reqLead r s = 0xFFFFFFFF then Tab.set u r.owner.engine d.turn else d.turn
          scrubAt := if r.owner = .scrub then d.scrubAt + 1 else d.scrubAt }) s)

/-! ### What a fetch brings (R96, R97, R202) -/

/-- A member's granule joins its cache in a block. -/
def addGran (g page n blk : Nat) (r : GranOut) (pinned locked : Bool) (s : State) : State :=
  modGrp g (fun x => { x with grans := x.grans ++ [{ page, n, blk, units := r.units, bytes := r.bytes, pinned, locked, played := s.now }] }) s

/-- A block of a member's granule fails (R97): of a segment the first failing granule is kept. -/
def noteBlockErr (g : Nat) (e : FmtErr) (s : State) : State :=
  match blockErrOf g e.page s with
  | some b => if e.gran < b.gran then
      modGrp g (fun x => { x with blockErrs := e :: x.blockErrs.filter (fun y => y.page != e.page) }) s else s
  | none => modGrp g (fun x => { x with blockErrs := e :: x.blockErrs }) s

/-- The error of the granule that follows one just checked (R96, R97). -/
def noteAfter (g : Nat) (r : GranOut) (s : State) : State :=
  match r.after with | some e => noteBlockErr g e s | none => s

/-- A granule whose bytes have all arrived is checked (R91, R96, R202). One at or behind a format error of its segment,
such as a wrong table entry for it, which the granule before it has shown, does not become present (R97). -/
def granArrives (g page n blk : Nat) (s : State) : State :=
  let l := leader g s
  match headOf l page s with
  | none => s
  | some h => match decodeGranule h (g - l) n s with
    | .ok r => noteAfter g r (if granBad g (page, n) s then s else addGran g page n blk r false false s)
    | .error e => noteBlockErr g e s

/-- Granules of a sealed image that a member decodes once its tag is verified, each into a block of its cache, until one
fails (R405, R406). One for which no block can be reclaimed is fetched again when play needs it. -/
def decodeSealed (h : Head) (g mem : Nat) : Nat → Nat → State → State
  | 0, _, s => s
  | k + 1, n, s => match decodeGranule h mem n s with
    | .error e => noteBlockErr g e s
    | .ok r =>
      let s := match (grp g s).room (streamBlocks (leader g s) s) r.bytes (keeps (leader g s) s) with
        | some (b, x) => addGran g h.key n b r false true (setGrp g x s)
        | none => s
      match r.after with
      | some e => noteBlockErr g e s
      | none => decodeSealed h g mem k (n + 1) s

/-- Granules of a pinned image that a member decodes, until one fails (R151). The granule behind the last of them is not
pinned, so that its table entry refuses no arming. -/
def decodePinned (h : Head) (g mem : Nat) : Nat → Nat → State → State × Option FmtErr
  | 0, _, s => (s, none)
  | k + 1, n, s => match decodeGranule h mem n s with
    | .error e => (s, some e)
    | .ok r =>
      let s := addGran g h.key n 0 r true h.isSealed s
      match r.after with
      | some e => if k = 0 then (noteBlockErr g e s, none) else (s, some e)
      | none => decodePinned h g mem k (n + 1) s

/-- A format error of a pinned image during arming (R141, R151). -/
def notePinErr (l : Nat) (e : FmtErr) (s : State) : State :=
  modSeq l (fun q => { q with pinErr := match q.pinErr with | some x => some x | none => some e }) s

/-- A pinned page becomes resident for one member, or an error of it stands (R151). -/
def pinMember (l g n : Nat) (h : Head) (s : State) : State :=
  let r := decodePinned h g (g - l) n 0 s
  match r.2 with | some e => notePinErr l e r.1 | none => r.1

/-- The first granules of a pinned image arrive for a member; with those of the last member the page becomes resident in
all of them, as one unit (R151, R177). -/
def pinnedArrives (g page : Nat) (s : State) : State :=
  let l := leader g s
  match headOf l (keyOf l page s) s with
  | none => s
  | some h =>
    if (members l s).any (fun m => fetching m (.pinned page) s) then s
    else forEach (members l s) (fun m s => pinMember l m (min h.gcount 64) h s) s

/-- Whether an arming is in progress. -/
def arming (l : Nat) (s : State) : Bool := rd (K.runArmBusy l) s = 1

/-- The head of a page fails its check (R96, R97, R141): the first segment's and a pinned one's refuse an arming; an
IU that waits for it ends its issue there; one fetched ahead of its boundary keeps the failure for it (R154). -/
def headFailsAt (l page : Nat) (e : FmtErr) (s : State) : State :=
  let s := if arming l s ∧ isPinnedPage l page s then notePinErr l e s else s
  if arming l s ∧ (seq l s).first = page then modSeq l (fun q => { q with firstErr := some e }) s
  else if (seq l s).wait = .head page then headStops l e (modSeq l (fun q => { q with wait := .none }) s)
  else if (seq l s).pre = some page then modSeq l (fun q => { q with preErr := some e }) s
  else s

/-- A pinned page's head stands: its content is fetched, or the image does not fit (R151). -/
def startPinned (l page : Nat) (h : Head) (s : State) : State :=
  if ¬ (arming l s ∧ isPinnedPage l page s) then s
  else
    let fits := h.isPinned && (List.range (members l s).length).all (fun i => pinnedSpan h i s ≤ 65536) &&
      (!h.isSealed || h.imageBytes ≤ 65536)
    if !fits then modSeq l (fun q => { q with pinBad := true }) s
    else if h.isSealed ∨ pinHeld l page s then s
    else forEach (members l s) (fun g s => startFetch g (.pinned page) (pinnedBursts h (g - l) s) s) s

/-- An IU that waits for a head goes on when it stands (R113, R202). -/
def wakeHead (l page : Nat) (s : State) : State :=
  if (seq l s).wait = .head page then
    reachPc l (pcOf l s) (modSeq l (fun q => { q with wait := .none, page := keyOf l page s, iuAt := max q.iuAt s.now }) s)
  else s

/-- A head with the key of its load: that of the latest load of its page, or a new one where it found other content (R98). -/
def keyed (l : Nat) (h : Head) (s : State) : Head :=
  match (seq l s).heads.find? (fun x => x.page == h.page) with
  | some x => if { h with key := x.key } = x then x else { h with key := x.key + 2 ^ 32 }
  | none => h

/-- A member's part of a head has arrived; with the last of them the head is checked (R96, R202). -/
def headArrives (l page : Nat) (s : State) : State :=
  if headComing l page s then s
  else
    let h := readHead page s
    match headStage l h s with
    | some e => headFailsAt l page (fmtOfFailure page e) s
    | none =>
      let h := keyed l (loadHead h (image h s)) s
      let s := modSeq l (fun q => { q with heads := h :: q.heads.filter (fun x => x.key != h.key) }) s
      wakeHead l page (startPinned l page h s)

/-- A TSLOAD record has arrived (R179). -/
def recordArrives (l j : Nat) (s : State) : State :=
  match (seq l s).load with
  | none => s
  | some d =>
    let a := 4096 * d.page + (j % (members l s).length * d.count + j / (members l s).length) * 640
    modSeq l (fun q => { q with load := some { d with
      recs := Tab.set j (memBytes a 640 s) d.recs
      recAt := Tab.set j s.now d.recAt
      arrived := d.arrived + 1
      firstAt := some (d.firstAt.getD s.now) } }) s

/-- A whole fetch has arrived; `blk` is the block of the cache that a granule takes. -/
def fetchArrives (g : Nat) (k : FetchKind) (blk : Nat) (s : State) : State :=
  match k with
  | .head page => headArrives (leader g s) page s
  | .gran page n => granArrives g page n blk s
  | .pinned page => pinnedArrives g page s
  | .tsrec j => recordArrives g j s
  | .sealedImage _ => s

/-- One burst of a group's fetch is back, good or bad; a fetch whose last burst is back takes effect. A sealed
image waits for its tag (R405). -/
def fetchBurst (g : Nat) (k : FetchKind) (bad : Bool) (s : State) : State :=
  let step := fun (x : Fetch) => if x.kind == k then { x with out := x.out - 1, bad := x.bad || bad } else x
  let old := s
  let s := modGrp g (fun x => { x with fetches := x.fetches.map step }) s
  let whole := (grp g s).fetches.find? (fun x => x.kind == k && x.todo.isEmpty && x.out == 0 && !x.bad)
  let s := match k, whole with
    | .sealedImage _, _ => s
    | _, some x => fetchArrives g k x.blk (modGrp g (fun x => { x with fetches := x.fetches.filter (fun y => y.kind != k) }) s)
    | _, none => s
  refillGang (leader g s) (prepEnds (leader g s) old s)

/-! ### Spill bursts (R70, R74) -/

/-- Bytes of a spill burst written at the region's offset, with fresh check bits (R199). -/
def spillWrite (a : Nat) (es : List Nat) (s : State) : State :=
  memWrite a (es.flatMap entryBytes) (clearBad (a / 64 * 64) s)

/-- A capture spill burst is written (R70). -/
def capSpilled (g : Nat) (s : State) : State :=
  match (grp g s).spillCap with
  | none => s
  | some n =>
    let off := rd (K.capSpillWr g) s
    let s := spillWrite (rd (K.capSpillBase g) s + off) (oldestEntries g n s) s
    let s := wr (K.capSpillWr g) ((off + 16 * n) % max 1 (rd (K.capSpillSize g) s)) s
    modGrp g (fun x => { x with capDone := true, capHeld := x.capHeld + 16 * n }) s

/-- A fail spill burst is written (R70, R74). -/
def failSpilled (g : Nat) (s : State) : State :=
  match (grp g s).spillFail with
  | none => s
  | some n =>
    let off := rd (K.failSpillWr g) s
    let s := spillWrite (rd (K.failSpillBase g) s + off) ((grp g s).fifo.take n) s
    let s := wr (K.failSpillWr g) ((off + 16 * n) % max 1 (rd (K.failSpillSize g) s)) s
    modGrp g (fun x => { x with failDone := true, failHeld := x.failHeld + 16 * n }) s

/-! ### Completing bursts (R199) -/

/-- The first request of a list that a completion answers: issued, of the port and burst, and for DP5 the first
that is issued (R191). -/
def completed (port a : Nat) (s : State) : Option DReq :=
  let l := s.dram.reqs.filter (fun r => r.issued && r.port == port)
  if port = 5 then l.head?.bind (fun r => if r.addr = a then some r else none)
  else l.find? (fun r => r.addr == a)

/-- Bytes moved through a port (R207). -/
def countBytes (port : Nat) (s : State) : State := incWrap 64 (K.dpBytes port) 64 s

/-- What the completion of a read or write does with its data. -/
def deliverBurst (r : DReq) (bad : Bool) (s : State) : State :=
  match r.owner, bad with
  | .fetch g k, _ => fetchBurst g k bad s
  | .dropped _, _ => s
  | .capSpill g, _ => capSpilled g s
  | .failSpill g, _ => failSpilled g s
  | .header page, false => headerArrives page s
  | .source n, false => sourceArrives n r.addr s
  | .header _, true => s
  | .source _, true => s
  | .dma e c, false => checkNext e (if r.write then dmaWrote e c s else dmaGot e c s)
  | .dma _ _, true => s
  | .rqSpill j words, _ => itemSpilled j words s
  | .rqFetch q j, false => itemBack q j s
  | .rqFetch _ _, true => loseBurst r.addr s
  | .scrub, _ => modDram (fun d => { d with scrubFrom := s.now }) s
  | .writeBack, _ => clearBad r.addr s

/-- The fault of an uncorrected read of a port (R199, R345): a DP0 read of its group, DP2 of the transmit direction, DP3 of
the engine, DP4 of the Result Queue Manager, and a scrub read of its location. That the unit has dropped the read
meanwhile changes nothing. -/
def Owner.readFault (a : Nat) (s : State) : Owner → Option Nat
  | .fetch g _ => some (265 + 16 * g)
  | .header _ => some 211
  | .source _ => some 211
  | .dma e _ => some (131 + 4 * e)
  | .rqFetch _ _ => some 42
  | .scrub => some (67 + 8 * (subchannelOf a s / 2))
  | .dropped o => o.readFault a s
  | _ => none

/-- The fault of an uncorrected read is raised (R199). -/
def readFault (r : DReq) (s : State) : State :=
  match r.owner.readFault r.addr s with
  | some n => raiseFault n s
  | none => s

/-- A burst of a request completes. -/
def completeReq (r : DReq) (ecc : Ecc) (s : State) : State :=
  let s := countBytes r.port (modDram (fun d => { d with reqs := d.reqs.erase r }) s)
  if r.write then deliverBurst r false s
  else match eccOf r.addr ecc s with
    | .clean => deliverBurst r false s
    | .corrected => deliverBurst r false (correctedBurst r.addr s)
    | .uncorrected => deliverBurst r true (readFault r (uncorrectedBurst r.addr s))

/-- A DRAM burst completes; its data are checked by ECC and delivered (R199). -/
def execDramBurstComplete (port : Fin 6) (addr : Nat) (ecc : Ecc) (s : State) : Host.Outcome State Fault Refusal :=
  .next (
    let a := addr / 64 * 64
    match completed port a s with
    | some r => completeReq r ecc s
    | none => s)

/-- A DP0 burst is outstanding for more than 20 µs (R203), be its data still wanted or not. -/
def execDp0Timeout (g : Fin 16) (s : State) : Host.Outcome State Fault Refusal :=
  .next (
    if s.dram.reqs.any (fun r => r.owner.fromGroup g && r.at0 + 32000 * tref < s.now) then raiseFault (266 + 16 * g) s else s)

/-- The last byte of a sealed image has arrived for a member, and its tag is verified (R405): its granules stay
locked from then on (R406). -/
def verifySealed (g page : Nat) (s : State) : State :=
  let l := leader g s
  let old := s
  let s := modGrp g (fun x => { x with fetches := x.fetches.filter (fun y => y.kind != .sealedImage page) }) s
  let h := readHead page s
  let cause := sealCause h s
  let s := if g ≠ l then s
    else if cause = 0 then modSlot h.slot (fun k => { k with uses := min (2 ^ 32 - 1) (k.uses + 1) }) s
    else wr K.secSealErr cause (modSlot h.slot (fun k => { k with fails := min (2 ^ 32 - 1) (k.fails + 1) }) s)
  let s := if cause = 0 ∧ (headStage l h s).isNone then
      let h := keyed l (loadHead h (image h s)) s
      if arming l s ∧ isPinnedPage l page s then
        pinMember l g h.gcount h s
      else decodeSealed h g (g - l) h.gcount 0 s
    else s
  refillGang l (prepEnds l old (headArrives l page s))

/-- The tag of a sealed image is verified (R405). -/
def execSealedTagVerify (g : Fin 16) (s : State) : Host.Outcome State Fault Refusal :=
  .next (
    match (grp g s).fetches.find? (fun x =>
      (match x.kind with | .sealedImage _ => true | _ => false) && x.todo.isEmpty && x.out == 0 && !x.bad) with
    | some x => (match x.kind with | .sealedImage page => verifySealed g page s | _ => s)
    | none => s)

/-! ### Refresh (R194, R195) -/

/-- Whether a request of a bank index is queued or in flight. The scrubber's next read counts once it is issued. -/
def bankWanted (i : Nat) (dp0 : Bool) (s : State) : Bool :=
  (s.dram.reqs ++ standingDma s).any (fun r => bankIndex r.addr s == i && (!dp0 || r.port == 0))

/-- The largest postponement seen on a channel (R195). -/
def notePostponed (c n : Nat) (s : State) : State :=
  if rd (K.dcRefPostponedMax c) s < n then wr (K.dcRefPostponedMax c) n s else s

/-- The REFsb of n intervals are issued: the bank index is blocked for tRFCsb each (R194). -/
def refreshBank (i n : Nat) (s : State) : State :=
  modDram (fun d => { d with
    refAt := Tab.set i (refUpTo i s + n * tRefi (i / 4) s) d.refAt
    blocked := (i, s.now + n * tRfc s) :: d.blocked.filter (fun x => x.1 != i && s.now < x.2) }) s

/-- Whether a subchannel can be refreshed by command: its devices are trained and not in self-refresh, and it is in
service (R186, R198). -/
def refreshable (u : Nat) (s : State) : Bool :=
  rd K.dramMappedBytes s != 0 && rd K.dramSpeedStatus s != 2 && !fenced (0x20 + u / 2) s && s.dram.pause != some u

/-- Every REFsb that is due on a subchannel is issued (R196). -/
def refreshAll (u : Nat) (s : State) : State :=
  forEach (List.range 4) (fun b s =>
    let i := 4 * u + b
    let n := refDue i u s
    if n = 0 then s else refreshBank i n (notePostponed (u / 2) (min 4 (n - 1)) s)) s

/-- REFsb of a bank index that is due and that nobody requests (R194), also while the memory is initialised. -/
def execRefresh (u : Fin 8) (bank : Fin 4) (s : State) : Host.Outcome State Fault Refusal :=
  .next (
    let i := 4 * u.val + bank.val
    let n := refDue i u s
    if n = 0 ∨ ¬ refreshable u s ∨ bankWanted i false s ∨ bankBlocked i s then s
    else refreshBank i 1 (notePostponed (u.val / 2) (min 4 (n - 1)) s))

/-- After 4 postponed intervals the REFsb is forced; DP0 requests issued to the bank have completed (R195). -/
def execForcedRefresh (u : Fin 8) (bank : Fin 4) (s : State) : Host.Outcome State Fault Refusal :=
  .next (
    let i := 4 * u.val + bank.val
    if refDue i u s < 5 ∨ ¬ refreshable u s ∨ ¬ bankWanted i true s ∨ bankBlocked i s ∨
        s.dram.reqs.any (fun r => r.issued && bankIndex r.addr s == i) then s
    else refreshBank i 1 (bump (K.dcRefForced (u.val / 2)) (notePostponed (u.val / 2) 4 s)))

/-! ### Training (R196, R197) -/

/-- Whether every group in ARMED, RUNNING or PAUSED leaves room for a pause (R197). -/
def pauseAllowed (s : State) : Bool :=
  (List.range 16).all (fun l => leader l s != l || !busyState (runState l s) || leadReached l (rd K.trainMinLeadNs s) s)

/-- A retraining step begins its pause on a subchannel, with every REFsb that is due there issued first (R196, R197). -/
def execTrainingPause (u : Fin 8) (s : State) : Host.Outcome State Fault Refusal :=
  .next (
    if s.dram.pause.isSome ∨ rd K.dramReady s = 0 ∨ fenced (0x20 + u.val / 2) s ∨ ¬ pauseAllowed s ∨
        s.dram.reqs.any (fun r => r.issued && subchannelOf r.addr s == u.val) then s
    else
      let s := wr (K.dcState (u.val / 2)) (1 + u.val % 2) (refreshAll u s)
      modDram (fun d => { d with
        pause := some u.val, passing := if d.passing.contains u.val then d.passing else u.val :: d.passing }) s)

/-- A training pause ends with its evaluation (R196): whether the step passes and is the last of its pass. A
step that a speed request awaits ends its pass (R198). -/
def execTrainingPauseEnd (u : Fin 8) (passing last : Bool) (s : State) : Host.Outcome State Fault Refusal :=
  .next (
    if s.dram.pause ≠ some u.val then s
    else
      let ended := last || !passing || s.dram.discard
      let s := if !s.dram.discard && passing && last then wr K.trainLastTime (actAt s.now s) s else s
      let s := if s.dram.discard then bump K.trainDiscarded s
        else if passing then s else raiseFault (66 + 8 * (u.val / 2)) s
      let s := if fenced (0x20 + u.val / 2) s then s else wr (K.dcState (u.val / 2)) 0 s
      modDram (fun d => { d with
        pause := none, discard := false
        passing := if ended then d.passing.filter (· != u.val) else d.passing
        deferred := if ended then d.deferred.filter (· != u.val) else d.deferred }) s)

/-- A pass has waited more than 1 s (R197): reported once for the pass. -/
def execTrainingDeferred (u : Fin 8) (s : State) : Host.Outcome State Fault Refusal :=
  .next (
    if s.dram.deferred.contains u.val ∨ pauseAllowed s ∨ rd K.dramReady s = 0 ∨ fenced (0x20 + u.val / 2) s then s
    else raiseFault 96 (bump K.trainDeferred (modDram (fun d => { d with deferred := u.val :: d.deferred }) s)))

/-! ### Speed (R198) -/

/-- A request for a speed is taken up, or withdraws one (R198). -/
def requestSpeed (v : Nat) (s : State) : State :=
  if v = rd K.dramSpeed s then wr K.dramSpeedStatus 0 (modDram (fun d => { d with heldReq := none, discard := false }) s)
  else wr K.dramSpeedStatus 1 (modDram (fun d => { d with target := v, discard := d.pause.isSome }) s)

/-- A write of DRAM_SPEED_REQ (R198). -/
def speedWrite (v : Nat) (s : State) : Ans :=
  need (v = 4800 || v = 5600 || v = 6400) Code.range s <|
    let s := wr K.dramSpeedReq v s
    if rd K.dramSpeedStatus s = 2 then done (modDram (fun d => { d with heldReq := some v }) s)
    else done (requestSpeed v s)

/-- Whether DP0 has a stream or one may begin (R198). -/
def streaming (s : State) : Bool :=
  (List.range 16).any (fun g => busyState (runState g s) || rd (K.runArmBusy g) s = 1) ||
  s.dram.reqs.any (fun r => r.port == 0)

/-- DP0 has no stream; the ports close and the change begins (R198). The bursts already issued on the other ports complete
after that. -/
def execSpeedChangeStart (s : State) : Host.Outcome State Fault Refusal :=
  .next (
    if rd K.dramSpeedStatus s ≠ 1 ∨ streaming s ∨ s.dram.pause.isSome ∨ rd K.dramReady s = 0 then s
    else wrs [(K.dramSpeedStatus, 2), (K.dramReady, 0)] s)

/-- The refill engines go on when the ports reopen. -/
def refillAll (s : State) : State := forEach (leaders s) (fun l s => refillGang l s) s

/-- The speed change ends (R198): the ports reopen at the new speed, or at the old one after a failure, and a
held value is taken up. -/
def execSpeedChangeComplete (trained : Bool) (s : State) : Host.Outcome State Fault Refusal :=
  .next (
    if rd K.dramSpeedStatus s ≠ 2 ∨ s.dram.reqs.any (·.issued) then s
    else
      let s := if trained then wrs [(K.dramSpeed, s.dram.target), (K.dramSpeedStatus, 0)] s else wr K.dramSpeedStatus 3 s
      let s := restartRefresh (wr K.dramReady 1 s)
      let held := s.dram.heldReq
      let s := modDram (fun d => { d with heldReq := none }) s
      let s := match held with
        | some v => if v = rd K.dramSpeed s then s else requestSpeed v s
        | none => s
      refillAll s)

/-! ### Initialisation, scrubbing and release (R187, R189, R200, R347) -/

/-- Initialisation after training or a map change ends, and the ports open (R187, R189). -/
def execDramInitComplete (s : State) : Host.Outcome State Fault Refusal :=
  .next (
    if rd K.dramReady s = 1 ∨ rd K.dramSpeedStatus s = 2 ∨ rd K.dramMappedBytes s = 0 then s
    else refillAll (checkSpillRegion (wr K.dramReady 1 s)))

/-- The patrol scrubber has read all mapped memory, upwards from address 0, and completes a pass (R200). -/
def execScrubPassComplete (s : State) : Host.Outcome State Fault Refusal :=
  .next (
    if rd K.scrubHours s = 0 ∨ rd K.dramReady s = 0 ∨ mapped (64 * s.dram.scrubAt) 64 s ∨
        s.dram.reqs.any (fun r => r.owner == .scrub) then s
    else bump K.scrubPasses (modDram (fun d => { d with scrubAt := 0, scrubFrom := s.now }) s))

/-- A released DRAM channel completes its training (R347): the map changes back to map 0 where no other channel is fenced,
and to map 1 where one is (R189); while two others are, no map can be formed (R421). A training that fails leaves the
channel fenced and raises its fault. -/
def execDcReleaseTrainingDone (c : Fin 4) (trained : Bool) (s : State) : Host.Outcome State Fault Refusal :=
  .next (
    if ¬ s.dram.retrain.contains c.val then s
    else
      let s := modDram (fun d => { d with retrain := d.retrain.filter (· != c.val) }) s
      if trained then
        let s := wrs [(K.fltFenced, clearBit (rd K.fltFenced s) (0x20 + c.val)), (K.dcState c, 0)] s
        match ((List.range 4).filter (fun i => fenced (0x20 + i) s)).length with
        | 0 => mapChange 0 s
        | 1 => mapChange 1 s
        | _ => s
      else raiseFault (66 + 8 * c.val) s)

/-- The MR4 poll of a subchannel (R194): the refresh interval, and DC_TEMP_HIGH of its channel. -/
def execMr4Poll (u : Fin 8) (doubled : Bool) (s : State) : Host.Outcome State Fault Refusal :=
  .next (
    let s := modDram (fun d => { d with hot := putBit d.hot u doubled }) s
    let c := u.val / 2
    wr (K.dcTempHigh c) (if s.dram.hot.testBit (2 * c) || s.dram.hot.testBit (2 * c + 1) then 1 else 0) s)

end Sys2Proof.Machine
end

