-- ==== Sys2Proof/Machine/Patches.lean ====
section
/-! DEFINITION. Microcode images and patches (07_sequencer_microcode.md, R180–R183), with the section table of a
boot image (R423) that holds the verifying key. What a patch changes in the instructions' behaviour is outside
the model (assumption log 30). -/
namespace Sys2Proof.Machine

/-! ### Boot image sections (R423) -/

/-- Sections of a boot image: type, offset, bytes and CRC. -/
def bootSections (b : Bytes) : List (Nat × Nat × Nat × Nat) :=
  (List.range (min 8 (leAt 12 4 b))).map (fun i =>
    let o := 64 + 16 * i
    (leAt o 2 b, leAt (o + 4) 4 b, leAt (o + 8) 4 b, leAt (o + 12) 4 b))

/-- The content of the first section of a type. -/
def bootSection (type : Nat) (b : Bytes) : Option Bytes :=
  ((bootSections b).find? (fun x => x.1 == type)).map (fun x => slice x.2.1 x.2.2.1 b)

/-- The code-signing key of a boot image (R408). -/
def codeKey (b : Bytes) : Bytes := (bootSection 5 b).getD []

/-! ### Records (R180) -/

/-- Whether every byte of a string is zero. -/
def allZero (b : Bytes) : Bool := b.all (· == 0)

/-- The records of a patch body: place and bytes of each; none where one is malformed or a byte is left over. -/
def patchRecords : Nat → Bytes → Option (List (Nat × Bytes))
  | 0, b => if b.isEmpty then some [] else none
  | n + 1, b =>
    match storeOf (leAt 0 1 b) with
    | none => none
    | some (base, words, w) =>
      let count := leAt 2 2 b
      let addr := leAt 4 4 b
      let len := count * w
      let padded := 8 * ceilDiv len 8
      if b.length < 8 + padded ∨ leAt 1 1 b ≠ 0 ∨ words < addr + count ∨ !allZero (slice (8 + len) (padded - len) b) then none
      else (patchRecords n (b.drop (8 + padded))).map (fun l => (base + addr * w, slice 8 len b) :: l)

/-- The master image of a base image and the records of a patch (R181). -/
def buildMaster (base : Bytes) (l : List (Nat × Bytes)) : Bytes := l.foldl (fun b r => splice r.1 r.2 b) base

/-! ### VERIFY (R181) -/

/-- Bytes of a patch body. -/
def patchBody (b : Bytes) : Nat := leAt 16 4 b

/-- Whether a patch image has the format of R180. -/
def patchFormat (b : Bytes) : Bool :=
  leAt 0 4 b = 0x4B544D50 && leAt 4 1 b = 1 && allZero (slice 9 3 b) && allZero (slice 24 40 b) &&
  patchBody b % 8 = 0 && b.length = 64 + patchBody b + 96 &&
  (patchRecords (min (leAt 12 4 b) (patchBody b)) (slice 64 (patchBody b) b)).isSome &&
  leAt 12 4 b ≤ patchBody b

/-- The failure of a patch image, in the order of R181; 0 where it verifies. `version` is the base image's
version word, `level` the running patch level. -/
def patchFails (b key : Bytes) (stepping version level floor : Nat) (unsigned : Bool) : Nat :=
  if !patchFormat b then 0x10
  else if leAt 5 1 b ≠ stepping then 0x11
  else if leAt 6 1 b ≠ version / 2 ^ 24 % 256 ∨ leAt 7 1 b ≠ version / 2 ^ 16 % 256 then 0x12
  else if leAt 8 1 b ≤ level ∨ leAt 8 1 b < floor then 0x13
  else if leAt 20 4 b ≠ crc32c (slice 64 (patchBody b) b) then 0x14
  else if !unsigned && !Config.ecdsaVerify key (b.take (64 + patchBody b)) (b.drop (64 + patchBody b)) then 0x15
  else 0

/-- The running patch level. -/
def patchLevel (s : State) : Nat := rd K.mcodeVersion s / 256 % 256

/-- What VERIFY finds. -/
def verifyResult (s : State) : Nat :=
  let b := s.patch.stage
  patchFails b (codeKey s.boot.image) s.otp.stepping (rd K.mcodeVersion s) (patchLevel s) (rd K.mcMinLevel s) s.patch.diagNext

/-! ### The procedure (R181, R182) -/

/-- The patch image is written into the stage buffer. -/
def patchStage (p : Bytes) (s : State) : Ans :=
  need (rd K.mcPatchStatus s ≠ 2 && rd K.mcPatchStatus s ≠ 4) Code.state s
    (done (wr K.mcPatchStatus 1 { s with patch := { s.patch with stage := p } }))

/-- Whether APPLY may begin: every group in OFF, READY, HALTED or FENCED, and no arming (R182). -/
def applyAllowed (s : State) : Bool :=
  rd K.mcPatchStatus s = 3 && (List.range 16).all (fun g => !busyState (runState g s) && rd (K.runArmBusy g) s = 0)

/-- MC_PATCH_CMD: VERIFY, APPLY, DISCARD (R181). -/
def patchCommand (v : Nat) (s : State) : Ans :=
  let st := rd K.mcPatchStatus s
  match v with
  | 1 => need (st = 1 || st = 3 || 0x10 ≤ st) Code.state s (done (wr K.mcPatchStatus 2 s))
  | 2 => need (applyAllowed s) Code.state s (done (wr K.mcPatchStatus 4 s))
  | 3 => need (st ≠ 4 && st ≠ 5) Code.state s (done (wr K.mcPatchStatus 0 { s with patch := { s.patch with stage := [] } }))
  | _ => refuse Code.range s

/-- Patch verification ends (R181). Whether the signature was among what passed is kept for AUTH (R183). -/
def execPatchVerifyComplete (s : State) : Host.Outcome State Fault Refusal :=
  .next (
    if rd K.mcPatchStatus s ≠ 2 then s
    else wr K.mcPatchStatus (if verifyResult s = 0 then 3 else verifyResult s)
      { s with patch := { s.patch with signed := !s.patch.diagNext } })

/-- The master image written into the stores of group g's sequencer (R164, R168, R182). -/
def writeStores (g : Nat) (s : State) : State :=
  { s with patch := { s.patch with stores := Tab.set g s.patch.master s.patch.stores } }

/-- A new master image is in force: the stores of unfenced groups, MCODE_VERSION and MC_IMAGE_CRC. -/
def masterInForce (master : Bytes) (version : Nat) (s : State) : State :=
  let s := { s with patch := { s.patch with master := master } }
  let s := forEach (List.range 16) (fun g s => if fenced g s then s else writeStores g s) s
  wrs [(K.mcodeVersion, version), (K.mcImageCrc, crc32c master)] s

/-- The version word with a patch level, authenticated or not (R183). -/
def versionWord (base level : Nat) (auth : Bool) : Nat := base / 2 ^ 16 * 2 ^ 16 + 256 * level + if auth then 1 else 0

/-- APPLY ends (R182). -/
def execPatchApplyComplete (s : State) : Host.Outcome State Fault Refusal :=
  .next (
    if rd K.mcPatchStatus s ≠ 4 then s
    else
      let b := s.patch.stage
      let l := (patchRecords (leAt 12 4 b) (slice 64 (patchBody b) b)).getD []
      let auth := (rd K.mcodeVersion s).testBit 0 && s.patch.signed && !s.patch.diagNext
      let s := masterInForce (buildMaster s.patch.base l) (versionWord (rd K.mcodeVersion s) (leAt 8 1 b) auth) s
      wr K.mcPatchStatus 5 { s with patch := { s.patch with diagNext := false } })

end Sys2Proof.Machine
end

