-- ==== Sys2Proof/Machine/Calibration.lean ====
section
/-! DEFINITION. Background calibration: paths, measurement, temperature, moves and status (15_calibration.md).
Slot n is channel n, slot 256 + k is SYSk (R329). What a correction makes up for is not in the model: an edge leaves the ball
at its code's time and deskew (assumption log 31), and the correction says when it enters the delay line and with which
setting. -/
namespace Sys2Proof.Machine

/-! ### Paths and targets (R326–R331) -/

/-- The paths of a slot (R326): 0 DRV, 1 DEN, 2 CMPH, 3 CMPL, 4 and 5 the Dash folded DRV and CMP paths. -/
def pathsOf (slot : Nat) : Nat := if 256 ≤ slot then 2 else if slot % 2 = 0 then 6 else 4

/-- A path. -/
def calPath (slot p : Nat) (s : State) : CalPath := Tab.get {} (6 * slot + p) s.cal.paths

/-- A path changed. -/
def modPath (slot p : Nat) (f : CalPath → CalPath) (s : State) : State :=
  { s with cal := { s.cal with paths := Tab.set (6 * slot + p) (f (calPath slot p s)) s.cal.paths } }

/-- The sensor of a slot (R331). -/
def sensorOf (slot : Nat) : Nat := if 256 ≤ slot then 0 else slot / 16

/-- The reading that a slot uses, in 0.125 °C. -/
def reading (slot : Nat) (s : State) : Int := toSigned 16 (rd (K.calGrpTemp (sensorOf slot)) s)

/-- The straight line through two points at a reading, to nearest, ties up. -/
def lineAt (x x0 x1 y0 y1 : Int) : Int := roundDivI (y0 * (x1 - x0) + (y1 - y0) * (x - x0)) (x1 - x0).toNat

/-- The factory corrections of a path at 25, 55, 85 and 105 °C, in OTP (R331). -/
def factory (slot p : Nat) (s : State) : Int × Int × Int × Int := Tab.get (0, 0, 0, 0) (6 * slot + p) s.otp.factory

/-- round(I) of R328: interpolation between the factory points around a reading clamped to 0–110 °C (R331). -/
def interpolated (f : Int × Int × Int × Int) (x : Int) : Int :=
  let x := max 0 (min 880 x)
  if x < 440 then lineAt x 200 440 f.1 f.2.1
  else if x < 680 then lineAt x 440 680 f.2.1 f.2.2.1
  else lineAt x 680 840 f.2.2.1 f.2.2.2

/-- The target of a path (R328). -/
def target (slot p : Nat) (s : State) : Int := interpolated (factory slot p s) (reading slot s) + (calPath slot p s).r

/-- Whether a target is in range (R328). -/
def targetOk (t : Int) : Bool := -512 ≤ t && t ≤ 511

/-- The lag |T − C| of a path. -/
def lagOf (slot p : Nat) (s : State) : Nat := (target slot p s - (calPath slot p s).c).natAbs

/-! ### Moves (R332–R334, R340) -/

/-- Whether a slot's path follows its target in one move (R333): the group is not in play, its first cycle has not
started (R341), or it is in a dead time; a system channel runs no clock of its own, and its moves are not resuming
after a hold (R340). -/
def jumps (slot : Nat) (s : State) : Bool :=
  if 256 ≤ slot then rd (K.sysMode (slot - 256)) s ≤ 2 && !s.cal.single.contains slot
  else
    let q := seq (leader (slot / 16) s) s
    let st := runState (leader (slot / 16) s) s
    !(st = 3 || st = 4) || !q.live || q.dead.isSome

/-- Whether a cycle of the slot's chain starts now (R332). A system channel whose chain does not run has no cycle
starts to wait for (DESIGN CHOICE, log 31: R332 and R333 leave Sync mode between pulses, and the moves after a hold
without a clock, open). -/
def atCycleStart (slot : Nat) (s : State) : Bool :=
  if 256 ≤ slot then !(sysch (slot - 256) s).running || (sysch (slot - 256) s).start = s.now
  else (seq (leader (slot / 16) s) s).cycAt = s.now

/-- Whether a system channel's correction is held (R340). -/
def calHeld (slot : Nat) (s : State) : Bool := 256 ≤ slot && rd (K.sysCalHold (slot - 256)) s = 1

/-- Whether an edge belongs to a path (R326). -/
def edgePath (slot p : Nat) (e : Edge) (s : State) : Bool :=
  let dash := slot < 256 && mode (slot / 16) s = 2
  match e.act with
  | .drv _ => p = (if dash then 4 else 0)
  | .toggle => p = (if dash then 4 else 0)
  | .den _ => p = 1
  | .strobe0 _ _ => if dash then p = 5 else p = 2 || p = 3
  | .strobe1 _ _ => if dash then p = 5 else p = 2 || p = 3
  | .safeDen => p = 1
  | .safeDrv => p = 0

/-- The time of an edge with which its path's delay line works (R327): its code's time with deskew and the live correction,
in fine taps. The line takes the fraction of a Tref, and the edge enters it at the Tref edge before (DEDUCED, log 31). -/
def lineTime (slot p : Nat) (ball : Int) (s : State) : Int := ball + (calPath slot p s).c

/-- The Tref edge at which an edge enters its delay line, in Tref/1024. -/
def enters (slot p : Nat) (ball : Int) (s : State) : Int := lineTime slot p ball s / tref * tref

/-- The setting of a delay line for a number of fine taps below one Tref (R327): a coarse tap of 32 fine taps from bits
[9:5], and what is left in fine taps, by the coarse step that was last measured. -/
def lineSetting (x : CalPath) (sum : Int) : Int × Int :=
  let coarse := sum % 1024 / 32
  (coarse, sum % 1024 - coarse * x.step)

/-- The cycles of a channel unit's chain up to an instant, at most `fuel` of them, as they will be. -/
def lookAhead (slot till : Nat) : Nat → State → State
  | 0, s => s
  | fuel + 1, s =>
    if 256 ≤ slot then
      (if (sysch (slot - 256) s).next ≤ till then lookAhead slot till fuel (cycleSys (slot - 256) s) else s)
    else
      (let l := leader (slot / 16) s
       if (seq l s).nextAt ≤ till then lookAhead slot till fuel (cycleGroup l s) else s)

/-- How far ahead cycles may place an edge that is due within 2 Tref: deskew and correction move it by less than 10 Tref. -/
def quietAhead : Nat := 12 * tref

/-- Whether a generator's edges are of a path (R28, R326). -/
def genPath (slot p gen : Nat) (s : State) : Bool :=
  let dash := slot < 256 && mode (slot / 16) s = 2
  if gen < 4 then p = (if dash then 4 else 0)
  else if gen < 6 then p = 1
  else if dash then p = 5 else p = 2 || p = 3

/-- The instants at the balls of a path's latest edges, one for each generator. -/
def lastFired (slot p : Nat) (s : State) : List Int :=
  ((chan slot s).fired.filter (fun x => genPath slot p x.1 s)).map (fun x =>
    ballTime slot { t := x.2, cyc := 0, gen := x.1, vec := 0, act := .toggle } s)

/-- Whether a path is quiet (R332): none of its edges is in its delay line, which one that enters at this Tref edge is, and
none enters within the following 2 Tref, of this cycle or of those that follow. -/
def pathQuiet (slot p : Nat) (s : State) : Bool :=
  let to_ : Int := (s.now : Int) + 2 * tref
  let u := lookAhead slot (s.now + quietAhead) 64 s
  !((chan slot s).sched ++ (chan slot u).sched).any (fun e => edgePath slot p e s && enters slot p (ballTime slot e s) s ≤ to_) &&
  !(lastFired slot p s).any (fun b => (s.now : Int) ≤ enters slot p b s)

/-! ### Convergence (R335) -/

/-- Whether every path of a slot has converged. -/
def slotConverged (slot : Nat) (s : State) : Bool := (List.range (pathsOf slot)).all (fun p => (calPath slot p s).conv)

/-- Whether every channel of a group that carries pattern has converged. -/
def groupConverged (g : Nat) (s : State) : Bool := (activeCh g s).all (fun k => slotConverged (16 * g + k) s)

/-- Whether all channels have converged, fenced groups apart: initial calibration is over. -/
def chipConverged (s : State) : Bool :=
  (List.range 16).all (fun g => fenced g s || groupConverged g s) && (List.range 8).all (fun k => slotConverged (256 + k) s)

/-- ms of calibration that a number of slots takes (R329). -/
def slotsMs (n : Nat) : Nat := n * 37875 / 1000000

/-- A group's convergence and service follow its paths (R19, R335). -/
def noteConverged (g : Nat) (s : State) : State :=
  setService (leader g s) (modGrp g (fun x => { x with converged := groupConverged g s }) s)

/-- The duration of the initial convergence is recorded when it ends (R342). -/
def noteChip (s : State) : State :=
  if rd K.calConvergeMs s = 0 ∧ chipConverged s then wr K.calConvergeMs (slotsMs s.cal.slots) s else s

/-- What a path's moves have come to (R335): a measurement that waits for them has found the path in place once |T − C| is at
most 2 taps, and two in a row converge it. -/
def noteNear (slot p : Nat) (s : State) : State :=
  let x := calPath slot p s
  if x.await ∧ lagOf slot p s ≤ 2 then
    let s := modPath slot p (fun x => { x with await := false, good := x.good + 1, conv := x.conv || 1 ≤ x.good }) s
    if x.conv ∨ x.good = 0 then s else noteChip (if slot < 256 then noteConverged (slot / 16) s else s)
  else s

/-- A path takes its target in one move where it may (R333). -/
def settlePath (slot p : Nat) (s : State) : State :=
  if jumps slot s ∧ ¬ calHeld slot s ∧ targetOk (target slot p s) then
    modPath slot p (fun x => { x with was := if x.c = target slot p s then x.was else some (s.now, x.c), c := target slot p s }) s
  else s

/-- The time for which a path may lag, in Tref/1024 (CAL_STALL_MS). -/
def stallTime (s : State) : Nat := rd K.calStallMs s * 1600000 * tref

/-- The instants since which paths of a slot have lagged by more than 8 taps. -/
def lagsOf (slot : Nat) (s : State) : List Nat := (List.range (pathsOf slot)).filterMap (fun p => Tab.find (6 * slot + p) s.cal.lagAt)

/-- The instant at which the first lag of a slot's paths has lasted CAL_STALL_MS (R337). -/
def stallAt (slot : Nat) (s : State) : Option Nat := (lagsOf slot s).min?.map (fun t => t + stallTime s)

/-- Whether a lag of a slot has outlasted CAL_STALL_MS (R337). -/
def stalled (slot : Nat) (s : State) : Bool := match stallAt slot s with | some t => t < s.now | none => false

/-- The lag of each path of a slot is noted after a change of a target or a correction: beyond 8 taps it runs from the first
instant at which it is so, and an episode of the channel ends when no path has lagged for CAL_STALL_MS any more (R337). A
system channel in place moves in one step again. -/
def noteLag (slot : Nat) (s : State) : State :=
  let ps := List.range (pathsOf slot)
  let s := forEach ps (fun p s =>
    let k := 6 * slot + p
    let at_ := if lagOf slot p s ≤ 8 then Tab.erase k s.cal.lagAt
      else if (Tab.find k s.cal.lagAt).isSome then s.cal.lagAt else Tab.set k s.now s.cal.lagAt
    { s with cal := { s.cal with lagAt := at_ } }) s
  { s with cal := { s.cal with
    lagging := if stalled slot s then s.cal.lagging else s.cal.lagging.filter (· != slot)
    single := if ps.all (fun p => lagOf slot p s = 0) then s.cal.single.filter (· != slot) else s.cal.single } }

/-- A move of a live correction (R332, R333): one tap towards the target at a quiet cycle start, at most once
per 64 Tref, or the whole way where nothing plays. -/
def execCalMove (slot : Fin 264) (path : Fin 6) (s : State) : Host.Outcome State Fault Refusal :=
  .next (
    let x := calPath slot path s
    let t := target slot path s
    if pathsOf slot ≤ path ∨ calHeld slot s ∨ ¬ targetOk t ∨ t = x.c then s
    else if jumps slot s then noteLag slot (noteNear slot path (settlePath slot path s))
    else if atCycleStart slot s && pathQuiet slot path s &&
        (match x.moved with | some m => decide (m + 64 * tref ≤ s.now) | none => true) then
      noteLag slot (noteNear slot path (modPath slot path (fun x => { x with
        c := if x.c < t then x.c + 1 else x.c - 1, moved := some s.now, was := some (s.now, x.c) }) s))
    else s)

/-! ### Failures (R337) -/

/-- A range or measurement failure of a slot: cause 2 or 3. -/
def calFails (slot cause : Nat) (s : State) : State :=
  if 256 ≤ slot then raiseFault (48 + (slot - 256)) s
  else raiseFault ((266 + cause) + 16 * (slot / 16)) (wr (K.calGrpCause (slot / 16)) cause s)

/-- A path's target is judged after a change of what it depends on (R328, R337): a range failure once, or the
move that follows. -/
def judgePath (slot p : Nat) (s : State) : State :=
  if targetOk (target slot p s) then noteNear slot p (settlePath slot p (modPath slot p (fun x => { x with rangeBad := false }) s))
  else if (calPath slot p s).rangeBad then s
  else calFails slot 2 (modPath slot p (fun x => { x with rangeBad := true }) s)

/-! ### Measurement (R329, R330) -/

/-- A measurement of a path on its shadow, set as the path's target asks: its error and the coarse step, or none where it is
invalid (R327, R329, R330). A measurement whose moves have not come to an end by the next one has not found the path in
place (R335). -/
def measure (slot p : Nat) (found : Option (Int × Nat)) (s : State) : State :=
  let set := fun (x : CalPath) => lineSetting x (target slot p s)
  match found with
  | none =>
    let s := modPath slot p (fun x => { x with good := 0, await := false, invalid := x.invalid + 1, shadow := set x }) s
    if (calPath slot p s).invalid = 3 then calFails slot 3 s else s
  | some (v, step) =>
    let s := modPath slot p (fun x => { x with
      invalid := 0, r := if calHeld slot s then x.r else x.r - v, shadow := set x, step
      good := if x.await then 0 else x.good, await := true }) s
    noteNear slot p (judgePath slot p s)

/-- Every path of a slot measured in turn; a path for which nothing comes back has no valid comparison. -/
def measureAll (slot : Nat) (found : List (Option (Int × Nat))) (s : State) : State :=
  forEach (List.range (pathsOf slot)) (fun p s => measure slot p ((found[p]?).join) s) s

/-- Length of a slot: 37,875 ns, which is 60,600 Tref (R329). -/
def slotTime : Nat := 60600 * tref

/-- A slot of the rotation (R329), at its place in the rotation: what its shadow paths are found to be, none for an invalid
comparison; the slot of a fenced group stays empty. The paths before the measurement are kept for as long as the slot
lasts (R341). -/
def execCalSlot (slot : Fin 264) (found : List (Option (Int × Nat))) (s : State) : Host.Outcome State Fault Refusal :=
  .next (
    if slot.val ≠ s.cal.slot ∨ rd K.startStep s < 9 then s
    else
      let s := toTime (s.cal.startAt + s.cal.slots * slotTime) s
      let s := { s with cal := { s.cal with slot := (slot.val + 1) % 264, slots := s.cal.slots + 1, undo := none } }
      let s := if slot.val = 263 then incWrap 64 K.calRotations 1 s else s
      if slot.val < 256 ∧ fenced (slot.val / 16) s then s
      else
        let old := (List.range (pathsOf slot)).map (fun p => calPath slot p s)
        let s := { s with cal := { s.cal with undo := some (slot.val, old) } }
        let s := noteLag slot (measureAll slot found s)
        noteChip (if slot.val < 256 then noteConverged (slot.val / 16) s else s))

/-- A fence of a group during the slot of one of its channels discards the measurement (R341): the paths' corrections stand
and follow the targets that were before. -/
def discardSlot (g : Nat) (s : State) : State :=
  match s.cal.undo with
  | some (n, old) =>
    if n / 16 = g ∧ s.now < s.cal.startAt + s.cal.slots * slotTime then
      let s := { s with cal := { s.cal with undo := none } }
      noteLag n (forEach (List.range (pathsOf n)) (fun p s =>
        modPath n p (fun x => { (old.getD p {}) with c := x.c, moved := x.moved, was := x.was }) s) s)
    else s
  | none => s

/-! ### Temperature (R331, R426) -/

/-- The temperature faults after a reading (R426). -/
def tempFaults (s : State) : State :=
  let ts := (List.range 16).map (fun g => toSigned 16 (rd (K.thsTemp g) s))
  let s := if ts.any (fun t => 840 ≤ t) then raiseFault 16 s else if ts.all (fun t => t < 824) then endFault 16 s else s
  if ts.any (fun t => 920 ≤ t) then reportSource 17 s else if ts.all (fun t => t < 880) then endSource 17 s else s

/-- The slots that a sensor governs (R331). -/
def slotsOf (g : Nat) : List Nat :=
  (List.range 16).map (fun k => 16 * g + k) ++ if g = 0 then (List.range 8).map (fun k => 256 + k) else []

/-- The 1 ms reading of a sensor (R331), in 0.125 °C: interpolation, targets and temperature faults follow. -/
def execTempReading (g : Fin 16) (reading : Int) (s : State) : Host.Outcome State Fault Refusal :=
  .next (
    if reading < -32768 ∨ 32767 < reading ∨ rd K.startStep s < 4 then s
    else
      let v := ofSigned 16 reading
      let s := wrs [(K.thsTemp g, v), (K.calGrpTemp g, v)] s
      let s := if !s.cal.sensed.contains g.val ∨ toSigned 16 (rd (K.thsMax g) s) < reading then wr (K.thsMax g) v s else s
      let s := { s with cal := { s.cal with sensed := if s.cal.sensed.contains g.val then s.cal.sensed else g.val :: s.cal.sensed } }
      let s := forEach (slotsOf g) (fun n s =>
        noteLag n (forEach (List.range (pathsOf n)) (fun p s => judgePath n p s) s)) s
      tempFaults s)

/-- A lag has outlasted CAL_STALL_MS (R337): once per episode. An inactive channel has none (R336). -/
def execCalStall (n : Fin 256) (s : State) : Host.Outcome State Fault Refusal :=
  .next (
    match stallAt n s with
    | none => s
    | some t =>
      if s.cal.lagging.contains n.val ∨ (mode (n / 16) s = 2 ∧ n.val % 2 = 1) ∨ fenced (n / 16) s then s
      else
        let s := toTime (t + 1) s
        let s := { s with cal := { s.cal with lagging := n.val :: s.cal.lagging } }
        raiseFault (267 + 16 * (n.val / 16)) (wr (K.calGrpCause (n.val / 16)) 1 s))

/-! ### Status (R336) -/

/-- The status of a slot, the inactive ones apart: 0 converging, 1 pass, 2 fail. A lag of more than 8 taps is a fail
once it has outlasted CAL_STALL_MS: so R337 and the worked example, which R336's table alone does not say. -/
def slotStatus (slot : Nat) (s : State) : Nat :=
  let ps := List.range (pathsOf slot)
  if ps.any (fun p => !(calPath slot p s).conv) then 0
  else if stalled slot s ∨ ps.any (fun p => (calPath slot p s).rangeBad || (calPath slot p s).invalid != 0) then 2
  else 1

/-- CAL_CH_STATUS (R336). -/
def chStatus (n : Nat) (s : State) : Nat :=
  if (mode (n / 16) s = 2 ∧ n % 2 = 1) ∨ fenced (n / 16) s then 3 else slotStatus n s

/-- The status of several: fail where any fails, pass where all pass, else converging (R336). -/
def allStatus (l : List Nat) : Nat := if l.contains 2 then 2 else if l.all (· == 1) then 1 else 0

/-- CAL_GRP_STATUS (R336). -/
def grpStatus (g : Nat) (s : State) : Nat := allStatus ((activeCh g s).map (fun k => chStatus (16 * g + k) s))

/-- CAL_STATUS (R336). -/
def chipStatus (s : State) : Nat :=
  allStatus (((List.range 16).filter (fun g => !fenced g s)).map (fun g => grpStatus g s) ++
    (List.range 8).map (fun k => slotStatus (256 + k) s))

/-- CAL_GRP_FAIL_CH (R342). -/
def failChans (g : Nat) (s : State) : Nat := maskOf ((List.range 16).filter (fun k => chStatus (16 * g + k) s == 2))

/-- The convergence of a group starts anew at the release of its fence (R335). -/
def calReleased (g : Nat) (s : State) : State :=
  let s := forEach ((List.range 16).map (fun k => 16 * g + k)) (fun n s =>
    forEach (List.range (pathsOf n)) (fun p s => modPath n p (fun x => { x with
      good := 0, invalid := 0, conv := false, await := false, rangeBad := false }) s) s) s
  let s := { s with cal := { s.cal with lagging := s.cal.lagging.filter (fun n => n / 16 != g) } }
  modGrp g (fun x => { x with converged := false }) s

/-! ### Records of system channels (R338, R339) -/

/-- SYS_CAL_REC of SYSk as it stands (R338). -/
def calRecord (k : Nat) (s : State) : Bytes :=
  let b := leBytes 4 0x4B544341 ++ [1#8, BitVec.ofNat 8 k] ++ leBytes 2 0 ++ leBytes 4 s.otp.uidTag ++
    leBytes 2 (rd (K.calGrpTemp 0) s) ++ leBytes 2 0 ++ leBytes 2 (ofSigned 16 (calPath (256 + k) 0 s).r) ++
    leBytes 2 (ofSigned 16 (calPath (256 + k) 1 s).r) ++ leBytes 8 0
  b ++ leBytes 4 (crc32c b)

/-- A read of SYS_CAL_REC: refused while the status is not pass (R338). -/
def sysCalRead (k : Nat) (s : State) : Ans :=
  need (slotStatus (256 + k) s = 1) Code.state s (give (calRecord k s) s)

/-- The residual of a record for a path (R338). -/
def recResidual (p : Nat) (b : Bytes) : Int := toSigned 16 (leAt (16 + 2 * p) 2 b)

/-- The first check of R339 that a record fails; 0 none. -/
def recFails (k : Nat) (b : Bytes) (s : State) : Nat :=
  if leAt 0 4 b ≠ 0x4B544341 ∨ leAt 4 1 b ≠ 1 ∨ leAt 5 1 b ≠ k ∨ leAt 6 2 b ≠ 0 ∨ leAt 14 2 b ≠ 0 ∨ leAt 20 8 b ≠ 0 then 1
  else if leAt 28 4 b ≠ crc32c (b.take 28) then 2
  else if leAt 8 4 b ≠ s.otp.uidTag then 3
  else if [0, 1].any (fun p => !targetOk (interpolated (factory (256 + k) p s) (reading (256 + k) s) + recResidual p b)) then 4
  else 0

/-- A write of SYS_CAL_REC (R339). It is refused while SYS_CAL_HOLD is 1, when C and R do not change (R340; the refusal is a
DESIGN CHOICE, log 31). -/
def sysCalWrite (k : Nat) (b : Bytes) (s : State) : Ans :=
  need (rd (K.sysMode k) s = 0 && rd (K.sysCalHold k) s = 0) Code.state s <|
  if recFails k b s ≠ 0 then refuse Code.range (wr (K.sysCalRecErr k) (recFails k b s) s)
  else
    done (noteLag (256 + k) (forEach [0, 1] (fun p s =>
      let s := modPath (256 + k) p (fun x => { x with
        r := recResidual p b, conv := true, good := 2, invalid := 0, rangeBad := false, await := false }) s
      modPath (256 + k) p (fun x => { x with c := target (256 + k) p s }) s) s))

/-- A hold set at an instant undoes the moves made at it (R341). -/
def holdFirst (k : Nat) (s : State) : State :=
  forEach [0, 1] (fun p s => modPath (256 + k) p (fun x => match x.was with
    | some (t, c) => if t = s.now then { x with c, was := none } else x
    | none => x) s) s

/-- A write of SYS_CAL_HOLD (R340): a hold stops the moves of its instant too, and once it is cleared, moves resume one tap
at a time. -/
def sysCalHoldWrite (k v : Nat) (s : State) : Ans :=
  let resumes := v = 0 && rd (K.sysCalHold k) s = 1
  let s := wr (K.sysCalHold k) v (if v = 1 then noteLag (256 + k) (holdFirst k s) else s)
  done (if resumes then noteLag (256 + k) { s with cal := { s.cal with
      single := if s.cal.single.contains (256 + k) then s.cal.single else (256 + k) :: s.cal.single } }
    else s)

end Sys2Proof.Machine
end

