-- ==== Sys2Proof/Machine/Faults.lean ====
section
/-! DEFINITION. Reactions, fences, the reaction window, board fault inputs and releases
(16_faults_and_fencing.md). -/
namespace Sys2Proof.Machine

/-! ### Fences of units (R347) -/

/-- The bit of a unit in FLT_FENCED set. -/
def markFenced (u : Nat) (s : State) : State := setObjBit K.fltFenced u s

/-- The bit of a unit in FLT_FENCED cleared. -/
def markFree (u : Nat) (s : State) : State := wr K.fltFenced (clearBit (rd K.fltFenced s) u) s

/-- A member of a fenced gang: safe outputs, content dropped, strobes gone, and, where the fence falls in a run, its
sites invalid (R23, R77, R347, R350). -/
def fenceMember (m : Nat) (run : Bool) (s : State) : State :=
  let s := onlyIf run (siteInvalid m) (markFenced m s)
  let s := discardSlot m (safeOutputs m s.now (dropContent m false s))
  let s := modGrp m (fun x => { x with judges := [], stage := [], sealFail := 0, fromOff := true, fences := x.fences ++ [⟨s.now, none⟩] }) s
  rxUnitFenced m (wr (K.runArmBusy m) 0 s)

/-- A group is fenced with its whole gang (R18, R347): any arming, pause and request ends, the long routine is
abandoned, the sequencer resets. -/
def fenceGroup (g : Nat) (s : State) : State :=
  let l := leader g s
  let ms := members l s
  let run := inRun l s
  let s := sourceEnds l (discardRequest l (abandonLoad l 2 (countPause l s.now s)))
  let s := releaseRun l (modSeq l (fun q => { q with anyFail := false, failSites := 0, heads := [] }) s)
  let s := wrs [(K.seqPc l, 0), (K.seqFlags l, 0)] (setRunState l 6 s)
  forEach ms (fun m s => fenceMember m run s) s

/-- A system channel is held in its safe state (R349, R350). -/
def holdSys (k : Nat) (s : State) : State :=
  enterSafe (256 + k) s.now (modSysch k (fun c => { c with running := false, pulse := none }) s)

/-- A DRAM channel is fenced (R189, R347): a speed change is abandoned (R358), then the map changes. -/
def fenceDc (c : Nat) (s : State) : State :=
  let s := if rd K.dramSpeedStatus s = 2 then wr K.dramSpeedStatus 3 (modDram (fun d => { d with heldReq := none }) s) else s
  let s := forEach (List.range 4) (fun i s => if rd (K.dcState i) s = 3 then s else wr (K.dcState i) 0 s) s
  mapChange 1 (wr (K.dcState c) 3 (markFenced (0x20 + c) s))

/-- An Ethernet port is fenced, unless it is the last (R350); its sessions end (R366). -/
def fenceEth (p : Nat) (s : State) : State :=
  if (List.range 4).all (fun i => i == p || fenced (0x24 + i) s) then s
  else endSessions (fun x => x.port == p) (wr (K.ethLink p) 2 (markFenced (0x24 + p) s))

/-- A unit is fenced; nothing where it is fenced already (R347). DRAM channels are judged apart. -/
def fenceUnit (u : Nat) (s : State) : State :=
  if fenced u s then s
  else if u < 0x10 then fenceGroup u s
  else if u < 0x20 then rxUnitFenced u (fencePe (u - 0x10) (markFenced u (dmaMoves (u - 0x10) s)))
  else if u < 0x24 then fenceDc (u - 0x20) s
  else if u < 0x28 then fenceEth (u - 0x24) s
  else if u < 0x2A then fenceTd (u - 0x28) (markFenced u s)
  else if u = 0x2A then ringDown 4 (markFenced u s)
  else if u = 0x2B then fenceTx (markFenced u s)
  else if u = 0x2C then fenceRx (markFenced u s)
  else s

/-! ### The fatal reaction (R349) -/

/-- The units that the fatal reaction fences. -/
def fatalUnits : List Nat := List.range 0x20 ++ [0x2B, 0x2C]

/-- The fatal reaction: groups, engines and JESD204C fenced, trigger outputs inactive, system channels safe, and the
safe state over a boundary scan that acts (R440). -/
def fatalReaction (s : State) : State :=
  if fatal s then s
  else
    let new := fatalUnits.filter (fun u => !fenced u s)
    let s := wr K.fltFatal 1 (markFenced 0x3F { s with flt := { s.flt with covered := new } })
    let s := forEach new (fun u s => fenceUnit u s) s
    let s := forEach (List.range 8) (fun j s => modTout j (fun o => { o with pulses := [] }) s) s
    let s := { s with jtag := { s.jtag with safeHold := s.jtag.safeHold || s.jtag.acting } }
    forEach (List.range 8) (fun k s => holdSys k s) s

/-! ### Reactions (R345, R351, R352) -/

/-- The units that the reaction of a class U fault fences: those of the table, FLTIN_TARGET, or the enabled
JESD204C directions. -/
def reactUnits (n : Nat) (s : State) : List Nat :=
  if n = 210 then (if rd K.jtxEn s = 1 then [0x2B] else []) ++ (if rd K.jrxEn s = 1 then [0x2C] else [])
  else match faultSrc n with | some f => targetUnits n f s | none => []

/-- The items of a queue on chip whose places a mask names are lost (R279). -/
def loseMasked (q mask : Nat) (s : State) : State :=
  let out := (rqueue q s).items.zipIdx.filter (fun p => !p.1.inDram && mask.testBit p.2)
  if out.isEmpty then s
  else loseItems q out.length (modQueue q (fun y => { y with
    items := (y.items.zipIdx.filter (fun p => p.1.inDram || !mask.testBit p.2)).map (·.1) }) s)

/-- A task whose TCB is in a failed word goes to STOPPED at once, RUNNING or not (R345). -/
def stopTask (t : Nat) (s : State) : State :=
  checkEngines (askedFor t s) (modTcb t (fun c => { c with state := 4 }) (withdrawTask t s))

/-- The containment of F041 (R345): the items of a failed word are lost, or the task whose TCB is in it stops. A report
does not say which word failed, nor the spec what one word holds: whether it holds a TCB, which, and which items of each
queue on chip, are free values (log 36). -/
def loseWord (s : State) : State :=
  let a := drawBelow 2 s
  if a.1 = 0 then
    forEach (s.queues.map (·.1)) (fun q s =>
      let b := drawBelow (2 ^ (rqueue q s).items.length) s
      loseMasked q b.1 b.2) a.2
  else
    let t := drawBelow 4096 a.2
    stopTask t.1 t.2

/-- The loss that a report of F042 stands for (R279, R345): the items of one burst of the spill region, which a report does
not name: a free value among the bursts that hold items. -/
def loseSpillBurst (s : State) : State :=
  let bs := ((usedSlots s).map (fun j => slotAddr j s / 64 * 64)).eraseDups
  let b := drawBelow bs.length s
  match bs[b.1]? with
  | some a => loseBurst a b.2
  | none => s

/-- The containment that a report of F256 + 16g stands for (R158, R345): the gang's play stops in hold at its next cycle
start, unless it has stopped for good already. -/
def containUnderrun (g : Nat) (s : State) : State :=
  let l := leader g s
  let q := seq l s
  if (runState l s = 3 ∨ runState l s = 4) ∧ q.live ∧ q.stopped.isNone ∧ q.dead.isNone then
    stopPlay l q.nextAt .underrun (countPause l q.nextAt (toTime q.nextAt s))
  else s

/-- The containments of R345 that come with a report, unless the detector is suppressed (R355). -/
def contain (n : Nat) (s : State) : State :=
  if suppressed n s then s
  else if n = 42 then loseSpillBurst s
  else if 256 ≤ n ∧ n % 16 = 0 then containUnderrun ((n - 256) / 16) s
  else s

/-- The reaction of one class U fault; a second DRAM channel raises it to the fatal reaction (R346). -/
def reactTo (n : Nat) (s : State) : State :=
  if n = 41 then loseWord s
  else forEach (reactUnits n s) (fun u s =>
    if secondDc u s then fatalReaction (setObjBit K.fltIntPending 2 s) else fenceUnit u s) s

/-- Whether the reaction that starts is fatal, or was so before what merges into it (R346, R352). -/
def reactsFatal (f : Bool) (s t : State) : Bool :=
  f || (!fatal s && fatal t) || (s.flt.window && rd K.fltReact s % 4 = 3)

/-- A reaction starts at R0, or faults merge into the one in progress, whose window is not extended (R351, R352). -/
def execReactionStart (s : State) : Host.Outcome State Fault Refusal :=
  .next (
    let us := s.flt.pendU
    let f := s.flt.pendF
    if us.isEmpty ∧ ¬ f then s
    else
      let at_ := if s.flt.window then s.flt.windowAt else s.now
      let t := { s with flt := { s.flt with pendU := [], pendF := false, window := true, windowAt := at_ } }
      let t := forEach us (fun n s => reactTo n s) t
      let t := if f then fatalReaction t else t
      wr K.fltReact (0x80 + if reactsFatal f s t then 3 else 2) t)

/-- Length of a reaction window: 20 µs (R352). -/
def windowTime : Nat := 32000 * tref

/-- The reaction window closes 20 µs after its R0: one NOTIFY of FLT_STICKY (R352). -/
def execReactionWindowClose (s : State) : Host.Outcome State Fault Refusal :=
  .next (
    if s.flt.window then
      notifySticky (wr K.fltReact 0 { toTime (s.flt.windowAt + windowTime) s with flt := { s.flt with window := false } })
    else s)

/-- 100 µs after a class C fault outside a window, one NOTIFY (R352). -/
def execClassCNotify (s : State) : Host.Outcome State Fault Refusal :=
  .next (if s.flt.cDue then notifySticky { s with flt := { s.flt with cDue := false } } else s)

/-! ### Reports of detectors (R343–R345, R415, R421, R428) -/

/-- The bit of CLK_STATUS that a clock fault clears: PLLs of F000–F002, references of F003 and F004. -/
def clkBit (n : Nat) : Nat := match n with | 0 => 2 | 1 => 3 | 2 => 4 | 3 => 0 | _ => 1


/-- A second DRAM channel fails its training at start-up (R421): it is fenced too, and no map is formed. -/
def secondDcAtStart (c : Nat) (s : State) : State :=
  let s := wr (K.dcState c) 3 (markFenced (0x20 + c) s)
  let s := wrs [(K.dramReady, 0), (K.dramMappedBytes, 0), (K.startFail, 4)] s
  { s with flt := { s.flt with pendF := true } }

/-- Without TCLK the collector forces both outputs of every channel unit to the safe state directly, and nothing is
scheduled any more (R12, R350). -/
def forceSafe (s : State) : State :=
  forEach (List.range 264) (fun n s => modChan n (fun c => { c with
    den := c.den.force s.now false, drv := c.drv.force s.now (safeDrvLevel n s)
    sched := [], win := [], tdcH := [], tdcL := [] }) s) s

/-- A test that the security unit runs by itself fails (R410): SEC_STATE 2, and its number, which a report does not
carry, is a free value above 0. -/
def securityFails (s : State) : State :=
  let v := drawBelow 255 s
  wrs [(K.secState, 2), (K.secSelftestResult, 2 ^ 31 + v.1 + 1)] v.2

/-- A detector reports a fault source (R343). -/
def execFaultReport (fid : BitVec 9) (s : State) : Host.Outcome State Fault Refusal :=
  .next (
    let n := fid.toNat
    let step := rd K.startStep s
    let s := if n ≤ 4 then wr K.clkStatus (clearBit (rd K.clkStatus s) (clkBit n)) s else s
    let s := if n = 0 then forceSafe s else s
    let s := if n = 20 then securityFails s else s
    if (n ≤ 14 ∧ step < 3) ∨ ((n = 16 ∨ n = 17) ∧ step < 4) ∨ s.flt.active.contains n then s
    else
      let s := if 192 ≤ n ∧ n ≤ 199 ∧ n % 2 = 0 ∧ rd (K.ethLink ((n - 192) / 2)) s = 1 then wr (K.ethLink ((n - 192) / 2)) 0 s else s
      let c := (n - 64) / 8
      if step = 7 ∧ 64 ≤ n ∧ n ≤ 95 ∧ n % 8 = 0 ∧ anyDcFenced s ∧ ¬ fenced (0x20 + c) s then
        secondDcAtStart c (raiseFault n s)
      else contain n (reportSource n s))

/-- The condition of a level-type source ends (R344); start-up goes on where the last fault that held it is over
(R421). The temperature conditions end by readings (R426). -/
def execFaultConditionEnd (fid : BitVec 9) (s : State) : Host.Outcome State Fault Refusal :=
  .next (
    let n := fid.toNat
    if n = 16 ∨ n = 17 then tempFaults s
    else
      let s := if n ≤ 4 then wr K.clkStatus (setBit (rd K.clkStatus s) (clkBit n)) s else s
      let s := endSource n s
      if 28 ≤ n ∧ n ≤ 31 ∧ (fltin (n - 28) s).active then
        wr (K.fltinLevel (n - 28)) 0 (modFltin (n - 28) (fun x => { x with active := false, ended := some s.time.sys }) s)
      else s)

/-- Least SYSCLK cycles between two activations of a board fault input (R356). -/
def fltinQuiet : Nat := 8

/-- A board fault input becomes active in a SYSCLK cycle (R356): a new activation, or the one before it where
less than 8 ns have passed. -/
def execFltinActivation (i : Fin 4) (cycle : Nat) (s : State) : Host.Outcome State Fault Refusal :=
  .next (
    let x := fltin i s
    let t := max cycle s.time.sys
    if x.active then s
    else
      let s := wr (K.fltinLevel i) 1 (modFltin i (fun x => { x with active := true }) s)
      let merged := match x.ended with | some e => decide (t < e + fltinQuiet) | none => false
      if merged then
        bump16 (K.fltinOverruns i) (if rd (K.fltinClass i) s = 0 then s
          else { s with flt := { s.flt with active := (28 + i.val) :: s.flt.active } })
      else raiseFault (28 + i) s)

/-! ### Sticky bits (R353) -/

/-- A write of FLT_STICKY clears the bits written as 1; the bit of a condition that still holds sets again. -/
def stickyWrite (v : Nat) (s : State) : Ans :=
  let held := s.flt.active.filter (fun n => v.testBit n && s.flt.sticky.testBit n)
  let s := { s with flt := { s.flt with sticky := s.flt.sticky - (s.flt.sticky &&& v) } }
  done (forEach held (fun n s => match faultSrc n with
    | some f => noteFault n (max 1 (faultClass n f s)) true s
    | none => s) s)

/-! ### Release (R347, R357) -/

/-- A group's latest time in FENCED ends (R308). -/
def fenceOver (m : Nat) (s : State) : State :=
  modGrp m (fun x => { x with fences := x.fences.map (fun i => if i.till.isNone then { i with till := some s.now } else i) }) s

/-- A fenced gang is released (R347): OFF, stores rewritten, warm-up until convergence. -/
def releaseGroup (g : Nat) (s : State) : State :=
  let l := leader g s
  let s := forEach (members l s) (fun m s => rxUnitReleased m (calReleased m (writeStores m (fenceOver m (markFree m s))))) s
  setService l (setRunState l 0 s)

/-- What a system channel does once its mode stands (R45): Off is the safe state; the other modes enable it at a
constant level, High of Sync mode's low, and Clock starts the chain. It acts at the next Tref edge, and edges scheduled
before are gone (DESIGN CHOICE, log 49: the spec gives no instant). -/
def applySysMode (k : Nat) (s : State) : State :=
  let m := rd (K.sysMode k) s
  let t := nextTref s.now
  if m = 0 then enterSafe (256 + k) s.now (modSysch k (fun c => { c with running := false, pulse := none }) s)
  else
    let s := modChan (256 + k) (fun c => { c with sched :=
      [{ t, cyc := 0, gen := 8, vec := 0, act := .den true },
       { t, cyc := 0, gen := 8, vec := 0, act := .drv (m == 2) }] }) s
    modSysch k (fun c => { c with running := m == 3, next := t, resync := false, pulse := none }) s

/-- A unit is released (R347). A DRAM channel trains first and stays fenced until then. -/
def releaseUnit (u : Nat) (s : State) : State :=
  if u < 0x10 then releaseGroup u s
  else if u < 0x20 then rxUnitReleased u (releasePe (u - 0x10) (markFree u s))
  else if u < 0x24 then modDram (fun d => { d with retrain := (u - 0x20) :: d.retrain.filter (· != u - 0x20) }) s
  else if u < 0x28 then wr (K.ethLink (u - 0x24)) 0 (markFree u s)
  else if u < 0x2A then releaseTd (u - 0x28) (markFree u s)
  else if u = 0x2A then releaseRing (wr K.rlyState 0 (markFree u s))
  else if u = 0x2B then jtxOff (markFree u s)
  else if u = 0x2C then jrxOff (markFree u s)
  else s

/-- The chip is released with every unit that the fatal reaction covered (R357). -/
def releaseChip (s : State) : State :=
  let us := s.flt.covered
  let s := wr K.fltFatal 0 (markFree 0x3F { s with flt := { s.flt with covered := [] } })
  let s := forEach us (fun u s => if fenced u s then releaseUnit u s else s) s
  forEach (List.range 8) (fun k s => applySysMode k s) s

/-- Whether a class F level-type condition holds (R357). -/
def fatalHolds (s : State) : Bool :=
  s.flt.active.any (fun n => match faultSrc n with | some f => faultClass n f s = 3 | none => false)

/-- The refusal of a release in the order of R357; 0 where it is accepted. -/
def releaseRefused (u : Nat) (s : State) : Nat :=
  if !unitIdDefined u then 2
  else if !fenced u s then 1
  else if s.flt.window then 3
  else if 0x20 ≤ u ∧ u < 0x24 ∧ (List.range 16).any (fun g => busyState (runState g s) || rd (K.runArmBusy g) s = 1) then 4
  else if u = 0x3F ∧ fatalHolds s then 5
  else if u ≠ 0x3F ∧ fatal s ∧ s.flt.covered.contains u then 6
  else 0

/-- A write of FLT_RELEASE (R357). -/
def releaseBody (u : Nat) (s : State) : Ans :=
  match releaseRefused u s with
  | 0 => done (if u = 0x3F then releaseChip s else releaseUnit u s)
  | 2 => refuse Code.range (wr K.fltReleaseErr 2 s)
  | c => refuse Code.state (wr K.fltReleaseErr c s)

end Sys2Proof.Machine
end

