-- ==== Sys2Proof/Machine/Security.lean ====
section
/-! DEFINITION. The security unit: key import, segment keys, officer keys and anchors, self-tests, zeroisation
and the certified-configuration mode (19_security.md, R395–R414). The algorithms themselves are constants of
Config (assumption log 3). -/
namespace Sys2Proof.Machine

/-- A byte string at a length: cut, or filled up with zeros. -/
def fitTo (n : Nat) (b : Bytes) : Bytes := (b ++ List.replicate n 0).take n

/-- Whether VQPS is present, as SEC_VQPS shows; not while VDD_IO is below 90 % (R445), which is taken to be so while
its fault F013 holds (DESIGN CHOICE, log 65: the model holds no voltage of a rail). -/
def vqps (s : State) : Bool := rd K.pwrVqpsUv s ≠ 0 && !s.flt.active.contains 13

/-- Whether the security services are available (R410): none after a failed self-test. -/
def secUp (s : State) : Bool := rd K.secState s ≠ 2

/-- The security unit changed. -/
def modSec (f : Sec → Sec) (s : State) : State := { s with sec := f s.sec }

/-- The OTP contents changed. -/
def modOtp (f : Otp → Otp) (s : State) : State := { s with otp := f s.otp }

/-- A failed authentication or unwrap is counted and refused (R401, R402). -/
def unwrapFails (s : State) : Ans := refuse Code.refused (bump K.secAuthFails s)

/-! ### Keys (R400–R403, R408) -/

/-- The device identity public key, 97 bytes; after permanent zeroisation the key no longer exists and its
bytes are free (R400, R411). -/
def devPubKey (s : State) : Bytes :=
  if s.otp.dukOff then fitTo 97 Config.keylessPubKey else fitTo 97 (Config.devicePubKey s.otp.duk)

/-- SEC_KEKk: a KEK import blob (R401). -/
def kekWrite (k : Nat) (p : Bytes) (s : State) : Ans :=
  if leAt 0 1 p ≠ 1 then refuse Code.range s
  else need (rd K.secState s = 1 && (Tab.find k s.sec.keks).isNone) Code.state s (
    match Config.kekUnwrap s.otp.duk (p.take 1 ++ [0, 0, 0] ++ p.drop 4) with
    | none => unwrapFails s
    | some key => done (setObjBit K.secKekState k
        (modSec (fun x => { x with keks := Tab.set k (leAt 4 4 p, key) x.keks }) s)))

/-- SK_LOAD: a wrapped segment key into a slot (R402). -/
def slotLoad (slot : Nat) (p : Bytes) (s : State) : Ans :=
  let k := leAt 0 1 p
  if 3 < k then refuse Code.range s
  else need (secUp s && !(keySlot slot s).loaded && (Tab.find k s.sec.keks).isSome) Code.state s (
    match (Tab.find k s.sec.keks).bind (fun x => Config.segKeyUnwrap x.2 (p.drop 8)) with
    | none => unwrapFails s
    | some key => done (modSlot slot (fun x => { x with loaded := true, keyId := leAt 4 4 p, key }) s))

/-- SK_CLEAR: the slot is emptied and its key overwritten (R402); its counts stay. -/
def slotClear (slot v : Nat) (s : State) : Ans :=
  need (secUp s) Code.state s
    (done (onlyIf (v = 1) (modSlot slot (fun x => { x with loaded := false, keyId := 0, key := [] })) s))

/-- SEC_OFFICER_KEYk: written once into OTP (R403). A slot whose record was cut short counts as revoked (R427). -/
def officerKeyWrite (k : Nat) (p : Bytes) (s : State) : Ans :=
  need (secUp s && vqps s && (Tab.find k s.otp.officers).isNone && !bitAt s.otp.officersRevoked k) Code.state s
    (done (modOtp (fun o => { o with officers := Tab.set k p o.officers }) s))

/-- The slots of OTP that hold a key or an anchor, as a mask. -/
def heldMask (t : Tab Bytes) : Nat := maskOf (t.map (·.1))

/-- SEC_OFFICER_REVOKE (R403): refused where no enrolled key would be left unrevoked. -/
def officerRevoke (v : Nat) (s : State) : Ans :=
  let held := heldMask s.otp.officers
  let off := s.otp.officersRevoked ||| (v &&& held)
  need (secUp s) Code.state s (
    need (v &&& held = 0 || held &&& off ≠ held) Code.refused s (done (modOtp (fun o => { o with officersRevoked := off }) s)))

/-- SEC_ANCHOR_REVOKE (R408): in force at the next boot. -/
def anchorRevoke (v : Nat) (s : State) : Ans :=
  let held := heldMask s.otp.anchors
  let off := s.otp.anchorsRevoked ||| (v &&& held)
  need (secUp s && vqps s) Code.state s (
    need (v &&& held = 0 || held &&& off ≠ held) Code.refused s (done (modOtp (fun o => { o with anchorsRevoked := off }) s)))

/-- SEC_MIN_LEVEL_SET (R408): the lowest patch level is raised for good. -/
def minLevelSet (v : Nat) (s : State) : Ans :=
  if v ≤ rd K.mcMinLevel s then refuse Code.range s
  else need (secUp s && vqps s) Code.state s (done (wr K.mcMinLevel v (modOtp (fun o => { o with minLevel := v }) s)))

/-! ### Zeroisation (R411) -/

/-- Whether a group holds sealed plaintext or has a sealed fetch in progress. -/
def liveSealed (g : Nat) (s : State) : Bool :=
  (grp g s).grans.any (·.locked) || (grp g s).fetches.any (fun x => match x.kind with | .sealedImage _ => true | _ => false)

/-- The groups that do. -/
def sealedGroups (s : State) : List Nat := (List.range 16).filter (fun g => liveSealed g s)

/-- Volatile zeroisation: KEKs, segment keys, DRBG state, sealed plaintext and authenticated sessions go, and the
groups concerned receive a host HALT. A sealed fetch in progress then fails at its verification. -/
def zeroiseKeys (s : State) : State :=
  let held := sealedGroups s
  let s := wr K.secKekState 0 (modSec (fun x => { x with
    keks := []
    slots := x.slots.map (fun e => (e.1, { e.2 with loaded := false, keyId := 0, key := [] }))
    drbg := x.drbg + 1 }) s)
  let s := forEach held (fun g s => modGrp g (fun x => { x with grans := x.grans.filter (fun y => !y.locked) }) s) s
  let s := endSessions (·.auth) s
  forEach ((held.map (fun g => leader g s)).eraseDups) (fun l s => (runHalt l s).st) s

/-- Permanent zeroisation: the fuse that disables the device unique key as well. -/
def zeroiseAll (s : State) : State :=
  wr K.secState 3 (modOtp (fun o => { o with dukOff := true }) (zeroiseKeys s))

/-- SEC_ZEROISE: 1 volatile, 2 permanent. -/
def zeroiseWrite (v : Nat) (s : State) : Ans :=
  if v = 1 then need (secUp s) Code.state s (done (zeroiseKeys s))
  else if v = 2 then need (secUp s && vqps s) Code.state s (done (zeroiseAll s))
  else refuse Code.range s

/-! ### Diagnostic load, self-test, certified-configuration mode (R409, R410, R412) -/

/-- SEC_DIAG_LOAD: set outside the certified-configuration mode, after a volatile zeroisation. -/
def diagLoad (v : Nat) (s : State) : Ans :=
  need (secUp s && rd K.secCertMode s = 0) Code.state s (
    if v = 0 then done (wr K.secDiagLoad 0 { s with patch := { s.patch with diagNext := false } })
    else
      let s := zeroiseKeys s
      done (wr K.secDiagLoad 1 { s with patch := { s.patch with diagNext := true } }))

/-- A self-test fails: SEC_STATE 2, its number recorded, and F020 (R410). -/
def selftestFails (n : Nat) (s : State) : State :=
  raiseFault 20 (wrs [(K.secState, 2), (K.secSelftestResult, 2 ^ 31 + n % 256)] s)

/-- SEC_SELFTEST: the power-up set on demand; `failing` is the test that fails, 0 none. -/
def selftestWrite (v failing : Nat) (s : State) : Ans :=
  need (v = 0 || (secUp s && (sealedGroups s).isEmpty)) Code.state s
    (done (if v = 0 then s else if failing = 0 then wr K.secSelftestResult 0 s else selftestFails failing s))

/-- Whether the certified-configuration mode may be entered (R412). -/
def certAllowed (s : State) : Bool :=
  rd K.secState s = 1 && (rd K.mcodeVersion s).testBit 0 && rd K.secDiagLoad s = 0 &&
  s.sessions.all (fun x => x.role != 3) && s.sec.keks.isEmpty && s.sec.slots.all (fun e => !e.2.loaded) &&
  (List.range 16).all (fun g => !busyState (runState g s))

/-- SEC_CERT_MODE: entered, or left after a volatile zeroisation. -/
def certWrite (v : Nat) (s : State) : Ans :=
  if v = 1 then need (certAllowed s) Code.state s (done (wr K.secCertMode 1 s))
  else done (if rd K.secCertMode s = 0 then s else wr K.secCertMode 0 (zeroiseKeys s))

/-! ### VQPS -/

/-- VQPS appears or disappears: its voltage in µV, 0 absent (R403, R428). -/
def execVqpsPresenceChange (uv : Nat) (s : State) : Host.Outcome State Fault Refusal :=
  .next (wr K.pwrVqpsUv (uv % 2 ^ 32) s)

end Sys2Proof.Machine
end

