-- ==== Sys2Proof/Machine/Views.lean ====
section
/-! DEFINITION. What a READ of an object gives (17, 18 and the tables of the owning chapters): the values that
the machine holds elsewhere than in `State.objs`, the views of R374, and the capability records of R391. -/
namespace Sys2Proof.Machine

/-- The number of elements of a list of a condition, as a count. -/
def countOf {α : Type} (c : α → Bool) (l : List α) : Nat := (l.filter c).length

/-- The mask of the numbers below n that satisfy a condition. -/
def maskWhere (n : Nat) (c : Nat → Bool) : Nat := maskOf ((List.range n).filter c)

/-! ### Groups, sequencers and channels (01, 02, 03, 05) -/

/-- The base period as it reads: the staged code where one waits, otherwise the code in force (R40, R374). -/
def basePeriod (g : Nat) (s : State) : Nat :=
  match (grp g s).baseStaged with
  | some b => b.1
  | none => rd (K.cgBasePeriodAct g) s

/-- A timing set in the 36-byte layout of TS_TABLE (R48). -/
def setBytes (t : TimingSet) : Bytes := t.edges.flatMap (leBytes 4) ++ leBytes 4 t.fmt

/-- Numeric views of a group's objects (0x2000 + g, 0x3000 + g). -/
def viewGroup (x : Session) (key g : Nat) (s : State) : Option Nat :=
  if key = K.cgActiveCh g then some (activeMask g s)
  else if key = K.cgBasePeriodFs g then some (codeToFs (basePeriod g s))
  else if key = K.cgBasePeriod g then some (basePeriod g s)
  else if key = K.tsPeriodFs g then some (codeToFs (tsPeriodOf g x.tsPtr s))
  else if key = K.tsPeriod g then some (tsPeriodOf g x.tsPtr s)
  else if key = K.runStartDelayFs g then some (rd (K.runStartDelay g) s * 625000)
  else none

/-- Numeric views of a sequencer's objects (0x2040 + k). MC_ROUTINE names ARM_PREP while arming runs it (R177). -/
def viewSeq (key k : Nat) (s : State) : Option Nat :=
  if key = K.seqSeg k then some (rawPage (seq k s).segPage * 4096)
  else if key = K.seqVec k then some (seq k s).played
  else if key = K.seqLoopDepth k then some (seq k s).loops.length
  else if key = K.seqCallDepth k then some (seq k s).calls.length
  else if key = K.mcRoutine k ∧ armPrep k s then some 2
  else none

/-- Numeric views of a test channel's timing objects (0x3100 + n). -/
def viewChan (x : Session) (key n : Nat) (s : State) : Option Nat :=
  if key = K.tsFormat n then some (tset n x.tsPtr s).fmt
  else if K.tsEdgeFs n 0 ≤ key ∧ key ≤ K.tsEdgeFs n 7 then
    some (codeToFs ((tset n x.tsPtr s).edges.getD (key - K.tsEdgeFs n 0) 0))
  else if key = K.chDeskewDrvFs n then some (ofSigned 64 (codeToFsI (toSigned 32 (rd (K.chDeskewDrv n) s))))
  else if key = K.chDeskewCmpFs n then some (ofSigned 64 (codeToFsI (toSigned 32 (rd (K.chDeskewCmp n) s))))
  else none

/-- Numeric views of a system channel's objects (0x3200 + k). -/
def viewSys (key k : Nat) (s : State) : Option Nat :=
  if key = K.sysPeriodFs k then some (codeToFs (rd (K.sysPeriod k) s))
  else if key = K.sysDe0Fs k then some (codeToFs (sysEdges k s).1)
  else if key = K.sysDe1Fs k then some (codeToFs (sysEdges k s).2)
  else none

/-- SITE_STATE as it reads (R77): 0 for a site that is disabled or has no channel. -/
def siteState (site : Nat) (s : State) : Nat :=
  if rd (K.siteEnable site) s = 0 ∨ !(List.range 256).any (fun n => mappedTo site n s) then 0
  else rd (K.siteState site) s

/-! ### Engines, tasks and queues (09, 11) -/

/-- TCB_FLAGS (R270). -/
def tcbFlags (c : Tcb) : Nat :=
  (if c.rpt then 1 else 0) + (if c.res then 2 else 0) + (if c.sched then 4 else 0)

/-- The objects of 0x6001, of the task that TCB_PTR names; TCB_SERVICE is rsv for Pacer masks (R270). -/
def viewTcb (sub : Nat) (c : Tcb) : Option Nat :=
  match sub with
  | 0x01 => some c.state
  | 0x03 => some c.pri
  | 0x04 => some c.mask
  | 0x05 => some (if c.pacerMask then 0 else c.service)
  | 0x06 => some (c.argClean c.arg)
  | 0x07 => some c.delay
  | 0x08 => some c.period
  | 0x09 => some c.next
  | 0x0A => some (tcbFlags c)
  | 0x0B => some c.last
  | 0x0C => some c.engine
  | 0x0D => some c.runs
  | 0x0E => some c.coal
  | 0x0F => some c.waitLast
  | 0x10 => some c.waitMax
  | _ => none

/-- PE_CYCLES as it reads (R238): with the cycles of a wait in issue, or after a TEND, that goes on. -/
def busyCycles (e : Nat) (s : State) : Nat :=
  let p := pe e s
  (rd (K.peCycles e) s + if peState e s = 2 ∧ (p.stalled ∨ p.tended.isSome) then s.time.sys - p.issue else 0) % 2 ^ 64

/-- The objects of 0x6041, of the queue that Q_PTR names. -/
def viewQueue (sub : Nat) (q : RQueue) : Option Nat :=
  match sub with
  | 0x01 => some q.items.length
  | 0x02 => some q.level
  | 0x05 => some q.dropped
  | 0x06 => some q.lost
  | _ => none

/-- Numeric views of classes 5 and 6. -/
def viewTasks (x : Session) (key : Nat) (s : State) : Option Nat :=
  let i := key / 256
  let sub := key % 256
  if 0x5000 ≤ i ∧ i ≤ 0x500F then
    (if sub = 0x01 then some (peState (i - 0x5000) s) else if sub = 0x05 then some (busyCycles (i - 0x5000) s) else if sub = 0x06 then some (x.peAddr (i - 0x5000)) else none)
  else if i = 0x6000 then
    (if key = K.tcbPtr then some x.tcbPtr
     else if key = K.stDelayed then some (countOf (fun e => e.2.state == 3) s.tcbs)
     else if 0x20 ≤ sub ∧ sub ≤ 0x3F then some (countOf (fun e => e.2.state == 1 && e.2.pri == sub - 0x20) s.tcbs)
     else none)
  else if i = 0x6001 then viewTcb sub (tcb x.tcbPtr s)
  else if 0x6010 ≤ i ∧ i ≤ 0x6023 then (if sub = 0x01 then some (taskOf (i - 0x6010) s) else none)
  else if i = 0x6040 then
    (if key = K.qPtr then some x.qPtr
     else if key = K.rqReadMax then some x.readMax
     else if key = K.rqCacheFree then some (cacheFree s)
     else if key = K.rqSpillFree then some (spillFree s)
     else if key = K.rqItems then some (allItems s)
     else none)
  else if i = 0x6041 then viewQueue sub (rqueue x.qPtr s)
  else none

/-! ### Time, Relay, JESD204C and calibration (12–15) -/

/-- Numeric views of classes 7 to B. -/
def viewUnits (key : Nat) (s : State) : Option Nat :=
  let i := key / 256
  let sub := key % 256
  if 0x7040 ≤ i ∧ i ≤ 0x704F then
    (let g := i - 0x7040
     if sub = 0x01 then some (if leader g s = g then gangLead g s else leadNs g s)
     else if sub = 0x06 then some (blocksFree g s) else none)
  else if i = 0x8000 then
    (if key = K.timeNow then some s.time.act
     else if key = K.timeHeld then some (ofSigned 64 s.time.h)
     else if key = K.timeHeldFs then some (ofSigned 64 (fracToFs s.time.h))
     else if key = K.timeTrefCount then some (s.now / tref)
     else if key = K.timeTrefRatio then some (trefRatio s)
     else none)
  else if i = 0x8010 ∨ i = 0x8011 then
    (let d := i - 0x8010
     if key = K.tdState d then some (tdState d s)
     else if key = K.tdTime d then some (tdCount d s)
     else if key = K.tdIncPpb d then some (ofSigned 32 (ppbOfInc (tdInc d s)))
     else none)
  else if 0x8040 ≤ i ∧ i ≤ 0x804F then
    (let t := i - 0x8040
     if key = K.tmrCmpTime t then some (fullCmp t s)
     else if key = K.tmrPeriodFs t then some (periodFs (rd (K.tmrPeriod t) s))
     else none)
  else if key = K.rlyCount then some (ringCount s)
  else if key = K.rlyPosition ∧ ¬ ringUp s then some 0xFF
  else if key = K.jtxNcoFreqHz then some (ncoFreqRead s)
  else if key = K.calStatus then some (chipStatus s)
  else if key = K.calUidtag then some s.otp.uidTag
  else if 0xB010 ≤ i ∧ i ≤ 0xB01F then
    (let g := i - 0xB010
     if sub = 0x01 then some (grpStatus g s) else if sub = 0x03 then some (failChans g s) else none)
  else if 0xB100 ≤ i ∧ i ≤ 0xB1FF then some (chStatus (i - 0xB100) s)
  else if 0xB200 ≤ i ∧ i ≤ 0xB207 then
    (let k := i - 0xB200
     if sub = 0x01 then some (slotStatus (256 + k) s)
     else if sub = 0x05 then some (ofSigned 64 (codeToFsI (calPath (256 + k) 0 s).c))
     else if sub = 0x06 then some (ofSigned 64 (codeToFsI (calPath (256 + k) 1 s).c))
     else none)
  else none

/-! ### Baton, faults, security, identity (16–19) -/

/-- Numeric views of classes 0, 1, C and D. -/
def viewHost (x : Session) (key : Nat) (s : State) : Option Nat :=
  let i := key / 256
  let sub := key % 256
  if key = K.idStepping then some s.otp.stepping
  else if key = K.idSerial then some s.otp.serial
  else if key = K.batonSessions then some s.sessions.length
  else if key = K.sesId then some x.id.toNat
  else if key = K.sesRole then some x.role
  else if key = K.sesExpert then some (if x.expert then 1 else 0)
  else if key = K.sesSeqHigh then some x.h.toNat
  else if key = K.sesReplays then some x.replays
  else if key = K.sesSubs then some x.subs.length
  else if key = K.sesNotifyLost then some x.notifyLost
  else if key = K.tsPtr then some x.tsPtr
  else if 0xC010 ≤ i ∧ i ≤ 0xC013 ∧ sub = 0x03 then some (if (fltin (i - 0xC010) s).active then 1 else 0)
  else if key = K.secVqps then some (if vqps s then 1 else 0)
  else if key = K.secOfficerRevoke then some s.otp.officersRevoked
  else if key = K.secAnchorRevoke then some s.otp.anchorsRevoked
  else if 0xD010 ≤ i ∧ i ≤ 0xD04F then
    (let k := keySlot (i - 0xD010) s
     match sub with
     | 0x01 => some (if k.loaded then 1 else 0)
     | 0x03 => some k.keyId
     | 0x05 => some k.uses
     | 0x06 => some k.fails
     | _ => none)
  else none

/-- The value of a numeric object as a READ gives it. -/
def viewNum (x : Session) (key : Nat) (s : State) : Nat :=
  let i := key / 256
  let v :=
    if 0x2000 ≤ i ∧ i ≤ 0x200F then viewGroup x key (i - 0x2000) s
    else if 0x3000 ≤ i ∧ i ≤ 0x300F then viewGroup x key (i - 0x3000) s
    else if 0x2040 ≤ i ∧ i ≤ 0x204F then viewSeq key (i - 0x2040) s
    -- requests that have arrived by now are seen (R152)
    else if 0x2060 ≤ i ∧ i ≤ 0x206F then some (rd key (landJumps (i - 0x2060) s.now s))
    else if 0x3100 ≤ i ∧ i ≤ 0x31FF then viewChan x key (i - 0x3100) s
    else if 0x3200 ≤ i ∧ i ≤ 0x3207 then viewSys key (i - 0x3200) s
    else if 0x4000 ≤ i ∧ i ≤ 0x400F ∧ key % 256 = 0x01 then some (grp (i - 0x4000) s).fifo.length
    else if 0x4200 ≤ i ∧ i ≤ 0x423F ∧ key % 256 = 0x02 then some (siteState (i - 0x4200) s)
    else if 0x5000 ≤ i ∧ i < 0x7000 then viewTasks x key s
    else if 0x7000 ≤ i ∧ i < 0xC000 then viewUnits key s
    else viewHost x key s
  v.getD (rd key s)

/-! ### Strings and BLOBs -/

/-- "Kuzhaven" in UTF-8. -/
def vendorName : Bytes := [0x4B, 0x75, 0x7A, 0x68, 0x61, 0x76, 0x65, 0x6E]

/-- "TRL-9256" in UTF-8. -/
def partName : Bytes := [0x54, 0x52, 0x4C, 0x2D, 0x39, 0x32, 0x35, 0x36]

/-- TIME_SNAPSHOT: ACT, TDA, TDB and Ck of one tick. -/
def snapshot (s : State) : Bytes :=
  leBytes 12 s.time.act ++ leBytes 12 (tdCount 0 s) ++ leBytes 12 (tdCount 1 s) ++ leBytes 8 s.time.ck

/-- Q_HIT_MAP of the site of a queue (R277). -/
def hitMap (q : Nat) (s : State) : Bytes := leBytes 512 (Tab.get 0 (q / 4096) s.rqm.hits)

/-- A BLOB or string as a READ gives it; one that nothing holds elsewhere reads as stored, with zeros as default. -/
def viewBlob (x : Session) (key : Nat) (row : ObjRow) (s : State) : Bytes :=
  let i := key / 256
  let sub := key % 256
  if key = K.idVendor then vendorName
  else if key = K.idPart then partName
  else if 0x1010 ≤ i ∧ i ≤ 0x1013 ∧ sub = 0x02 then fitTo 6 (Tab.get [] (i - 0x1010) s.otp.macs)
  else if 0x2060 ≤ i ∧ i ≤ 0x206F then blob (List.replicate 8 0xFF) key s
  else if 0x3000 ≤ i ∧ i ≤ 0x300F then (List.range 64).flatMap (fun t => leBytes 4 (tsPeriodOf (i - 0x3000) t s))
  else if 0x3100 ≤ i ∧ i ≤ 0x31FF then
    (if sub = 0x02 then (tset (i - 0x3100) x.tsPtr s).edges.flatMap (leBytes 4)
     else (List.range 64).flatMap (fun t => setBytes (tset (i - 0x3100) t s)))
  else if 0x3200 ≤ i ∧ i ≤ 0x3207 then
    (let e := sysEdges (i - 0x3200) s
     leBytes 4 e.1 ++ leBytes 4 e.2)
  else if 0x4000 ≤ i ∧ i ≤ 0x400F then firstSlots (i - 0x4000) s
  else if 0x5000 ≤ i ∧ i ≤ 0x500F then peRegs (i - 0x5000) s
  else if key = K.qHitMap then hitMap x.qPtr s
  else if key = K.timeSnapshot then snapshot s
  else if key = K.jtxParams ∨ key = K.jrxParams then blob [1, 1, 1, 1, 20] key s
  else if 0xB200 ≤ i ∧ i ≤ 0xB207 then calRecord (i - 0xB200) s
  else if key = K.fltSticky then stickyBytes s
  else if key = K.secDevPubkey then devPubKey s
  else if key = K.secDevCert then fitTo 512 s.otp.devCert
  else if i = 0xD000 ∧ 0x10 ≤ sub ∧ sub ≤ 0x13 then fitTo 97 (Tab.get [] (sub - 0x10) s.otp.officers)
  else match row.ty with
    | .blob n _ => blob (List.replicate n 0) key s
    | _ => blob [] key s

/-! ### Capability records (R382, R391–R393) -/

/-- The groups that are not fenced, as a mask. -/
def groupsAvail (s : State) : Nat := maskWhere 16 (fun g => !fenced g s)

/-- The sites without a channel in a fenced group, as a mask. -/
def sitesUsable (s : State) : Nat :=
  maskWhere 64 (fun site => !(List.range 256).any (fun n => mappedTo site n s && fenced (n / 16) s))

/-- STATE of a record with an availability mask (R392): no instance is ever excluded or unready on this stepping,
so one that is not available is fenced. -/
def availState (mask : Nat) : Nat := if mask = 0 then 1 else 0

/-- STATE of the record of a JESD204C direction (R392), from its link state: 5 FENCED, 4 UP. -/
def jesdCap (unit st : Nat) (s : State) : Nat := if fenced unit s then 1 else if st = 4 then 0 else 2

/-- STATE and PARAMS of record n (R391, R392). -/
def capBody (n : Nat) (s : State) : Nat × Bytes :=
  let u8 := leBytes 1
  let u16 := leBytes 2
  let u32 := leBytes 4
  let u64 := leBytes 8
  let ga := groupsAvail s
  match n with
  | 0x00 => (availState ga, u16 256 ++ u8 8 ++ u8 16 ++ u16 ga ++
      u16 (maskWhere 16 (fun g => !fenced g s && rd (K.cgService g) s = 0)))
  | 0x01 => (0, u8 7 ++ u8 64 ++ u8 16 ++ u8 4 ++ u8 16)
  | 0x02 => (availState ga, u16 ga ++ u8 8 ++ u8 16 ++ u8 16)
  | 0x03 => (0, u32 (rd K.mcodeVersion s))
  | 0x04 => (availState ga, u16 ga ++ u16 610)
  | 0x05 => (if fatal s then 1 else availState (sitesUsable s), u8 64 ++ u64 (sitesUsable s))
  | 0x06 => (if rd K.dramReady s = 1 then 0 else 2,
      u8 (rd K.dramMap s) ++ u8 (rd K.dramDensity s) ++ u16 (rd K.dramSpeed s) ++
      u8 (maskWhere 4 (fun c => !fenced (0x20 + c) s)) ++ u64 (rd K.dramMappedBytes s))
  | 0x07 =>
      let a := maskWhere 16 (fun e => !fenced (0x10 + e) s)
      (availState a, u16 a ++ u8 2 ++ u16 1000)
  | 0x08 => (0, u16 4096 ++ u8 32 ++ u8 15)
  | 0x09 => (0, u32 262144 ++ u16 (rd K.rqStreams s) ++ u32 65536 ++ u64 (if s.rqm.noSpill then 0 else rd K.rqSpillSize s))
  | 0x0A =>
      let a := maskWhere 2 (fun d => !fenced (0x28 + d) s)
      (availState a, u8 a ++ u8 (rd K.timeActiveSel s) ++ u8 16)
  | 0x0B => (if fenced 0x2A s then 1 else if rd K.rlyState s = 2 then 0 else 2,
      u8 (rd K.rlyState s) ++ u8 (rd K.rlyMembers s) ++ u8 32)
  | 0x0C => (jesdCap 0x2B (rd K.jtxState s) s, u8 8 ++ u8 (rd K.jtxState s))
  | 0x0D => (jesdCap 0x2C (rd K.jrxState s) s, u8 8 ++ u8 (rd K.jrxState s))
  | 0x0E =>
      let a := maskWhere 4 (fun p => !fenced (0x24 + p) s)
      (availState a, u8 a ++ u8 (maskWhere 4 (fun p => rd (K.ethLink p) s = 1)))
  | 0x0F => (0, u8 (chipStatus s) ++ u16 (maskWhere 16 (fun g => grpStatus g s = 1)))
  | 0x10 => (0, u8 64 ++ u8 (rd K.secCertMode s))
  | 0x11 => (0, u16 512 ++ u8 4)
  | _ => (0, u8 8 ++ u8 1)

/-- The capability record at an index from 0x0100 to 0x0112. -/
def capRecord (i : Nat) (s : State) : Bytes :=
  let n := i - 0x0100
  let b := capBody n s
  leBytes 2 (n + 1) ++ [1, 0] ++ leBytes 2 (if n = 0x12 then 0 else i + 1) ++ leBytes 1 b.1 ++ leBytes 1 b.2.length ++ b.2

/-! ### READ -/

/-- The value of an object as a session reads it. -/
def valueBytes (x : Session) (key : Nat) (row : ObjRow) (s : State) : Bytes :=
  if isCapIndex (key / 256) then capRecord (key / 256) s
  else match row.ty with
    | .blob _ _ | .str => viewBlob x key row s
    | ty => leBytes ty.size (viewNum x key s)

/-- A state rule that refuses a READ: PE_REGS while the engine runs (R238), SYS_CAL_REC before the slot has
converged (R338). -/
def readState (key : Nat) (s : State) : Bool :=
  let i := key / 256
  if 0x5000 ≤ i ∧ i ≤ 0x500F ∧ key % 256 = 0x08 then
    (peState (i - 0x5000) s = 0 || peState (i - 0x5000) s = 3 || peState (i - 0x5000) s = 4)
  else if 0xB200 ≤ i ∧ i ≤ 0xB207 ∧ key % 256 = 0x02 then slotStatus (256 + (i - 0xB200)) s = 1
  else true

/-- A READ of FAIL_POP: up to 64 oldest records leave the FIFO, as many as fit the answer (R74, R369). -/
def failPopRead (g : Nat) (x : Session) (s : State) : Ans :=
  let l := (grp g s).fifo
  let n := takeable g (min 64 (answerMax x s / 16)) s
  give ((l.take n).flatMap entryBytes) (popRecords g n s)

/-- A READ of CAP_READ: up to 64 oldest entries are read and released (R68, R369). -/
def capReadRead (g : Nat) (x : Session) (s : State) : Ans :=
  let drains := rd (K.capMode g) s = 2 ∧ rd (K.capSpillSize g) s ≠ 0
  let n := if drains then 0 else min 64 (min (rd (K.capFill g) s) (answerMax x s / 16))
  give ((oldestEntries g n s).flatMap entryBytes) (releaseEntries g n s)

/-- A READ of an object (R363): the checks in their order, then the value. The four reads that change state act
as their chapters say; `delivered` is how many items DP4 brings within 1 ms for a Q_READ (R276). -/
def readObj (delivered key : Nat) (p : Bytes) (x : Session) (s : State) : Ans :=
  if key / 256 = 0x1800 ∨ key = K.bootStage then refuse Code.opcode s
  else if classF key then
    (if x.role < 3 then refuse Code.rights s
     else
       let e := drawBool s
       let v := drawNat e.2
       if e.1 then give [Config.freeByte v.1] v.2 else refuse Code.noObject v.2)
  else match readChecks key s with
    | .error c => refuse c s
    | .ok row =>
      let i := key / 256
      if p ≠ [] then refuse Code.format s
      else if statefulRead key then
        (if key = K.qRead then qReadBody delivered x s
         else if 0x5000 ≤ i then memDataRead (i - 0x5000) x s
         else if key % 256 = 0x02 then failPopRead (i - 0x4000) x s
         else capReadRead (i - 0x4000) x s)
      else
        let v := valueBytes x key row s
        if answerMax x s < v.length then refuse Code.format s
        else if !readState key s then refuse Code.state s
        else give v s

end Sys2Proof.Machine
end

