-- ==== Sys2Proof/Machine/Reset.lean ====
section
/-! DEFINITION. Resets (R419, R427), the check of a boot image (R423), and the boot loader's commands (R425):
20_power_clocks_reset.md. -/
namespace Sys2Proof.Machine

/-! ### Reset (R419) -/

/-- Whether a trigger input is active once TRIG_POL is 0 again: its level as the board drives it. -/
def trigAfterReset (i : Nat) (s : State) : Bool := (trig i s).active != (rd (K.trigPol i) s == 1)

/-- A comparator's inputs as the board drives them, after a reset. -/
def Chan.afterReset (c : Chan) : Chan := { cmpH := c.cmpH, cmpL := c.cmpL }

/-- Objects that show what the board applies, kept over a reset: the rail voltages. -/
def measuredObjs (s : State) : Tab Nat := s.objs.filter (fun e => 0xE00020 ≤ e.1 && e.1 ≤ 0xE00027)

/-- The machine after a reset: all volatile state at its defaults, what lies outside the chip or in OTP as it
is, and the Pacer engines' memories as they stand (R213). The free values go on where they are; the queue and the
latest answer stand. -/
def afterReset (step cause : Nat) (s : State) : State :=
  let t : State := {
    pending := s.pending
    objs := measuredObjs s
    free := s.free
    chans := s.chans.map (fun e : Nat × Chan => (e.1, e.2.afterReset))
    pes := s.pes.map (fun e : Nat × Pe => (e.1, { pm := e.2.pm, xm := e.2.xm, ym := e.2.ym }))
    trigs := (List.range 8).map (fun i => (i, { active := trigAfterReset i s }))
    baton := { answer := s.baton.answer }
    otp := s.otp
    boot := { flash := s.boot.flash, bootsel := s.boot.bootsel, density := s.boot.density }
    jtag := s.jtag }
  let t := forEach (List.range 8) (fun i s => wr (K.trigLevel i) (if (trig i s).active then 1 else 0) s) t
  wrs [(K.startStep, step), (K.resetCause, cause)] t

/-- Cold reset (R419): start-up restarts at step 1. -/
def coldReset (s : State) : State := afterReset 1 0 s

/-- Warm reset (R419): start-up restarts at step 3; the references stay present. -/
def warmReset (cause : Nat) (s : State) : State :=
  wr K.clkStatus (rd K.clkStatus s % 4) (afterReset 3 cause s)

/-- PORST_N falls: cold reset. -/
def execPorstN (s : State) : Host.Outcome State Fault Refusal := .next (coldReset s)

/-- SYSRST_N falls: warm reset, ignored while PORST_N is low, which is step 1. -/
def execSysrstN (s : State) : Host.Outcome State Fault Refusal :=
  .next (if rd K.startStep s = 1 then s else warmReset 1 s)

/-- A write of RESET_CMD (R419). -/
def resetBody (v : Nat) (s : State) : Ans := need (v = 1) Code.range s (done (warmReset 2 s))

/-! ### Boot images (R423) -/

/-- The greatest size of an image: 16 MiB. -/
def imageMax : Nat := 16777216

/-- A section's place and CRC check (R423). -/
def sectionOk (b : Bytes) (x : Nat × Nat × Nat × Nat) : Bool :=
  64 + 16 * leAt 12 4 b ≤ x.2.1 && x.2.1 + x.2.2.1 ≤ b.length - 96 && crc32c (slice x.2.1 x.2.2.1 b) = x.2.2.2

/-- How many sections of a type an image has. -/
def sectionCount (t : Nat) (b : Bytes) : Nat := countOf (fun x => x.1 == t) (bootSections b)

/-- The sections that R423 asks for: their counts, and the sizes that it states. -/
def sectionsOk (b : Bytes) : Bool :=
  (bootSections b).all (fun x => 1 ≤ x.1 && x.1 ≤ 5) &&
  sectionCount 1 b = 1 && sectionCount 2 b = 1 && sectionCount 3 b ≤ 1 && sectionCount 4 b ≤ 1 && sectionCount 5 b = 1 &&
  (match bootSection 2 b with | some m => m.length = 4 + storeBytes && leAt 2 2 m = 0 | none => false) &&
  (codeKey b).length = 97

/-- Whether a code-signing key matches an unrevoked anchor (R408). -/
def anchored (key : Bytes) (s : State) : Bool :=
  (List.range 4).any (fun k => !bitAt s.otp.anchorsRevoked k && Tab.find k s.otp.anchors == some (Config.sha384 key))

/-- The version word of an image's microcode, without a patch: MAJOR, MINOR, level 0 (R183). -/
def baseVersion (b : Bytes) : Nat :=
  let m := (bootSection 2 b).getD []
  leAt 0 1 m * 2 ^ 24 + leAt 1 1 m * 2 ^ 16

/-- Whether any patch of an image passes VERIFY (R181, R423). -/
def imagePatchOk (b : Bytes) (s : State) : Bool :=
  match bootSection 3 b with
  | none => true
  | some p => patchFails p (codeKey b) s.otp.stepping (baseVersion b) 0 s.otp.minLevel false = 0

/-- Whether an image is valid (R423). -/
def imageValid (b : Bytes) (s : State) : Bool :=
  160 ≤ b.length && b.length ≤ imageMax && leAt 0 4 b = 0x4B544249 && leAt 4 1 b = 1 && leAt 5 1 b = s.otp.stepping &&
  leAt 6 2 b = 0 && 2 ≤ leAt 12 4 b && leAt 12 4 b ≤ 8 && leAt 16 4 b = b.length && allZero (slice 20 44 b) &&
  (List.range (leAt 12 4 b)).all (fun i => leAt (64 + 16 * i + 2) 2 b = 0) &&
  (bootSections b).all (sectionOk b) && sectionsOk b && anchored (codeKey b) s &&
  Config.ecdsaVerify (codeKey b) (b.take (b.length - 96)) (b.drop (b.length - 96)) && imagePatchOk b s

/-- An image from a store of bytes: as long as its TOTAL_BYTES says, no longer than the store allows. -/
def imageFrom (base : Nat) (t : Tab Byte) : Bytes :=
  let at_ (o : Nat) : Byte := Tab.get 0 (base + o) t
  (List.range (min imageMax (leNat ((List.range 4).map (fun i => at_ (16 + i)))))).map at_

/-- The image of a flash slot (R422). -/
def flashImage (slot : Nat) (s : State) : Bytes := imageFrom (slot * imageMax) s.boot.flash

/-- The flash slots in the order in which they are tried: the higher IMG_SEQ first, slot 0 at a tie (R422, R427). -/
def slotOrder (s : State) : List Nat :=
  if leAt 8 4 (flashImage 0 s) < leAt 8 4 (flashImage 1 s) then [1, 0] else [0, 1]

/-- The device density, capacity and speed that training finds (R186, R420, R424): `speed` is the configured one. -/
def startTraining (speed : Nat) (s : State) : State :=
  restartRefresh <| wrs [(K.dramDensity, s.boot.density), (K.dramMap, 0), (K.dramMappedBytes, capacityOf 0 s.boot.density),
    (K.dramSpeed, speed), (K.dramSpeedReq, speed), (K.dramReady, 0), (K.startStep, 7)] s

/-! ### Configuration records (R424) -/

/-- A configuration record: its key, whether its rsv fields are zero, and its value. -/
structure CfgRec where
  key   : Nat
  rsvOk : Bool
  value : Bytes

/-- The records of section 4, with at most `n` of them; what is cut short ends the list as a record without value
that is refused. -/
def cfgRecords : Nat → Bytes → List CfgRec
  | 0, _ => []
  | n + 1, b =>
    if b.isEmpty then []
    else
      let len := leAt 4 2 b
      let whole := 8 + 4 * ceilDiv len 4
      if b.length < whole then [⟨leAt 0 2 b * 256 + leAt 2 1 b, false, []⟩]
      else ⟨leAt 0 2 b * 256 + leAt 2 1 b, leAt 3 1 b = 0 && leAt 6 2 b = 0, slice 8 len b⟩ :: cfgRecords n (b.drop whole)

/-- The configuration records of an image. -/
def imageRecords (b : Bytes) : List CfgRec :=
  let c := (bootSection 4 b).getD []
  cfgRecords c.length c

/-- The speed that the records configure, 6,400 MT/s by default (R424). -/
def configuredSpeed (b : Bytes) : Nat :=
  let ok (v : Nat) : Bool := v = 4800 || v = 5600 || v = 6400
  match (imageRecords b).reverse.find? (fun c => c.key == K.dramSpeedReq && c.rsvOk && c.value.length == 2 && ok (leNat c.value)) with
  | some c => leNat c.value
  | none => 6400

/-- An accepted image takes force and step 6 completes (R420, R423): its microcode with any patch goes to every
sequencer, the firmware starts, and training begins. The firmware's version number is no field of the image, so it
is a free value. -/
def bootImage (slot : Nat) (b : Bytes) (s : State) : State :=
  let base := ((bootSection 2 b).getD []).drop 4
  let s := { s with
    boot := { s.boot with image := b, loader := false, stage := [] }
    patch := { s.patch with base := base } }
  let p := (bootSection 3 b).getD []
  let recs := (patchRecords (leAt 12 4 p) (slice 64 (patchBody p) p)).getD []
  let s := if p.isEmpty then masterInForce base (versionWord (baseVersion b) 0 true) s
    else masterInForce (buildMaster base recs) (versionWord (baseVersion b) (leAt 8 1 p) true) s
  let v := drawNat s
  let s := wrs [(K.bootSlot, slot), (K.idBootSource, if slot = 2 then 1 else 0), (K.bootImgSeq, leAt 8 4 b),
    (K.idFwVersion, v.1 % 2 ^ 32)] v.2
  startTraining (configuredSpeed b) s

/-- Step 6 with the flash (R422): the first valid slot boots; otherwise the Baton loader starts. -/
def bootFromFlash (s : State) : State :=
  match (slotOrder s).find? (fun k => imageValid (flashImage k s) s) with
  | some k => bootImage k (flashImage k s) s
  | none => wrs [(K.bootSlot, 2), (K.idBootSource, 1)] { s with boot := { s.boot with loader := true } }

/-- Step 6 with BOOTSEL high: the Baton loader starts directly (R422). -/
def startLoader (s : State) : State :=
  wrs [(K.bootSlot, 2), (K.idBootSource, 1)] { s with boot := { s.boot with loader := true } }

/-! ### The loader's commands (R425) -/

/-- A write of BOOT_CMD: the staged image is checked; accepted, it boots and every loader session ends. -/
def bootBody (v : Nat) (s : State) : Ans :=
  need (v = 1) Code.range s <| need s.boot.loader Code.state s
    (let b := imageFrom 0 s.boot.stage
     if imageValid b s then done (endSessions (fun _ => true) (wr K.bootStatus 2 (bootImage 2 b s)))
     else done (wr K.bootStatus 3 s))

/-- A block of the boot image is staged (R425): executed by itself, into the SRAM of the vector caches. -/
def stageBoot (offset total : Nat) (data : Bytes) (s : State) : Ans :=
  need (total = 0 && offset + data.length ≤ imageMax) Code.stage s <| need s.boot.loader Code.state s
    (done { s with boot := { s.boot with
      stage := (data.foldl (fun (a : Nat × Tab Byte) b => (a.1 + 1, Tab.set a.1 b a.2)) (offset, s.boot.stage)).2 } })

end Sys2Proof.Machine
end

