-- ==== Sys2Proof/Machine/Writes.lean ====
section
/-! DEFINITION. What a WRITE of an object does (17, and the rules of the owning chapters): the range, state and
other refusals in the order of R363, then the effect. -/
namespace Sys2Proof.Machine

/-! ### State rules (R372 and the owning chapters) -/

/-- Whether the group, channel, sequencer, gang, site or PTP instance of an RWS object is stopped (R372). -/
def stopped (key : Nat) (s : State) : Bool :=
  let i := key / 256
  let free (g : Nat) : Bool := !busyState (runState g s)
  if 0x2000 ≤ i ∧ i ≤ 0x200F then free (i - 0x2000)
  else if 0x2040 ≤ i ∧ i ≤ 0x204F then free (i - 0x2040)
  else if 0x2060 ≤ i ∧ i ≤ 0x206F then free (i - 0x2060)
  else if 0x3000 ≤ i ∧ i ≤ 0x300F then free (i - 0x3000)
  else if 0x3100 ≤ i ∧ i ≤ 0x31FF then free ((i - 0x3100) / 16)
  else if 0x4000 ≤ i ∧ i ≤ 0x400F then free (i - 0x4000)
  else if 0x4100 ≤ i ∧ i ≤ 0x41FF then free ((i - 0x4100) / 16)
  else if 0x4200 ≤ i ∧ i ≤ 0x423F then
    (List.range 16).all (fun g => free g || !siteInGroup (i - 0x4200) g s)
  else if 0x7040 ≤ i ∧ i ≤ 0x704F then free (i - 0x7040)
  else if 0x8010 ≤ i ∧ i ≤ 0x8011 then rd (K.ptpEnable (i - 0x8010)) s = 0
  else if 0x9010 ≤ i ∧ i ≤ 0x901F then free (i - 0x9010)
  else true

/-- Whether a sequencer object belongs to a member that does not lead its gang: writes to it are refused (R134). -/
def memberSeq (key : Nat) (s : State) : Bool :=
  let i := key / 256
  0x2040 ≤ i && i ≤ 0x204F && leader (i - 0x2040) s != i - 0x2040

/-! ### Groups (R14, R15, R17, R19) -/

/-- Whether a group is in OFF or READY. A group that is being armed still reads READY and counts as such (DESIGN CHOICE,
log 55: the spec does not say); arming checks the mode again at its end. -/
def atRest (g : Nat) (s : State) : Bool := runState g s ≤ 1

/-- The odd channels of a group take the safe state, or the levels of READY entered from OFF (R15, R138). -/
def oddSafe (g : Nat) (s : State) : State :=
  forEach (List.range 8) (fun i s => enterSafe (16 * g + 2 * i + 1) s.now s) s

/-- One group's mode set; entering or leaving Dash moves its odd channels. -/
def putMode (v g : Nat) (s : State) : State :=
  let old := mode g s
  let s := wr (K.cgMode g) v s
  if old ≠ v ∧ (old = 2 ∨ v = 2) then oddSafe g s else s

/-- CG_MODE (R14): in OFF and READY only; on a leader for every member. -/
def modeWrite (g v : Nat) (s : State) : Ans :=
  need (atRest g s) Code.state s <| need (leader g s = g) Code.refused s
    (done (forEach (members g s) (putMode v) s))

/-- The gang map as it would stand with CG_GANG of g written. -/
def gangMap (g v : Nat) (s : State) (i : Nat) : Nat := if i = g then v else rd (K.cgGang i) s

/-- Whether a gang map is one of consecutive groups, each under a leader that leads itself (R17). -/
def gangMapOk (m : Nat → Nat) : Bool :=
  (List.range 16).all (fun i => m i ≤ i && m (m i) = m i && (List.range 16).all (fun j => !(m i ≤ j && j ≤ i) || m j = m i))

/-- The groups that a write of CG_GANG concerns: the gang that g leaves and the one it joins. -/
def gangConcerned (g v : Nat) (s : State) : List Nat :=
  (List.range 16).filter (fun i => leader i s = leader g s || leader i s = v || i = g || i = v)

/-- CG_GANG (R17). -/
def gangWrite (g v : Nat) (s : State) : Ans :=
  let l := gangConcerned g v s
  need (l.all (fun i => atRest i s && runState i s = runState v s)) Code.state s <|
  need (gangMapOk (gangMap g v s) && mode g s = mode v s) Code.refused s
    (done (forEach l (fun i s => if leader i s = i then setService i s else s) (wr (K.cgGang g) v s)))

/-- CG_WARMUP_REQ (R19): on a leader for every member; the service follows in OFF and READY. -/
def warmupWrite (g v : Nat) (s : State) : Ans :=
  need (leader g s = g) Code.refused s
    (done (setService g (forEach (members g s) (fun i s => wr (K.cgWarmupReq i) v s) s)))

/-- CG_BASE_PERIOD as a code (R40): staged, replaced or withdrawn in ARMED, RUNNING and PAUSED; otherwise in force
at once. That of a gang member which does not lead waits for the end of the run, the leader's alone acting at a
boundary, and it is judged against the sets that inherit from the leader (DESIGN CHOICE, log 55). -/
def basePeriodWrite (g code : Nat) (s : State) : Ans :=
  need (code < 2 ^ 32) Code.range s <|
  if busyState (runState g s) then
    (if code = rd (K.cgBasePeriodAct g) s then
       done (wr (K.cgBasePending g) 0 (modGrp g (fun x => { x with baseStaged := none }) s))
     else need (basePeriodOk g code s) Code.refused s
       (done (wr (K.cgBasePending g) 1 (modGrp g (fun x => { x with baseStaged := some (code, s.now) }) s))))
  else done (wrs [(K.cgBasePeriodAct g, code), (K.cgBasePending g, 0)] (modGrp g (fun x => { x with baseStaged := none }) s))

/-! ### Timing sets and channels (R41, R46, R48, R138, R176) -/

/-- A bank has been written whole: MC_TS_RELOAD_LEFT counts it, and the last one clears MC_TS_LOCK (R176). Item 0
is the period table of the leader, item 1 + n the table of channel n. -/
def bankWritten (g item : Nat) (s : State) : State :=
  let l := leader g s
  if rd (K.mcTsLock l) s = 0 then s
  else
    let left := (seq l s).tsNeed.filter (· != item)
    wrs [(K.mcTsReloadLeft l, left.length), (K.mcTsLock l, if left.isEmpty then 0 else 1)]
      (modSeq l (fun q => { q with tsNeed := left }) s)

/-- TS_PERIOD_TABLE (R48). -/
def periodTableWrite (g : Nat) (p : Bytes) (s : State) : Ans :=
  let s := forEach (List.range 64) (fun t s => setTsPeriod g t (leAt (4 * t) 4 p) s) s
  done (if leader g s = g then bankWritten g 0 s else s)

/-- TS_TABLE (R48). -/
def tsTableBody (n : Nat) (p : Bytes) (s : State) : Ans :=
  done (bankWritten (n / 16) (1 + n) (forEach (List.range 64) (fun t s => setTset n t (parseSet (slice (36 * t) 36 p)) s) s))

/-- The eight codes of TS_EDGE (R48). -/
def edgeCodes (p : Bytes) : List Nat := (List.range 8).map (fun i => leAt (4 * i) 4 p)

/-- One edge of a timing set written in fs (R48). -/
def edgeFsWrite (n t i fs : Nat) (s : State) : Ans :=
  need (fsToCode fs < 2 ^ 32) Code.range s
    (done (setTset n t { tset n t s with edges := (tset n t s).edges.set i (fsToCode fs) } s))

/-- A deskew written in fs, to the code object (R44, R48). -/
def deskewFsWrite (key v : Nat) (s : State) : Ans :=
  let c := fsToCodeI (toSigned 64 v)
  need (-8192 ≤ c && c ≤ 8191) Code.range s (done (wr key (ofSigned 32 c) s))

/-- CH_TERM_SEL (R138): where DRV is defined as that level, it moves at the next Tref edge. -/
def termSelWrite (n v : Nat) (s : State) : Ans :=
  let s := wr (K.chTermSel n) v s
  let entering := (chan n s).sched.any (fun e => e.act == .safeDrv)
  done (if termLevel n s ∧ ¬ entering then placeFree n { t := nextTref s.now, cyc := 0, gen := 8, vec := 0, act := .safeDrv } s
        else s)

/-- A system channel's period, edges or format written together (R46, R49): refused where R49 is broken; in force
from the end of the cycle in progress. -/
def sysTiming (k period de0 de1 fmt : Nat) (s : State) : Ans :=
  need (period < 2 ^ 32 && 1024 ≤ period && de0 < 2 ^ 32 && de1 < 2 ^ 32) Code.range s <|
  need (sysTimingOk period de0 de1 fmt) Code.refused s
    (done (modSysch k (fun c => { c with resync := c.running })
      (setBlob (K.sysEdge k) (leBytes 4 de0 ++ leBytes 4 de1) (wrs [(K.sysPeriod k, period), (K.sysFormat k, fmt)] s))))

/-- A write of one of a system channel's timing objects. -/
def sysTimingBody (k sub : Nat) (p : Bytes) (s : State) : Ans :=
  let period := rd (K.sysPeriod k) s
  let fmt := rd (K.sysFormat k) s
  let e := sysEdges k s
  match sub with
  | 2 => need (625000 ≤ leNat p) Code.range s (sysTiming k (fsToCode (leNat p)) e.1 e.2 fmt s)
  | 3 => sysTiming k (leNat p) e.1 e.2 fmt s
  | 4 => sysTiming k period e.1 e.2 (leNat p) s
  | 5 => sysTiming k period (fsToCode (leNat p)) e.2 fmt s
  | 6 => sysTiming k period e.1 (fsToCode (leNat p)) fmt s
  | _ => sysTiming k period (leAt 0 4 p) (leAt 4 4 p) fmt s

/-- SYS_MODE (R45); under the fatal reaction, and while TCLK is not locked, the safe state holds until the release (R12,
R349). -/
def sysModeWrite (k v : Nat) (s : State) : Ans :=
  let s' := wr (K.sysMode k) v s
  done (if fatal s ∨ ¬ tclkLocked s then s' else applySysMode k s')

/-! ### Capture and fails (R62, R67–R70) -/

/-- CAP_BASE (R62, R322): an accepted write restarts the ring empty. -/
def capBaseBody (g v : Nat) (s : State) : Ans :=
  need (v % 64 = 0 && 4160 ≤ v) Code.range s <|
  need (!busyState (runState g s)) Code.state s <|
  need (v + rd (K.capLen g) s ≤ 65536 && ringWriteOk g v [rd (K.capLen g) s] s) Code.refused s
    (done (restartRing g (wr (K.capBase g) v s)))

/-- CAP_LEN (R62, R69, R322): at once in OFF and READY, shadowed otherwise. -/
def capLenBody (g v : Nat) (s : State) : Ans :=
  need (v % 64 = 0 && 1024 ≤ v) Code.range s <|
  need (rd (K.capBase g) s + v ≤ 65536 && ringWriteOk g (rd (K.capBase g) s) [v] s) Code.refused s
    (let s := wr (K.capLen g) v s
     done (if atRest g s then restartRing g s else ringPending g s))

/-- CAP_RD (R68). -/
def capRdBody (g v : Nat) (s : State) : Ans :=
  match moveCapRd g v s with
  | some t => done t
  | none => refuse Code.refused s

/-- Bytes that a write of a spill region's RD releases, or none where it passes what is held (R70). -/
def spillDelta (size old held v : Nat) : Option Nat :=
  if size = 0 then (if v = 0 then some 0 else none)
  else
    let d := (v + size - old) % size
    if v < size ∧ d ≤ held then some d else none

/-- FAIL_SPILL_RD or CAP_SPILL_RD: the host releases bytes of a spill region (R70). -/
def spillRdBody (g : Nat) (fail : Bool) (v : Nat) (s : State) : Ans :=
  need (v % 16 = 0) Code.range s (
    if fail then
      match spillDelta (rd (K.failSpillSize g) s) (rd (K.failSpillRd g) s) (grp g s).failHeld v with
      | some d => done (modGrp g (fun x => { x with failHeld := x.failHeld - d }) (wr (K.failSpillRd g) v s))
      | none => refuse Code.refused s
    else
      match spillDelta (rd (K.capSpillSize g) s) (rd (K.capSpillRd g) s) (grp g s).capHeld v with
      | some d => done (modGrp g (fun x => { x with capHeld := x.capHeld - d }) (wr (K.capSpillRd g) v s))
      | none => refuse Code.refused s)

/-- SEQ_HOST_EVENT (R121): a write of 1 is the host event of WAITT source 0x20. -/
def hostEventBody (k v : Nat) (s : State) : Ans :=
  need (leader k s = k) Code.refused s
    (if v = 1 then
       let c := crossing s
       done (waitEvent k 0x20 c.1 c.2)
     else done s)

/-! ### Triggers (R145, R149) -/

/-- Whether a consumer of a trigger input is armed: a start, a WAITT or a jump map entry (R146). -/
def trigBusy (i : Nat) (s : State) : Bool :=
  (leaders s).any (fun l => (runState l s = 2 && rd (K.runStartSrc l) s = 0x10 + i) || waitArmed l i s || mapArmed l i s)

/-- TOUT_PULSE (R149): one pulse under source 3, from the next Tref edge. -/
def toutPulseBody (j v : Nat) (s : State) : Ans :=
  done (if v = 1 ∧ rd (K.toutSrc j) s = 3 ∧ ¬ fatal s then toutPulse j (nextTref s.now) s else s)

/-! ### Tasks and queues (R260, R263, R267, R268, R270, R274) -/

/-- A TCB object written, of the task that TCB_PTR names (R270). TCB_SERVICE is rsv for Pacer masks: a value written there
is ignored (R5). -/
def tcbField (t sub v : Nat) (s : State) : Ans :=
  let idle := (tcb t s).state = 0 ∨ (tcb t s).state = 4
  match sub with
  | 0x02 => if v = 2 ∨ v = 3 then done (checkEngines (askedFor t s) (tcbCommand t v s).st) else tcbCommand t v s
  | 0x03 => need idle Code.state s (done (modTcb t (fun c => { c with pri := v }) s))
  | 0x04 => need (v % 2 ^ 16 = 0 || v < 2 ^ 16) Code.range s <| need idle Code.state s
      (done (modTcb t (fun c => { c with mask := v }) s))
  | 0x05 =>
    if (tcb t s).pacerMask then need idle Code.state s (done (modTcb t (fun c => { c with service := 0 }) s))
    else need (v = 1 || v = 2) Code.range s <| need idle Code.state s (done (modTcb t (fun c => { c with service := v }) s))
  | 0x06 => done (modTcb t (fun c => { c with arg := c.argClean v }) s)
  | 0x07 => need idle Code.state s (done (modTcb t (fun c => { c with delay := v }) s))
  | 0x08 => need idle Code.state s (done (modTcb t (fun c => { c with period := v }) s))
  | 0x09 => need idle Code.state s (done (modTcb t (fun c => { c with next := v }) s))
  | 0x0E => done (modTcb t (fun c => { c with coal := 0 }) s)
  | _ => done (modTcb t (fun c => { c with waitMax := 0 }) s)

/-- Classes 5 and 6: numeric objects with a rule of their own. -/
def writeTasks (x : Session) (key v : Nat) (s : State) : Option Ans :=
  let i := key / 256
  let sub := key % 256
  if 0x5000 ≤ i ∧ i ≤ 0x500F then
    (if sub = 0x02 then some (peCommand (i - 0x5000) v s)
     else if sub = 0x06 then some (need (v / 2 ^ 28 ≤ 2) Code.range s
       (done (modSession x.id (Session.setPeAddr (i - 0x5000) v) s)))
     else none)
  else if key = K.tcbPtr then some (done (modSession x.id (fun y => { y with tcbPtr := v }) s))
  else if key = K.stTickNs then
    some (need (v % 4 = 0 && 100 ≤ v && v ≤ 1000000) Code.range s (done (wr key v s)))
  else if i = 0x6001 then some (tcbField x.tcbPtr sub v s)
  else if key = K.qPtr then some (done (modSession x.id (fun y => { y with qPtr := v }) s))
  else if key = K.rqReadMax then some (done (modSession x.id (fun y => { y with readMax := v }) s))
  else if key = K.rqStreams then
    some (need (1 ≤ v && v ≤ 4096) Code.range s <| need (poolsFree s) Code.state s <|
      need (streamsOk v (rd K.rqSpillSize s)) Code.refused s (done (wr key v s)))
  else if key = K.rqSpillBase then
    some (need (v % 65536 = 0) Code.range s <| need (poolsFree s) Code.state s <|
      need (regionOk v (rd K.rqSpillSize s) s) Code.refused s
      (done (wr key v { s with rqm := { s.rqm with noSpill := false } })))
  else if key = K.rqSpillSize then
    some (need (v % 65536 = 0 && v ≤ 2 ^ 32) Code.range s <| need (poolsFree s) Code.state s <|
      need (streamsOk (rd K.rqStreams s) v && regionOk (rd K.rqSpillBase s) v s) Code.refused s
      (done (wr key v { s with rqm := { s.rqm with noSpill := false } })))
  else if key = K.qLevel then some (done (modQueue x.qPtr (fun q => { q with level := v }) s))
  else if key = K.qClear then some (qClearBody x.qPtr v s)
  else if key = K.qDropped then some (done (modQueue x.qPtr (fun q => { q with dropped := 0 }) s))
  else if key = K.qLost then some (done (modQueue x.qPtr (fun q => { q with lost := 0 }) s))
  else if key = K.rqHitSites then some (hitSitesBody v s)
  else none

/-! ### Numeric objects with a rule of their own, by class -/

/-- Class 2. -/
def writeRun (key v : Nat) (s : State) : Option Ans :=
  let i := key / 256
  let sub := key % 256
  if 0x2000 ≤ i ∧ i ≤ 0x200F then
    (let g := i - 0x2000
     match sub with
     | 0x01 => some (modeWrite g v s)
     | 0x02 => some (gangWrite g v s)
     | 0x04 => some (warmupWrite g v s)
     | 0x21 =>
        let f := drawNat s
        some (runCommand g v (f.1 % 2 ^ 32) (if v = 3 then f.2 else s))
     | 0x27 => some (done (wr (K.runStartDelay g) (v / 625000) s))
     | _ => none)
  else if 0x2040 ≤ i ∧ i ≤ 0x204F then (if sub = 0x38 then some (hostEventBody (i - 0x2040) v s) else none)
  else if 0x2060 ≤ i ∧ i ≤ 0x206F then (if sub = 0x13 then some (hostJump (i - 0x2060) v s) else none)
  else if 0x2080 ≤ i ∧ i ≤ 0x2087 then
    (if sub = 0x01 ∨ sub = 0x02 then some (need (!trigBusy (i - 0x2080) s) Code.state s (done (wr key v s))) else none)
  else if 0x2090 ≤ i ∧ i ≤ 0x2097 then
    (let j := i - 0x2090
     if sub = 0x01 then
       some (done (wr key v (if rd key s = v then s else modTout j (fun o => { o with pulses := [] }) s)))
     else if sub = 0x06 then some (toutPulseBody j v s)
     else none)
  else if key = K.runGroupStart then some (groupStart v s)
  else if key = K.mcPatchCmd then some (patchCommand v s)
  else none

/-- Class 3. -/
def writeTiming (x : Session) (key v : Nat) (s : State) : Option Ans :=
  let i := key / 256
  let sub := key % 256
  let t := x.tsPtr
  if 0x3000 ≤ i ∧ i ≤ 0x300F then
    (let g := i - 0x3000
     match sub with
     | 0x01 => some (basePeriodWrite g (fsToCode v) s)
     | 0x02 => some (basePeriodWrite g v s)
     | 0x06 => some (done (setTsPeriod g t (fsToCode v) s))
     | 0x07 => some (done (setTsPeriod g t v s))
     | _ => none)
  else if key = K.tsPtr then some (done (modSession x.id (fun y => { y with tsPtr := v }) s))
  else if 0x3100 ≤ i ∧ i ≤ 0x31FF then
    (let n := i - 0x3100
     if sub = 0x01 then some (done (setTset n t { tset n t s with fmt := v } s))
     else if 0x10 ≤ sub ∧ sub ≤ 0x17 then some (edgeFsWrite n t (sub - 0x10) v s)
     else if sub = 0x21 then some (deskewFsWrite (K.chDeskewDrv n) v s)
     else if sub = 0x23 then some (deskewFsWrite (K.chDeskewCmp n) v s)
     else if sub = 0x24 then some (termSelWrite n v s)
     else none)
  else if 0x3200 ≤ i ∧ i ≤ 0x3207 then
    (if sub = 0x01 then some (sysModeWrite (i - 0x3200) v s)
     else if 0x02 ≤ sub ∧ sub ≤ 0x06 then some (sysTimingBody (i - 0x3200) sub (leBytes 8 v) s)
     else none)
  else none

/-- Class 4. -/
def writeCapture (key v : Nat) (s : State) : Option Ans :=
  let i := key / 256
  let sub := key % 256
  if 0x4000 ≤ i ∧ i ≤ 0x400F then
    (let g := i - 0x4000
     match sub with
     | 0x11 => some (capBaseBody g v s)
     | 0x12 => some (capLenBody g v s)
     | 0x16 => some (capRdBody g v s)
     | 0x0B => some (spillRdBody g true v s)
     | 0x23 => some (spillRdBody g false v s)
     | _ => none)
  else none

/-- The order RF_URGENT_NS ≤ RF_LEAD_RESUME_NS ≤ RF_TARGET_NS with one of them written (R207). -/
def leadOrder (g key v : Nat) (s : State) : Bool :=
  let at_ (k : Nat) : Nat := if k = key then v else rd k s
  at_ (K.rfUrgentNs g) ≤ at_ (K.rfLeadResumeNs g) && at_ (K.rfLeadResumeNs g) ≤ at_ (K.rfTargetNs g)

/-- Classes 7 and 8. -/
def writeTime (key v : Nat) (s : State) : Option Ans :=
  let i := key / 256
  let sub := key % 256
  if key = K.dramSpeedReq then some (speedWrite v s)
  else if 0x7040 ≤ i ∧ i ≤ 0x704F ∧ 0x03 ≤ sub ∧ sub ≤ 0x05 then
    some (need (leadOrder (i - 0x7040) key v s) Code.refused s (done (wr key v s)))
  else if key = K.timeActiveSel then some (activeSelWrite v s)
  else if i = 0x8010 ∨ i = 0x8011 then
    (let d := i - 0x8010
     match sub with
     | 0x01 => some (tdEnableWrite d v s)
     | 0x04 => some (incWrite d v s)
     | 0x05 => some (ppbWrite d (toSigned 32 v) s)
     | 0x06 => some (offsetWrite d (toSigned 64 v) s)
     | 0x07 => some (offsetWrite d (fsToFrac (toSigned 64 v)) s)
     | 0x08 => some (setWrite d v s)
     | 0x09 => some (need (rd (K.ptpEnable d) s = 0) Code.state s (done (wr key v s)))
     | 0x20 => some (ptpEnableWrite d v s)
     | _ => none)
  else if 0x8040 ≤ i ∧ i ≤ 0x804F ∧ 0x01 ≤ sub ∧ sub ≤ 0x05 then some (timerWrite (i - 0x8040) sub v s)
  else none

/-- Whether the ring is down or failed, so that RLY_ENABLE and RLY_LEADER may be written (R312). -/
def ringIdle (s : State) : Bool := rd K.rlyState s = 0 || rd K.rlyState s = 3

/-- Classes 9 to B. -/
def writePorts (key v : Nat) (s : State) : Option Ans :=
  if key = K.rlyEnable ∨ key = K.rlyLeader then some (need (ringIdle s) Code.state s (done (wr key v s)))
  else if key = K.rlyCmd then some (relayCommand v s)
  else if key = K.rlyStartSend then some (sendMsg 1 v 0 0 s)
  else if key = K.rlyEventSend then some (sendMsg 3 v 0 0 s)
  else if key = K.rlyChOp then some (need (rd K.rlyLeader s = 1) Code.state s (done (wr key v s)))
  else if key = K.jtxEn then some (jtxEnBody v s)
  else if key = K.jtxPol then some (need (rd K.jtxEn s = 0) Code.state s (done (wr key v s)))
  else if key = K.jtxCmd then some (jtxCommand v s)
  else if key = K.jtxNcoFtw then some (ftwWrite v s)
  else if key = K.jtxNcoFreqHz then some (ncoFreqWrite v s)
  else if key = K.jrxEn then some (jrxEnBody v s)
  else if key = K.jrxCmd then some (jrxCommand v s)
  else if key = K.jrxDest ∨ key = K.jrxUnit ∨ key = K.jrxBase ∨ key = K.jrxLen then
    some (need (rd K.jrxEn s = 0) Code.state s (done (wr key v s)))
  else if 0xB200 ≤ key / 256 ∧ key / 256 ≤ 0xB207 ∧ key % 256 = 0x04 then some (sysCalHoldWrite (key / 256 - 0xB200) v s)
  else none

/-- Classes 1, C, D and E. -/
def writeChip (x : Session) (key v : Nat) (s : State) : Option Ans :=
  let i := key / 256
  let sub := key % 256
  if key = K.sesExpert then some (done (modSession x.id (fun y => { y with expert := v == 1 }) s))
  else if key = K.sesNotifyLost then some (done (modSession x.id (fun y => { y with notifyLost := 0 }) s))
  else if 0x1010 ≤ i ∧ i ≤ 0x1013 ∧ 0x03 ≤ sub ∧ sub ≤ 0x09 then
    some (done (endSessions (fun y => y.port == i - 0x1010) (wr key v s)))
  else if key = K.fltRelease then some (releaseBody v s)
  else if 0xC010 ≤ i ∧ i ≤ 0xC013 ∧ (sub = 0x01 ∨ sub = 0x02) then
    some (need (!(fltin (i - 0xC010) s).active) Code.state s (done (wr key v s)))
  else if key = K.secCertMode then some (certWrite v s)
  else if key = K.secZeroise then some (zeroiseWrite v s)
  else if key = K.secSelftest then
    (let f := drawNat s
     some (selftestWrite v (f.1 % 9) f.2))
  else if key = K.secOfficerRevoke then some (officerRevoke v s)
  else if key = K.secDiagLoad then some (diagLoad v s)
  else if key = K.secAnchorRevoke then some (anchorRevoke v s)
  else if key = K.secMinLevelSet then some (minLevelSet v s)
  else if 0xD010 ≤ i ∧ i ≤ 0xD04F ∧ sub = 0x04 then some (slotClear (i - 0xD010) v s)
  else if key = K.resetCmd then some (resetBody v s)
  else if key = K.bootCmd then some (bootBody v s)
  else if 0xE010 ≤ i ∧ i ≤ 0xE01F ∧ sub = 0x02 then some (done (wr key (rd (K.thsTemp (i - 0xE010)) s) s))
  else none

/-- A numeric object with a rule of its own. -/
def writeSpecial (x : Session) (key v : Nat) (s : State) : Option Ans :=
  let i := key / 256
  if i < 0x2000 then writeChip x key v s
  else if i < 0x3000 then writeRun key v s
  else if i < 0x4000 then writeTiming x key v s
  else if i < 0x5000 then writeCapture key v s
  else if i < 0x7000 then writeTasks x key v s
  else if i < 0x9000 then writeTime key v s
  else if i < 0xC000 then writePorts key v s
  else writeChip x key v s

/-! ### Values that the tables state in words -/

/-- Whether a value lies in the range that the owning chapter states in words, beside the range of its row. -/
def wordRange (key v : Nat) : Bool :=
  let i := key / 256
  let sub := key % 256
  if 0x2000 ≤ i ∧ i ≤ 0x200F ∧ sub = 0x25 then v = 0 || (0x10 ≤ v && v ≤ 0x17) || (0x20 ≤ v && v ≤ 0x2F) || v = 0x30
  else if 0x2000 ≤ i ∧ i ≤ 0x200F ∧ sub = 0x27 then v % 625000 = 0 && v / 625000 < 2 ^ 24
  else if 0x3000 ≤ i ∧ i ≤ 0x300F ∧ sub = 0x06 then fsToCode v < 2 ^ 32
  else if 0x3100 ≤ i ∧ i ≤ 0x31FF ∧ 0x10 ≤ sub ∧ sub ≤ 0x17 then fsToCode v < 2 ^ 32
  else if 0x3100 ≤ i ∧ i ≤ 0x31FF ∧ (sub = 0x21 ∨ sub = 0x23) then
    -8192 ≤ fsToCodeI (toSigned 64 v) && fsToCodeI (toSigned 64 v) ≤ 8191
  else if 0x4000 ≤ i ∧ i ≤ 0x400F ∧ (sub = 0x08 ∨ sub = 0x09 ∨ sub = 0x20 ∨ sub = 0x21) then v % 65536 = 0
  else if 0x4000 ≤ i ∧ i ≤ 0x400F ∧ sub = 0x11 then v % 64 = 0 && 4160 ≤ v
  else if key = K.jrxDest ∨ key = K.jrxMode then v ≤ 1
  else if key = K.jrxUnit then v ≤ 15
  else if key = K.jrxBase ∨ key = K.jrxLen then v % 64 = 0
  else if 0xC010 ≤ i ∧ i ≤ 0xC013 ∧ sub = 0x02 then unitIdDefined v && v ≠ 0x3F
  else true

/-! ### WRITE -/

/-- A numeric object written whose length and role have passed (R363): range, state, then the effect. -/
def writeNum (x : Session) (key : Nat) (row : ObjRow) (p : Bytes) (s : State) : Ans :=
  let v := valueOf row p
  need (rangeOk row (leNat p) && wordRange key v) Code.range s <|
  need (row.acc ≠ .rws || stopped key s) Code.state s <|
  need (!memberSeq key s) Code.refused s <|
  match writeSpecial x key v s with
  | some a => a
  | none =>
    if row.acc = .w1c then done (wr key (rd key s - (rd key s &&& v)) s)
    else if row.acc = .wo then done s
    else done (wr key v s)

/-- MULT of JTX_PARAMS and JRX_PARAMS: 20 to 165. -/
def multOk (p : Bytes) : Bool := 20 ≤ leAt 4 1 p && leAt 4 1 p ≤ 165

/-- A BLOB written whose length and role have passed (R363). -/
def writeBlob (x : Session) (key : Nat) (row : ObjRow) (p : Bytes) (s : State) : Ans :=
  let i := key / 256
  let sub := key % 256
  need (row.acc ≠ .rws || stopped key s) Code.state s <|
  if 0x3000 ≤ i ∧ i ≤ 0x300F then periodTableWrite (i - 0x3000) p s
  else if 0x3100 ≤ i ∧ i ≤ 0x31FF then
    (let n := i - 0x3100
     if sub = 0x02 then done (setTset n x.tsPtr { tset n x.tsPtr s with edges := edgeCodes p } s) else tsTableBody n p s)
  else if 0x3200 ≤ i ∧ i ≤ 0x3207 then sysTimingBody (i - 0x3200) 7 p s
  else if key = K.mcPatchStage then patchStage p s
  else if 0x5000 ≤ i ∧ i ≤ 0x500F then memDataWrite (i - 0x5000) p x s
  else if key = K.qHitMap then hitMapBody x.qPtr p s
  else if key = K.rlyJumpSend then jumpSend p s
  else if key = K.jtxParams then
    need (multOk p) Code.range s <| need (rd K.jtxEn s = 0) Code.state s (done (setBlob key p s))
  else if key = K.jrxParams then
    need (multOk p) Code.range s <| need (rd K.jrxEn s = 0) Code.state s (done (setBlob key p s))
  else if 0xB200 ≤ i ∧ i ≤ 0xB207 then sysCalWrite (i - 0xB200) p s
  else if key = K.fltSticky then stickyWrite (leNat p) s
  else if 0x1010 ≤ i ∧ i ≤ 0x1013 then endSessions (fun y => y.port == i - 0x1010) (setBlob key p s) |> done
  else if i = 0xD000 then
    (if sub < 0x18 then officerKeyWrite (sub - 0x10) p s else kekWrite (sub - 0x18) p s)
  else if 0xD010 ≤ i ∧ i ≤ 0xD04F then slotLoad (i - 0xD010) p s
  else done (setBlob key p s)

/-- A WRITE of an object (R363): the checks in their order, then what the object's owner states. -/
def writeObj (key : Nat) (p : Bytes) (x : Session) (s : State) : Ans :=
  if key / 256 = 0x1800 ∨ key = K.bootStage then refuse Code.opcode s
  else if classF key then
    (if x.role < 3 then refuse Code.rights s
     else
       let e := drawBool s
       if e.1 then done e.2 else refuse Code.noObject e.2)
  else match writeChecks x key p.length s with
    | .error c => refuse c s
    | .ok row =>
      match row.ty with
      | .blob _ _ | .str => writeBlob x key row p s
      | _ => writeNum x key row p s

end Sys2Proof.Machine
end

