-- ==== Sys2Proof/Machine/Baton.lean ====
section
/-! DEFINITION. Baton's own requests and events: sessions, block transfers, subscriptions, notifications and the
Ethernet ports (17_baton_and_object_dictionary.md, R397, R398 of 19_security.md). -/
namespace Sys2Proof.Machine

/-! ### Sessions (R365, R366, R397) -/

/-- Whether the OPEN repeats an accepted one: same binding and S0, within 1 s (R365). -/
def sameOpen (r : Req) (s : State) (x : Session) : Bool :=
  x.port == r.port && x.v6 == r.v6 && x.addr == r.addr && x.udp == r.udp && x.s0 == r.seq &&
  s.time.sys ≤ x.opened + 1000000000

/-- The payload of an OPEN's answer: WINDOW, MAX_DATA, TIMEOUT_S, then the device's part of a handshake. -/
def openPayload (x : Session) (s : State) : Bytes :=
  leBytes 2 64 ++ leBytes 2 (maxData x.port x.v6 x.auth s) ++ leBytes 4 (rd K.batonTimeoutS s) ++ x.hello

/-- Whether a session identifier may be assigned: not in use, nor closed within 60 s (R365). -/
def idFree (n : Nat) (s : State) : Bool :=
  !s.sessions.any (fun x => x.id.toNat == n) &&
  !s.baton.closed.any (fun c => c.1 == n && s.time.sys < c.2 + idHold)

/-- The next identifier to assign, from `n` on in 1 to 0xFFFE. -/
def findId : Nat → Nat → State → Nat
  | 0, n, _ => n
  | fuel + 1, n, s => if idFree n s then n else findId fuel (n % 0xFFFE + 1) s

/-- The message that SIGH signs (R397). -/
def openMessage (seq : BitVec 32) (cred : Bytes) (s : State) : Bytes :=
  slice 4 129 cred ++ leBytes 8 s.otp.serial ++ leBytes 4 seq.toNat

/-- The key that KEY_SEL names: an enrolled and unrevoked officer key; for a Vendor the key that the hash in OTP
anchors, which that hash stands for (R397, assumption log 3). -/
def openKey (role : Nat) (cred : Bytes) (s : State) : Option Bytes :=
  let k := leAt 0 1 cred
  if role = 3 then (if k = 0 then some s.otp.vendorHash else none)
  else if 4 ≤ k ∨ bitAt s.otp.officersRevoked k then none
  else Tab.find k s.otp.officers

/-- The checks of R397 on a credential. -/
def credOk (role : Nat) (seq : BitVec 32) (cred : Bytes) (s : State) : Bool :=
  cred.length = 232 && (match openKey role cred s with
    | none => false
    | some key => Config.onCurve (slice 4 97 cred) &&
        Config.ecdsaVerify key (openMessage seq cred s) (slice 133 96 cred))

/-- A session opens (R365): its identifier, its keys where it is authenticated, and the OPEN in its record. -/
def openNew (r : Req) (role : Nat) (cred : Bytes) (s : State) : State :=
  let id := findId 0x10000 s.baton.nextId s
  let auth := 2 ≤ role
  let x : Session := {
    id := BitVec.ofNat 16 id, port := r.port, v6 := r.v6, addr := r.addr, udp := r.udp, role
    s0 := r.seq, opened := s.time.sys, last := s.time.sys, h := r.seq
    recs := [{ seq := r.seq, op := opOpen, key := 0, length := 4 + cred.length, status := Code.ok, payload := some [] }]
    hello := if auth then Config.handshakeAnswer (cred ++ leBytes 2 id) s.sec.drbg else []
    kh := if auth then Config.sessionKeyH cred s.sec.drbg else []
    kd := if auth then Config.sessionKeyD cred s.sec.drbg else [] }
  let s := if auth then modSec (fun c => { c with drbg := c.drbg + 1 }) s else s
  let s := { s with sessions := s.sessions ++ [x], baton := { s.baton with nextId := id % 0xFFFE + 1 } }
  answerPlain { r with session := x.id } opOpen 0 Code.ok (openPayload x s) s

/-- The status that refuses an OPEN, in the order of R363, and whether the refusal is a failed check of R397. -/
def openRefusal (r : Req) (role : Nat) (rsv : Nat) (cred : Bytes) (s : State) : Option (Nat × Bool) :=
  if 8 ≤ s.sessions.length then some (Code.noSessions, false)
  else if role = 1 ∧ !s.boot.loader ∧ rd (K.ethEngAllow r.port) s ≠ 1 then some (Code.auth, false)
  else if (role = 2 ∨ role = 3) ∧ (rd K.secState s ≠ 1 ∨ s.otp.dukOff ∨ (role = 3 ∧ rd K.secCertMode s = 1)) then
    some (Code.auth, false)
  else if (role = 2 ∨ role = 3) ∧ !credOk role r.seq cred s then some (Code.auth, true)
  else if rsv ≠ 0 ∨ (role < 2 ∧ cred ≠ []) ∨
    ((role = 2 ∨ role = 3) ∧ (leAt 1 3 cred ≠ 0 ∨ leAt 229 3 cred ≠ 0)) then some (Code.format, false)
  else if 3 < role then some (Code.range, false)
  else none

/-- OPEN (R365). One that names a session is no OPEN of this layout: it meets the gate as any other request. -/
def execOpenSession (r : Req) (role : Byte) (rsv : BitVec 24) (cred : Bytes) (s : State) :
    Host.Outcome State Fault Refusal :=
  .next (
    let p := leBytes 1 role.toNat ++ leBytes 3 rsv.toNat ++ cred
    if r.session ≠ 0 then request r opOpen 0 p (fun _ s => refuse Code.format s) s
    else if !portOpen r.port s then s
    else if mtu r.port s < overhead r.v6 + p.length then badFrame s
    else if r.ver ≠ 1 then answerPlain r opOpen 0 Code.version [] s
    else match s.sessions.find? (sameOpen r s) with
      | some x =>
        answerPlain { r with session := x.id } opOpen 0 Code.ok (openPayload x s)
          (modSession x.id (fun y => { y with last := s.time.sys }) s)
      | none => match openRefusal r role.toNat rsv.toNat cred s with
        | some c => answerPlain r opOpen 0 c.1 [] (onlyIf c.2 (bump K.secAuthFails) s)
        | none => openNew r role.toNat cred s)

/-- CLOSE (R366). -/
def execCloseSession (r : Req) (p : Bytes) (s : State) : Host.Outcome State Fault Refusal :=
  .next (request r opClose 0 p (fun x s =>
    need (p = []) Code.format s (done (endSession x.id s))) s)

/-- BATON_TIMEOUT_S has passed without a request (R366). -/
def execSessionTimeout (id : BitVec 16) (s : State) : Host.Outcome State Fault Refusal :=
  .next (match session id s with
    | none => s
    | some x => onlyIf (x.last + 1000000000 * rd K.batonTimeoutS s ≤ s.time.sys) (endSession id) s)

/-! ### Block transfers (R376–R378) -/

/-- A block prefix. -/
def blockPrefix (offset n rsv : Nat) : Bytes := leBytes 8 offset ++ leBytes 4 n ++ leBytes 4 rsv

/-- The row of a BLOB object on which block operations are allowed (R376). -/
def blockRow (key : Nat) (s : State) : Except Nat ObjRow := do
  let row ← findRow key s
  match row.ty with
  | .blob _ _ => if statefulRead key then .error Code.opcode else .ok row
  | _ => .error Code.opcode

/-- What each of a list of bursts is found to hold: the first as the operand says, the others clean, and any that is
known to be uncorrectable so (R199). -/
def findings (bursts : List Nat) (ecc : Ecc) (s : State) : List (Nat × Ecc) :=
  (bursts.zip (ecc :: List.replicate bursts.length Ecc.clean)).map (fun b => (b.1, eccOf b.1 b.2 s))

/-- An uncorrected burst on a host read, or on the read of a host write of less than a burst (R199). -/
def hostUncorrected (a : Nat) (s : State) : State :=
  raiseFault (67 + 8 * (subchannelOf a s / 2)) (uncorrectedBurst a s)

/-- Bytes moved through DP5 for a number of bursts (R207). -/
def countHost (n : Nat) (s : State) : State := incWrap 64 (K.dpBytes 5) (64 * n) s

/-- The epoch that an answer of DRAM_SPACE carries (R376). -/
def epoch (s : State) : Nat := rd K.dramMapEpoch s

/-- READ_BLOCK of DRAM_SPACE (R378, R199). -/
def dramRead (offset n : Nat) (ecc : Ecc) (s : State) : Ans :=
  need (mapped offset n s) Code.unmapped s <| need (rd K.dramReady s = 1) Code.busy s <|
  let f := findings (burstsOf offset n) ecc s
  let s := countHost f.length s
  let s := forEach (f.filter (fun b => b.2 == .corrected)) (fun b s => correctedBurst b.1 s) s
  let bad := f.filter (fun b => b.2 == .uncorrected)
  let s := forEach bad (fun b s => hostUncorrected b.1 s) s
  if bad ≠ [] then ⟨Code.media, [], s⟩
  else give (blockPrefix offset n (epoch s) ++ memBytes offset n s) s

/-- The bursts of a host write that it does not cover whole, which are read first (R191). -/
def partialBursts (offset n : Nat) : List Nat :=
  (burstsOf offset n).filter (fun a => a < offset || offset + n < a + 64)

/-- Bytes written by the host: whole bursts take fresh check bits, and a queued write-back of a burst written is
dropped (R199). -/
def dramPut (offset : Nat) (data : Bytes) (s : State) : State :=
  let b := burstsOf offset data.length
  let s := forEach b clearBad (memWrite offset data s)
  modDram (fun d => { d with reqs := d.reqs.filter (fun q => !(q.owner == .writeBack && !q.issued && b.contains q.addr)) }) s

/-- WRITE_BLOCK of DRAM_SPACE (R378, R199). -/
def dramWrite (offset total : Nat) (data : Bytes) (ecc : Ecc) (s : State) : Ans :=
  need (total = 0) Code.stage s <| need (mapped offset data.length s) Code.unmapped s <|
  need (rd K.dramReady s = 1) Code.busy s <|
  let f := findings (partialBursts offset data.length) ecc s
  let s := countHost f.length s
  let s := forEach (f.filter (fun b => b.2 == .corrected)) (fun b s => correctedBurst b.1 s) s
  let bad := f.filter (fun b => b.2 == .uncorrected)
  let s := forEach bad (fun b s => hostUncorrected b.1 s) s
  if bad ≠ [] then ⟨Code.media, [], s⟩
  else
    let s := dramPut offset data (countHost (burstsOf offset data.length).length s)
    give (blockPrefix offset total (epoch s)) s

/-- Block operations on class F: RIGHTS below the Vendor role; the rest is free (R387). -/
def blockClassF (pre : Bytes) (data : Nat) (x : Session) (s : State) : Ans :=
  if x.role < 3 then refuse Code.rights s
  else
    let e := drawBool s
    let v := drawNat e.2
    if e.1 then give (pre ++ (List.range data).map (fun i => Config.freeByte (v.1 + i))) v.2 else refuse Code.noObject v.2

/-- READ_BLOCK (R376): bytes of a BLOB as they stand, or of DRAM. -/
def readBlockBody (key offset n rsv : Nat) (ecc : Ecc) (x : Session) (s : State) : Ans :=
  let pre := blockPrefix offset n 0
  let format := rsv = 0 && 1 ≤ n && n ≤ maxData x.port x.v6 x.auth s
  if key = K.dramSpace then
    need (indexExists key s) Code.noObject s <| need format Code.format s (dramRead offset n ecc s)
  else if classF key then blockClassF pre n x s
  else match blockRow key s with
    | .error c => refuse c s
    | .ok row =>
      need (row.acc != .wo) Code.writeOnly s <| need format Code.format s <|
      let v := valueBytes x key row s
      need (offset + n ≤ v.length) Code.stage s <| need (readState key s) Code.state s
        (give (pre ++ slice offset n v) s)

/-- READ_BLOCK. -/
def execReadBlock (r : Req) (index : BitVec 16) (sub : BitVec 8) (offset : BitVec 64) (count rsv : BitVec 32) (ecc : Ecc)
    (s : State) : Host.Outcome State Fault Refusal :=
  .next (request r opReadBlock (index.toNat * 256 + sub.toNat) (blockPrefix offset.toNat count.toNat rsv.toNat)
    (fun x s => readBlockBody (index.toNat * 256 + sub.toNat) offset.toNat count.toNat rsv.toNat ecc (self x s) s) s)

/-- The longest write that a session stages (R377). -/
def stageMax : Nat := 131072

/-- The staged object of a session with a block laid into it; another object or TOTAL starts anew (R377). -/
def stageBlock (key offset total : Nat) (data : Bytes) (x : Session) : Staged :=
  let old : Tab Byte := match x.staged with
    | some g => if g.key = key ∧ g.total = total then g.bytes else []
    | none => []
  { key, total
    bytes := (data.foldl (fun (a : Nat × Tab Byte) b => (a.1 + 1, Tab.set a.1 b a.2)) (offset, old)).2 }

/-- A block of a BLOB object staged (R377). With the last byte, the object is written as by one WRITE; refused, that
request changes nothing, so the bytes staged before it stand. -/
def stageBody (key offset total : Nat) (data : Bytes) (row : ObjRow) (x : Session) (s : State) : Ans :=
  need (row.ty.lengthOk total && total ≤ stageMax && offset + data.length ≤ total) Code.stage s <|
  let g := stageBlock key offset total data x
  if g.bytes.length < total then
    give (blockPrefix offset total 0) (modSession x.id (fun y => { y with staged := some g }) s)
  else
    let a := writeObj key ((List.range total).map (fun i => Tab.get 0 i g.bytes)) x s
    if a.status = Code.ok then
      give (blockPrefix offset total 0) (modSession x.id (fun y => { y with staged := none }) a.st)
    else ⟨a.status, [], a.st⟩

/-- The checks of a write by blocks, from RIGHTS to LEVEL (R363). -/
def blockWriteChecks (key : Nat) (row : ObjRow) (x : Session) (s : State) : Option Nat :=
  if x.role < writeRole key row s then some Code.rights
  else if row.acc = .ro then some Code.readOnly
  else if 1 ≤ row.lev ∧ !x.expert then some Code.level
  else none

/-- WRITE_BLOCK (R376–R378, R425). -/
def writeBlockBody (key offset total rsv : Nat) (data : Bytes) (ecc : Ecc) (x : Session) (s : State) : Ans :=
  let format := rsv = 0 && data ≠ [] && data.length ≤ maxData x.port x.v6 x.auth s
  if key = K.dramSpace then
    need (indexExists key s) Code.noObject s <| need (1 ≤ x.role) Code.rights s <| need x.expert Code.level s <|
    need format Code.format s (dramWrite offset total data ecc s)
  else if classF key then blockClassF (blockPrefix offset total 0) 0 x s
  else match blockRow key s with
    | .error c => refuse c s
    | .ok row => match blockWriteChecks key row x s with
      | some c => refuse c s
      | none =>
        need format Code.format s <|
        if key = K.bootStage then
          (let a := stageBoot offset total data s
           if a.status = Code.ok then give (blockPrefix offset total 0) a.st else a)
        else stageBody key offset total data row x s

/-- WRITE_BLOCK. -/
def execWriteBlock (r : Req) (index : BitVec 16) (sub : BitVec 8) (offset : BitVec 64) (total rsv : BitVec 32) (data : Bytes)
    (ecc : Ecc) (s : State) : Host.Outcome State Fault Refusal :=
  .next (request r opWriteBlock (index.toNat * 256 + sub.toNat)
    (blockPrefix offset.toNat total.toNat rsv.toNat ++ data)
    (fun x s => writeBlockBody (index.toNat * 256 + sub.toNat) offset.toNat total.toNat rsv.toNat data ecc (self x s) s) s)

/-- A block of the boot image is staged (R425). -/
def execBootStageWrite (r : Req) (offset : BitVec 64) (total : BitVec 32) (data : Bytes) (s : State) :
    Host.Outcome State Fault Refusal :=
  .next (request r opWriteBlock K.bootStage (blockPrefix offset.toNat total.toNat 0 ++ data)
    (fun x s => writeBlockBody K.bootStage offset.toNat total.toNat 0 data .clean (self x s) s) s)

/-! ### Subscriptions (R379, R380) -/

/-- Whether an object acts through TS_PTR (R47), TCB_PTR or Q_PTR, and the session's pointer; `noPtr` otherwise. -/
def ptrOf (key : Nat) (x : Session) : Nat :=
  let i := key / 256
  let sub := key % 256
  if 0x3000 ≤ i ∧ i ≤ 0x300F ∧ (sub = 0x06 ∨ sub = 0x07) then x.tsPtr
  else if 0x3100 ≤ i ∧ i ≤ 0x31FF ∧ (sub = 0x01 ∨ sub = 0x02 ∨ (0x10 ≤ sub ∧ sub ≤ 0x17)) then x.tsPtr
  else if i = 0x6001 then x.tcbPtr
  else if i = 0x6041 then x.qPtr
  else noPtr

/-- A session with the pointer that a subscription of an object is for. -/
def withPtr (key ptr : Nat) (x : Session) : Session :=
  if ptr = noPtr then x
  else if key / 256 = 0x6001 then { x with tcbPtr := ptr }
  else if key / 256 = 0x6041 then { x with qPtr := ptr }
  else { x with tsPtr := ptr }

/-- The value of a subscribed object for a pointer value. -/
def subValue (key ptr : Nat) (x : Session) (s : State) : Bytes :=
  match findRow key s with
  | .ok row => valueBytes (withPtr key ptr x) key row s
  | .error _ => []

/-- Whether an object may be subscribed (R379): readable, at most 64 bytes, none of the four reads. -/
def subscribable (key : Nat) (row : ObjRow) : Bool := row.acc != .wo && row.ty.size ≤ 64 && !statefulRead key

/-- A session subscribes to an object at its pointer value: at most 256 subscriptions, and a repetition changes
nothing (R379). -/
def subscribeTo (key : Nat) (x : Session) (s : State) : Ans :=
  let ptr := ptrOf key x
  if x.subs.any (fun u => u.key == key && u.ptr == ptr) then done s
  else need (x.subs.length < 256) Code.refused s (done (modSession x.id (fun y =>
    { y with subs := y.subs ++ [{ key, ptr, last := subValue key ptr x s }] }) s))

/-- SUBSCRIBE of class F: RIGHTS below the Vendor role; whether the object exists is free (R387). -/
def subscribeClassF (key rsv : Nat) (x : Session) (s : State) : Ans :=
  if x.role < 3 then refuse Code.rights s
  else
    let e := drawBool s
    if e.1 then need (rsv = 0) Code.format e.2 (subscribeTo key x e.2) else refuse Code.noObject e.2

/-- SUBSCRIBE with MODE 1 (R379). -/
def subscribeBody (key rsv : Nat) (x : Session) (s : State) : Ans :=
  if classF key then subscribeClassF key rsv x s
  else match findRow key s with
  | .error c => refuse c s
  | .ok row =>
    need (subscribable key row) Code.opcode s <| need (rsv = 0) Code.format s (subscribeTo key x s)

/-- SUBSCRIBE with MODE 0 (R379): the subscription for the session's pointer value is cancelled. -/
def cancelBody (key rsv : Nat) (x : Session) (s : State) : Ans :=
  let cancel := done (modSession x.id (fun y =>
    { y with subs := y.subs.filter (fun u => !(u.key == key && u.ptr == ptrOf key x)) }) s)
  if classF key then need (3 ≤ x.role) Code.rights s <| need (rsv = 0) Code.format s cancel
  else match findRow key s with
  | .error c => refuse c s
  | .ok row => need (subscribable key row) Code.opcode s <| need (rsv = 0) Code.format s cancel

/-- SUBSCRIBE. -/
def execSubscribe (r : Req) (index : BitVec 16) (sub : BitVec 8) (rsv : BitVec 24) (s : State) :
    Host.Outcome State Fault Refusal :=
  .next (request r opSubscribe (index.toNat * 256 + sub.toNat) (leBytes 1 1 ++ leBytes 3 rsv.toNat)
    (fun x s => subscribeBody (index.toNat * 256 + sub.toNat) rsv.toNat (self x s) s) s)

/-- SUBSCRIBE with MODE 0. -/
def execSubscribeCancel (r : Req) (index : BitVec 16) (sub : BitVec 8) (rsv : BitVec 24) (s : State) :
    Host.Outcome State Fault Refusal :=
  .next (request r opSubscribe (index.toNat * 256 + sub.toNat) (leBytes 1 0 ++ leBytes 3 rsv.toNat)
    (fun x s => cancelBody (index.toNat * 256 + sub.toNat) rsv.toNat (self x s) s) s)

/-! ### Notifications (R380, R381) -/

/-- The host acknowledges a NOTIFY (R381). It is no request: it has no answer unless its authentication fails
(R398), and does not restart the timeout. -/
def execNotifyAck (r : Req) (s : State) : Host.Outcome State Fault Refusal :=
  .next (
    if !portOpen r.port s ∨ r.ver ≠ 1 then s
    else match s.sessions.find? (bound r) with
      | none => s
      | some x =>
        if !frameOk x r (128 + opNotify) 0 [] then answerPlain r opNotify 0 Code.auth [] (bump K.secAuthFails s)
        else modSession x.id (fun y =>
          let y := if y.auth then takeCtr r.ctr.toNat y else y
          { y with pend := y.pend.filter (fun n => n.seq != r.seq) }) s)

/-- BATON_NOTIFY_RETRY_MS has passed for an unacknowledged NOTIFY: it is sent again, 5 times in all, then
discarded (R381). -/
def execNotifyRetry (id : BitVec 16) (seq : BitVec 32) (s : State) : Host.Outcome State Fault Refusal :=
  .next (match (session id s).bind (fun x => x.pend.find? (fun n => n.seq == seq)) with
    | none => s
    | some n =>
      if s.time.sys < n.at0 + 1000000 * rd K.batonNotifyRetryMs s then s
      else if 5 ≤ n.sends then
        modSession id (fun y => { y.lose with pend := y.pend.filter (fun m => m.seq != seq) }) s
      else
        sendNotify id n (modSession id (fun y => { y with
          pend := y.pend.map (fun m => if m.seq == seq then { m with sends := m.sends + 1, at0 := s.time.sys } else m) }) s))

/-- Objects whose notifications are events, not changes (R380). -/
def eventObj (key : Nat) : Bool := key = K.fltSticky || key = K.stNote || key = K.qDepth

/-- A sample of one change subscription (R380, R381): a value that differs from the one last sent replaces a pending
NOTIFY of the subscription by a new one. -/
def sampleSub (id : BitVec 16) (u : Subscr) (s : State) : State :=
  match session id s with
  | none => s
  | some x =>
    let v := subValue u.key u.ptr x s
    let early : Bool := match u.sentAt with
      | some t => s.time.sys < t + 1000000 * rd K.batonNotifyMinMs s
      | none => false
    if v = u.last ∨ early then s
    else
      let n : Notify := { seq := x.notifySeq + 1, key := u.key, ptr := u.ptr, value := v, event := false, at0 := s.time.sys }
      sendNotify id n (modSession id (fun y => { y with
        notifySeq := n.seq
        subs := y.subs.map (fun w => if w.key == u.key && w.ptr == u.ptr then { w with last := v, sentAt := some s.time.sys } else w)
        pend := y.pend.filter (fun m => !(m.key == u.key && m.ptr == u.ptr && !m.event)) ++ [n] }) s)

/-- The 1 ms sample of the change subscriptions of an object by a session (R380). -/
def execChangeSample (id : BitVec 16) (index : BitVec 16) (sub : BitVec 8) (s : State) : Host.Outcome State Fault Refusal :=
  .next (
    let key := index.toNat * 256 + sub.toNat
    match session id s with
    | none => s
    | some x => if eventObj key then s else forEach (x.subs.filter (fun u => u.key == key)) (sampleSub id) s)

/-! ### The Ethernet ports (R360) -/

/-- An Ethernet port's link comes up, with the FEC negotiated (R360); not while the port is fenced. -/
def execEthLinkUp (port : Fin 4) (fec : Fin 3) (s : State) : Host.Outcome State Fault Refusal :=
  .next (if fenced (0x24 + port) s then s else wrs [(K.ethLink port, 1), (K.ethFec port, fec)] s)

/-- A frame that is no valid Baton request: ARP, Neighbor Discovery and ICMP echo are answered, the rest is
discarded and counted (R360, R363). -/
def execEthFrameRx (port : Fin 4) (f : NetFrame) (s : State) : Host.Outcome State Fault Refusal :=
  .next (if !portOpen port s then s else match f with
    | .arp | .neighbour | .echo => { s with baton := { s.baton with reply := some (port, f) } }
    | .malformed | .fragment | .otherUdp => badFrame s)

end Sys2Proof.Machine
end

