-- ==== Sys2Proof/Machine/Host.lean ====
section
/-! DEFINITION. The host's requests that have a row of their own: each is a WRITE or a READ of one object, through the
gate of R363. What such a request needs beside its frame is an operand of its row (assumption log 4). -/
namespace Sys2Proof.Machine

/-- A WRITE of an object by a request. -/
def hostWrite (r : Req) (key : Nat) (p : Bytes) (s : State) : State :=
  request r opWrite key p (fun x s => writeObj key p (self x s) s) s

/-- A READ of an object by a request; `delivered` is how many items DP4 brings in time for a Q_READ (R276). -/
def hostRead (r : Req) (delivered key : Nat) (p : Bytes) (s : State) : State :=
  request r opRead key p (fun x s => readObj delivered key p (self x s) s) s

/-- A WRITE of a one-byte object whose effect needs an operand that the frame does not carry: the checks of R363, then
that effect. -/
def writeWith (key : Nat) (p : Bytes) (effect : State → Ans) (x : Session) (s : State) : Ans :=
  match writeChecks x key p.length s with
  | .error c => refuse c s
  | .ok row => need (rangeOk row (leNat p)) Code.range s (effect s)

/-! ### WRITE -/

/-- WRITE of an object (R363). -/
def execWrite (r : Req) (index : BitVec 16) (sub : BitVec 8) (p : Bytes) (s : State) : Host.Outcome State Fault Refusal :=
  .next (hostWrite r (index.toNat * 256 + sub.toNat) p s)

/-- A write of CG_MODE (R14). -/
def execCgModeWrite (r : Req) (g : Fin 16) (p : Bytes) (s : State) : Host.Outcome State Fault Refusal :=
  .next (hostWrite r (K.cgMode g) p s)

/-- A write of CG_GANG (R17). -/
def execCgGangWrite (r : Req) (g : Fin 16) (p : Bytes) (s : State) : Host.Outcome State Fault Refusal :=
  .next (hostWrite r (K.cgGang g) p s)

/-- A write of CG_BASE_PERIOD_FS or CG_BASE_PERIOD (R40). -/
def execCgBasePeriodWrite (r : Req) (g : Fin 16) (fs : Bool) (p : Bytes) (s : State) : Host.Outcome State Fault Refusal :=
  .next (hostWrite r (if fs then K.cgBasePeriodFs g else K.cgBasePeriod g) p s)

/-- A write of CH_TERM_SEL (R138). -/
def execChTermSelWrite (r : Req) (n : Fin 256) (p : Bytes) (s : State) : Host.Outcome State Fault Refusal :=
  .next (hostWrite r (K.chTermSel n) p s)

/-- A write of a timing object of SYSk (R46), by its subindex. -/
def execSysTimingWrite (r : Req) (k : Fin 8) (sub : BitVec 8) (p : Bytes) (s : State) : Host.Outcome State Fault Refusal :=
  .next (hostWrite r (0x320000 + 256 * k.val + sub.toNat) p s)

/-- A write of TS_PERIOD_TABLE or TS_TABLE (R176). -/
def execTsTableWrite (r : Req) (bank : TsBank) (p : Bytes) (s : State) : Host.Outcome State Fault Refusal :=
  .next (hostWrite r (match bank with | .periods g => K.tsPeriodTable g | .channel n => K.tsTable n) p s)

/-- A write of CAP_BASE (R62). -/
def execCapBaseWrite (r : Req) (g : Fin 16) (p : Bytes) (s : State) : Host.Outcome State Fault Refusal :=
  .next (hostWrite r (K.capBase g) p s)

/-- A write of CAP_LEN (R69). -/
def execCapLenWrite (r : Req) (g : Fin 16) (p : Bytes) (s : State) : Host.Outcome State Fault Refusal :=
  .next (hostWrite r (K.capLen g) p s)

/-- A write of CAP_RD (R68). -/
def execCapRdWrite (r : Req) (g : Fin 16) (p : Bytes) (s : State) : Host.Outcome State Fault Refusal :=
  .next (hostWrite r (K.capRd g) p s)

/-- A write of FAIL_SPILL_RD or CAP_SPILL_RD (R70). -/
def execSpillRdWrite (r : Req) (g : Fin 16) (fail : Bool) (p : Bytes) (s : State) : Host.Outcome State Fault Refusal :=
  .next (hostWrite r (if fail then K.failSpillRd g else K.capSpillRd g) p s)

/-- A write of SEQ_HOST_EVENT (R121). -/
def execSeqHostEventWrite (r : Req) (k : Fin 16) (p : Bytes) (s : State) : Host.Outcome State Fault Refusal :=
  .next (hostWrite r (K.seqHostEvent k) p s)

/-- RUN_CMD 1, ENABLE (R137). -/
def execEnable (r : Req) (g : Fin 16) (s : State) : Host.Outcome State Fault Refusal :=
  .next (hostWrite r (K.runCmd g) [1] s)

/-- RUN_CMD 2, DISABLE (R137). -/
def execDisable (r : Req) (g : Fin 16) (s : State) : Host.Outcome State Fault Refusal :=
  .next (hostWrite r (K.runCmd g) [2] s)

/-- RUN_CMD 4, START (R137). -/
def execStart (r : Req) (g : Fin 16) (s : State) : Host.Outcome State Fault Refusal :=
  .next (hostWrite r (K.runCmd g) [4] s)

/-- RUN_CMD 5, DISARM (R137). -/
def execDisarm (r : Req) (g : Fin 16) (s : State) : Host.Outcome State Fault Refusal :=
  .next (hostWrite r (K.runCmd g) [5] s)

/-- RUN_CMD 6, PAUSE (R160). -/
def execPause (r : Req) (g : Fin 16) (s : State) : Host.Outcome State Fault Refusal :=
  .next (hostWrite r (K.runCmd g) [6] s)

/-- RUN_CMD 7, RESUME (R160). -/
def execResume (r : Req) (g : Fin 16) (s : State) : Host.Outcome State Fault Refusal :=
  .next (hostWrite r (K.runCmd g) [7] s)

/-- RUN_CMD 8, HALT (R162). -/
def execHostHalt (r : Req) (g : Fin 16) (s : State) : Host.Outcome State Fault Refusal :=
  .next (hostWrite r (K.runCmd g) [8] s)

/-- RUN_CMD 9, CLEAR (R137). -/
def execClear (r : Req) (g : Fin 16) (s : State) : Host.Outcome State Fault Refusal :=
  .next (hostWrite r (K.runCmd g) [9] s)

/-- A write of RUN_GROUP_START (R143). -/
def execRunGroupStart (r : Req) (p : Bytes) (s : State) : Host.Outcome State Fault Refusal :=
  .next (hostWrite r K.runGroupStart p s)

/-- A write of TOUT_PULSE (R149). -/
def execToutPulse (r : Req) (j : Fin 8) (p : Bytes) (s : State) : Host.Outcome State Fault Refusal :=
  .next (hostWrite r (K.toutPulse j) p s)

/-- A write of JT_REQ (R152). -/
def execJtReq (r : Req) (k : Fin 16) (p : Bytes) (s : State) : Host.Outcome State Fault Refusal :=
  .next (hostWrite r (K.jtReq k) p s)

/-- MC_PATCH_CMD 1, VERIFY (R181). -/
def execPatchVerify (r : Req) (s : State) : Host.Outcome State Fault Refusal :=
  .next (hostWrite r K.mcPatchCmd [1] s)

/-- MC_PATCH_CMD 2, APPLY (R182). -/
def execPatchApply (r : Req) (s : State) : Host.Outcome State Fault Refusal :=
  .next (hostWrite r K.mcPatchCmd [2] s)

/-- MC_PATCH_CMD 3, DISCARD (R181). -/
def execPatchDiscard (r : Req) (s : State) : Host.Outcome State Fault Refusal :=
  .next (hostWrite r K.mcPatchCmd [3] s)

/-- A write of MC_PATCH_STAGE as one WRITE (R181, R377). -/
def execMcPatchStageWrite (r : Req) (p : Bytes) (s : State) : Host.Outcome State Fault Refusal :=
  .next (hostWrite r K.mcPatchStage p s)

/-- A write of DRAM_SPEED_REQ (R198). -/
def execDramSpeedReqWrite (r : Req) (p : Bytes) (s : State) : Host.Outcome State Fault Refusal :=
  .next (hostWrite r K.dramSpeedReq p s)

/-- PE_CMD 1, ENABLE (R236). -/
def execPeEnable (r : Req) (e : Fin 16) (s : State) : Host.Outcome State Fault Refusal :=
  .next (hostWrite r (K.peCmd e) [1] s)

/-- PE_CMD 2, DISABLE (R236). -/
def execPeDisable (r : Req) (e : Fin 16) (s : State) : Host.Outcome State Fault Refusal :=
  .next (hostWrite r (K.peCmd e) [2] s)

/-- PE_CMD 3, CLEAR (R236). -/
def execPeClear (r : Req) (e : Fin 16) (s : State) : Host.Outcome State Fault Refusal :=
  .next (hostWrite r (K.peCmd e) [3] s)

/-- A write of PE_MEM_DATA (R238). -/
def execPeMemDataWrite (r : Req) (e : Fin 16) (p : Bytes) (s : State) : Host.Outcome State Fault Refusal :=
  .next (hostWrite r (K.peMemData e) p s)

/-- TCB_CMD 1, POST (R262). -/
def execTaskPost (r : Req) (s : State) : Host.Outcome State Fault Refusal :=
  .next (hostWrite r K.tcbCmd [1] s)

/-- TCB_CMD 2, CANCEL (R268). -/
def execCancel (r : Req) (s : State) : Host.Outcome State Fault Refusal :=
  .next (hostWrite r K.tcbCmd [2] s)

/-- TCB_CMD 3, DISABLE (R270). -/
def execTaskDisable (r : Req) (s : State) : Host.Outcome State Fault Refusal :=
  .next (hostWrite r K.tcbCmd [3] s)

/-- TCB_CMD 4, ENABLE (R270). -/
def execTaskEnable (r : Req) (s : State) : Host.Outcome State Fault Refusal :=
  .next (hostWrite r K.tcbCmd [4] s)

/-- A write of Q_CLEAR (R280). -/
def execQClear (r : Req) (p : Bytes) (s : State) : Host.Outcome State Fault Refusal :=
  .next (hostWrite r K.qClear p s)

/-- A write of RQ_HIT_SITES or Q_HIT_MAP (R277). -/
def execHitClear (r : Req) (sites : Bool) (p : Bytes) (s : State) : Host.Outcome State Fault Refusal :=
  .next (hostWrite r (if sites then K.rqHitSites else K.qHitMap) p s)

/-- A write of TD_INC or TD_INC_PPB (R284). -/
def execTdIncWrite (r : Req) (d : Fin 2) (ppb : Bool) (p : Bytes) (s : State) : Host.Outcome State Fault Refusal :=
  .next (hostWrite r (if ppb then K.tdIncPpb d else K.tdInc d) p s)

/-- A write of TD_OFFSET or TD_OFFSET_FS (R284). -/
def execTdOffsetWrite (r : Req) (d : Fin 2) (fs : Bool) (p : Bytes) (s : State) : Host.Outcome State Fault Refusal :=
  .next (hostWrite r (if fs then K.tdOffsetFs d else K.tdOffset d) p s)

/-- A write of TD_SET (R284). -/
def execTdSetWrite (r : Req) (d : Fin 2) (p : Bytes) (s : State) : Host.Outcome State Fault Refusal :=
  .next (hostWrite r (K.tdSet d) p s)

/-- A write of TIME_ACTIVE_SEL (R292). -/
def execTimeActiveSelWrite (r : Req) (p : Bytes) (s : State) : Host.Outcome State Fault Refusal :=
  .next (hostWrite r K.timeActiveSel p s)

/-- A write of an object of TMRt (R291), by its subindex. -/
def execTmrWrite (r : Req) (t : Fin 16) (sub : BitVec 8) (p : Bytes) (s : State) : Host.Outcome State Fault Refusal :=
  .next (hostWrite r (0x804000 + 256 * t.val + sub.toNat) p s)

/-- RLY_CMD 1, TRAIN (R300). -/
def execRelayTrain (r : Req) (s : State) : Host.Outcome State Fault Refusal :=
  .next (hostWrite r K.rlyCmd [1] s)

/-- RLY_CMD 2, DOWN (R300). -/
def execRelayDown (r : Req) (s : State) : Host.Outcome State Fault Refusal :=
  .next (hostWrite r K.rlyCmd [2] s)

/-- A write of RLY_START_SEND (R305). -/
def execRlyStartSend (r : Req) (p : Bytes) (s : State) : Host.Outcome State Fault Refusal :=
  .next (hostWrite r K.rlyStartSend p s)

/-- A write of RLY_EVENT_SEND (R306). -/
def execRlyEventSend (r : Req) (p : Bytes) (s : State) : Host.Outcome State Fault Refusal :=
  .next (hostWrite r K.rlyEventSend p s)

/-- A write of RLY_JUMP_SEND (R306). -/
def execRlyJumpSend (r : Req) (p : Bytes) (s : State) : Host.Outcome State Fault Refusal :=
  .next (hostWrite r K.rlyJumpSend p s)

/-- A write of JTX_EN (R313). -/
def execJtxEnWrite (r : Req) (p : Bytes) (s : State) : Host.Outcome State Fault Refusal :=
  .next (hostWrite r K.jtxEn p s)

/-- A write of JRX_EN (R313). -/
def execJrxEnWrite (r : Req) (p : Bytes) (s : State) : Host.Outcome State Fault Refusal :=
  .next (hostWrite r K.jrxEn p s)

/-- JTX_CMD 1, ARM (R318). -/
def execJtxArm (r : Req) (s : State) : Host.Outcome State Fault Refusal :=
  .next (hostWrite r K.jtxCmd [1] s)

/-- JTX_CMD 2, START (R318). -/
def execJtxStart (r : Req) (s : State) : Host.Outcome State Fault Refusal :=
  .next (hostWrite r K.jtxCmd [2] s)

/-- JTX_CMD 3, STOP (R318). -/
def execJtxStop (r : Req) (s : State) : Host.Outcome State Fault Refusal :=
  .next (hostWrite r K.jtxCmd [3] s)

/-- A write of JTX_NCO_FTW or JTX_NCO_FREQ_HZ (R320). -/
def execJtxNcoFtwWrite (r : Req) (hz : Bool) (p : Bytes) (s : State) : Host.Outcome State Fault Refusal :=
  .next (hostWrite r (if hz then K.jtxNcoFreqHz else K.jtxNcoFtw) p s)

/-- JRX_CMD 1, START (R323). -/
def execJrxStart (r : Req) (s : State) : Host.Outcome State Fault Refusal :=
  .next (hostWrite r K.jrxCmd [1] s)

/-- JRX_CMD 2, STOP (R323). -/
def execJrxStop (r : Req) (s : State) : Host.Outcome State Fault Refusal :=
  .next (hostWrite r K.jrxCmd [2] s)

/-- A write of SYS_CAL_REC (R339). -/
def execSysCalRecWrite (r : Req) (k : Fin 8) (p : Bytes) (s : State) : Host.Outcome State Fault Refusal :=
  .next (hostWrite r (K.sysCalRec k) p s)

/-- A write of FLT_STICKY (R353). -/
def execFltStickyClear (r : Req) (p : Bytes) (s : State) : Host.Outcome State Fault Refusal :=
  .next (hostWrite r K.fltSticky p s)

/-- A write of FLT_RELEASE (R357). -/
def execFltRelease (r : Req) (p : Bytes) (s : State) : Host.Outcome State Fault Refusal :=
  .next (hostWrite r K.fltRelease p s)

/-- A write of SEC_KEKk (R401). -/
def execSecKekWrite (r : Req) (k : Fin 4) (p : Bytes) (s : State) : Host.Outcome State Fault Refusal :=
  .next (hostWrite r (K.secKek k) p s)

/-- A write of SK_LOAD (R402). -/
def execSkLoad (r : Req) (slot : Fin 64) (p : Bytes) (s : State) : Host.Outcome State Fault Refusal :=
  .next (hostWrite r (K.skLoad slot) p s)

/-- A write of SK_CLEAR (R402). -/
def execSkClear (r : Req) (slot : Fin 64) (p : Bytes) (s : State) : Host.Outcome State Fault Refusal :=
  .next (hostWrite r (K.skClear slot) p s)

/-- A write of SEC_OFFICER_KEYk (R403). -/
def execSecOfficerKeyWrite (r : Req) (k : Fin 4) (p : Bytes) (s : State) : Host.Outcome State Fault Refusal :=
  .next (hostWrite r (K.secOfficerKey k) p s)

/-- A write of SEC_OFFICER_REVOKE (R403). -/
def execSecOfficerRevoke (r : Req) (p : Bytes) (s : State) : Host.Outcome State Fault Refusal :=
  .next (hostWrite r K.secOfficerRevoke p s)

/-- A write of SEC_ANCHOR_REVOKE (R408). -/
def execSecAnchorRevoke (r : Req) (p : Bytes) (s : State) : Host.Outcome State Fault Refusal :=
  .next (hostWrite r K.secAnchorRevoke p s)

/-- A write of SEC_MIN_LEVEL_SET (R408). -/
def execSecMinLevelSet (r : Req) (p : Bytes) (s : State) : Host.Outcome State Fault Refusal :=
  .next (hostWrite r K.secMinLevelSet p s)

/-- A write of SEC_DIAG_LOAD (R409). -/
def execSecDiagLoad (r : Req) (p : Bytes) (s : State) : Host.Outcome State Fault Refusal :=
  .next (hostWrite r K.secDiagLoad p s)

/-- SEC_ZEROISE 1 (R411). -/
def execZeroiseVolatile (r : Req) (s : State) : Host.Outcome State Fault Refusal :=
  .next (hostWrite r K.secZeroise [1] s)

/-- SEC_ZEROISE 2 (R411). -/
def execZeroisePermanent (r : Req) (s : State) : Host.Outcome State Fault Refusal :=
  .next (hostWrite r K.secZeroise [2] s)

/-- SEC_CERT_MODE 1 (R412). -/
def execCertModeEnter (r : Req) (s : State) : Host.Outcome State Fault Refusal :=
  .next (hostWrite r K.secCertMode [1] s)

/-- SEC_CERT_MODE 0 (R412). -/
def execCertModeLeave (r : Req) (s : State) : Host.Outcome State Fault Refusal :=
  .next (hostWrite r K.secCertMode [0] s)

/-- A write of RESET_CMD (R419). -/
def execResetCmd (r : Req) (p : Bytes) (s : State) : Host.Outcome State Fault Refusal :=
  .next (hostWrite r K.resetCmd p s)

/-- A write of BOOT_CMD (R425). -/
def execBootCmd (r : Req) (p : Bytes) (s : State) : Host.Outcome State Fault Refusal :=
  .next (hostWrite r K.bootCmd p s)

/-- RUN_CMD 3, ARM (R137, R141). The page of the first segment image, which no object names, is an operand of the
row. -/
def execArm (r : Req) (g : Fin 16) (first : BitVec 32) (s : State) : Host.Outcome State Fault Refusal :=
  .next (request r opWrite (K.runCmd g) [3]
    (fun x s => writeWith (K.runCmd g) [3] (fun s => runCommand g 3 first.toNat s) (self x s) s) s)

/-- A write of SEC_SELFTEST (R410): `failing` is the number of the test that fails, 0 where all pass. -/
def execSecSelftest (r : Req) (p : Bytes) (failing : Nat) (s : State) : Host.Outcome State Fault Refusal :=
  .next (request r opWrite K.secSelftest p
    (fun x s => writeWith K.secSelftest p (fun s => selftestWrite (leNat p) failing s) (self x s) s) s)

/-! ### READ -/

/-- A READ of Q_READ (R276): `delivered` items held in DRAM arrive within 1 ms. -/
def execQRead (r : Req) (delivered : Nat) (s : State) : Host.Outcome State Fault Refusal :=
  .next (hostRead r delivered K.qRead [] s)

/-- READ of an object (R363). How many items DP4 brings for a Q_READ named this way is a free value. -/
def execRead (r : Req) (index : BitVec 16) (sub : BitVec 8) (p : Bytes) (s : State) : Host.Outcome State Fault Refusal :=
  .next (
    let key := index.toNat * 256 + sub.toNat
    let d := drawNat s
    if key = K.qRead then hostRead r d.1 key p d.2 else hostRead r 0 key p s)

/-- A READ of CAP_READ (R68). -/
def execCapRead (r : Req) (g : Fin 16) (s : State) : Host.Outcome State Fault Refusal :=
  .next (hostRead r 0 (K.capRead g) [] s)

/-- A READ of FAIL_POP (R74). -/
def execFailPop (r : Req) (g : Fin 16) (s : State) : Host.Outcome State Fault Refusal :=
  .next (hostRead r 0 (K.failPop g) [] s)

/-- A READ of PE_MEM_DATA (R238). -/
def execPeMemDataRead (r : Req) (e : Fin 16) (s : State) : Host.Outcome State Fault Refusal :=
  .next (hostRead r 0 (K.peMemData e) [] s)

/-- A READ of SYS_CAL_REC (R338). -/
def execSysCalRecRead (r : Req) (k : Fin 8) (s : State) : Host.Outcome State Fault Refusal :=
  .next (hostRead r 0 (K.sysCalRec k) [] s)

end Sys2Proof.Machine
end

