-- ==== Sys2Proof/Machine/Startup.lean ====
section
/-! DEFINITION. The steps of start-up (R420, R421) and the configuration records of the boot image (R424):
20_power_clocks_reset.md. -/
namespace Sys2Proof.Machine

/-- The session as which the configuration records are written (R424): an Engineer session with SES_EXPERT set, on no
port, which exists while they are applied. -/
def configSession : Session :=
  { id := 0, port := 4, v6 := false, addr := 0, udp := 0, role := 1, s0 := 0, opened := 0, last := 0, h := 0, expert := true }

/-- A configuration record skipped: it is counted, and the position of the first one is stored (R424). -/
def skipRecord (i : Nat) (s : State) : State :=
  onlyIf (rd K.bootCfgErrs s = 0) (wr K.bootCfgFirstErr i) s |> bump16 K.bootCfgErrs

/-- A configuration record applied (R424): as a WRITE; one that would be refused, or of class 0, D or F, is skipped. So is
one with a nonzero rsv field, for which R5 and R424 give no outcome (DESIGN CHOICE, log 68). -/
def applyRecord (i : Nat) (c : CfgRec) (s : State) : State :=
  let cls := c.key / 0x100000
  if rd K.startStep s ≠ 8 then s
  else if !c.rsvOk ∨ cls = 0 ∨ cls = 0xD ∨ cls = 0xF then skipRecord i s
  else
    let a := writeObj c.key c.value ((session 0 s).getD configSession) s
    if a.status = Code.ok then a.st else skipRecord i s

/-- The configuration records of the boot image applied in order. -/
def applyConfig (s : State) : State :=
  let l := imageRecords s.boot.image
  let s := { s with sessions := s.sessions ++ [configSession] }
  let s := forEach ((List.range l.length).zip l) (fun x s => applyRecord x.1 x.2 s) s
  { s with sessions := s.sessions.filter (fun x => x.id != 0) }

/-- Step 4 ends: the OTP is checked and loaded, or start-up stops (R421). -/
def otpStep (ok : Bool) (s : State) : State :=
  if ok then wrs [(K.mcMinLevel, s.otp.minLevel), (K.startStep, 5)] s else wr K.startFail 1 s

/-- Step 5 ends: the self-tests pass, or start-up stops at the test that failed (R410, R421). After a permanent
zeroisation SEC_STATE reads 3 (R411). -/
def selftestStep (ok : Bool) (failing : Nat) (s : State) : State :=
  if ok then
    wrs [(K.secState, if s.otp.dukOff then 3 else 1), (K.startStep, 6)] { s with boot := { s.boot with loader := false } }
  else selftestFails failing (wr K.startFail 2 s)

/-- Step 10 begins (R420): PE_ENABLE_AT_BOOT is applied and START_MS recorded, a time that the model does not
measure and leaves free. -/
def normalService (s : State) : State :=
  let v := drawNat s
  let s := wrs [(K.startStep, 10), (K.startMs, v.1 % 2 ^ 32)] v.2
  forEach ((List.range 16).filter (fun e => rd (K.peEnableAtBoot e) s == 1)) (fun e s => (peCommand e 1 s).st) s

/-- Whether the clocks that a step waits for are there: the references at step 2, the PLLs at step 3. -/
def clocksFree (l : List Nat) (s : State) : Bool := l.all (fun n => !s.flt.active.contains n)

/-- The step in progress reaches its end (R420). `ok` is whether what it checks holds, and `failing` the self-test
that fails. -/
def endStep (ok : Bool) (failing : Nat) (s : State) : State :=
  match rd K.startStep s with
  | 1 => onlyIf ok (wr K.startStep 2) s
  | 2 => onlyIf (ok && clocksFree [3, 4] s) (fun s => wrs [(K.clkStatus, rd K.clkStatus s ||| 3), (K.startStep, 3)] s) s
  | 3 => onlyIf (ok && clocksFree [0, 1, 2] s)
      (fun s => wrs [(K.clkStatus, rd K.clkStatus s ||| 28), (K.startStep, 4)] s) s
  | 4 => otpStep ok s
  | 5 => selftestStep ok failing s
  | 6 => onlyIf (ok && !s.boot.loader) (fun s => if s.boot.bootsel then startLoader s else bootFromFlash s) s
  | 7 => onlyIf (rd K.dramReady s = 1 || rd K.startFail s = 4) (fun s => applyConfig (wr K.startStep 8 s)) s
  | 8 => onlyIf (rd K.startFail s ≠ 4 && (List.range 4).any (fun p => rd (K.ethLink p) s == 1))
      (fun s => wr K.startStep 9 { s with cal := { s.cal with startAt := s.now } }) s
  | 9 => onlyIf ((List.range 16).all (fun g => fenced g s || groupConverged g s)) normalService s
  | _ => s

/-- A step of start-up ends and the next begins (R420); not while start-up is stopped (R421). -/
def execStartUpStepEnd (ok : Bool) (failing : Nat) (s : State) : Host.Outcome State Fault Refusal :=
  .next (if (rd K.startFail s = 0 ∨ rd K.startFail s = 4) ∧ ¬ (rd K.startStep s < 8 ∧ s.flt.active.any holdsStart) then
      endStep ok failing s
    else s)

end Sys2Proof.Machine
end

