-- ==== Sys2Proof/Machine/Jtag.lean ====
section
/-! DEFINITION. The JTAG test access port (R439–R441, R445): 21_package_and_signals.md. A command stands for an
instruction loaded and the scan of its data register that follows. -/
namespace Sys2Proof.Machine

/-! ### The boundary register and the balls (R439, R440) -/

/-- Cells of the channels in the order of R439: DRV, DEN, CH and CL of CH000–CH255, then of SYS0–SYS7. -/
def channelCells (s : State) : Nat :=
  ((List.range 264).map (fun n =>
    let c := chan n s
    (if c.drv.level then 2 ^ (4 * n) else 0) + (if c.den.level then 2 ^ (4 * n + 1) else 0) +
    (if c.cmpH then 2 ^ (4 * n + 2) else 0) + (if c.cmpL then 2 ^ (4 * n + 3) else 0))).foldl (· + ·) 0

/-- The levels of the balls TRIGIN0–7, TRIGOUT0–7, FLTIN0–3_N and INT_N, in this order (R439). The balls of active-low
signals are low while active. -/
def pinLevels (s : State) : List Bool :=
  (List.range 8).map (fun i => trigAfterReset i s) ++ (List.range 8).map (fun j => toutBall j s) ++
  (List.range 4).map (fun i => !(fltin i s).active) ++ [!intN s]

/-- The last cells of the boundary register: the balls of `pinLevels`, SPI, BOOTSEL and SYSRST_N, which is high while
a scan is heard. SPI shows balls whose levels the model does not hold: a free value. -/
def pinCells (spi : Nat) (s : State) : Nat :=
  maskWhere 21 (fun i => (pinLevels s)[i]?.getD false) + 2 ^ 21 * (spi % 2 ^ 6) +
  2 ^ 27 * (if s.boot.bootsel then 1 else 0) + 2 ^ 28

/-- What the boundary register captures: the channels' balls, then 572 cells of DDR5, lanes and clocks, whose levels
the model does not hold and which are free values, then the other pins. -/
def captureBoundary (s : State) : State :=
  let v := drawNat s
  let u := drawNat v.2
  { u.2 with jtag := { u.2.jtag with
      dr := channelCells s + 2 ^ 1056 * (v.1 % 2 ^ 572) + 2 ^ 1628 * pinCells u.1 s } }

/-- Level of a DRV ball: the boundary cell's while a boundary instruction acts (R440). -/
def ballDrv (n : Nat) (s : State) : Bool :=
  if s.jtag.acting then s.jtag.boundary.getLsbD (4 * n) else (chan n s).drv.level

/-- Level of a DEN ball: the boundary cell's while a boundary instruction acts, but the safe state of a class F
reaction overrides it until the next TAP reset (R440, R445). -/
def ballDen (n : Nat) (s : State) : Bool :=
  if s.jtag.acting then s.jtag.boundary.getLsbD (4 * n + 1) && !s.jtag.safeHold else (chan n s).den.level

/-- Level of a TRIGOUT ball: the boundary cell's while a boundary instruction acts (R440). -/
def ballTout (j : Nat) (s : State) : Bool :=
  if s.jtag.acting then s.jtag.boundary.getLsbD (1636 + j) else toutBall j s

/-- Whether the ball INT_N is driven low: by its boundary cell while a boundary instruction acts (R437, R440). -/
def ballIntLow (s : State) : Bool := if s.jtag.acting then !s.jtag.boundary.getLsbD 1648 else intN s

/-- Whether EXTEST, EXTEST_PULSE and EXTEST_TRAIN may act: before step 8 of start-up, or with every group in OFF or
FENCED (R440). -/
def boundaryAllowed (s : State) : Bool :=
  rd K.startStep s < 8 || (List.range 16).all (fun g => runState g s = 0 || runState g s = 6)

/-- An instruction loaded. -/
def loadIr (code : Nat) (acting : Bool) (s : State) : State :=
  { s with jtag := { s.jtag with
      ir := BitVec.ofNat 8 code, acting, safeHold := s.jtag.safeHold || (acting && fatal s) } }

/-- The data register of an instruction captured. -/
def setDr (v : Nat) (s : State) : State := { s with jtag := { s.jtag with dr := v } }

/-- One of the instructions that own the balls: it acts where it may, otherwise as BYPASS (R440). -/
def boundaryScan (code : Nat) (cells : BitVec 1657) (s : State) : State :=
  if boundaryAllowed s then
    let s := captureBoundary s
    loadIr code true { s with jtag := { s.jtag with boundary := cells } }
  else setDr 0 (loadIr code false s)

/-- EXTEST. -/
def execExtest (cells : BitVec 1657) (s : State) : Host.Outcome State Fault Refusal := .next (boundaryScan 0x00 cells s)

/-- EXTEST_PULSE. -/
def execExtestPulse (cells : BitVec 1657) (s : State) : Host.Outcome State Fault Refusal := .next (boundaryScan 0x03 cells s)

/-- EXTEST_TRAIN. -/
def execExtestTrain (cells : BitVec 1657) (s : State) : Host.Outcome State Fault Refusal := .next (boundaryScan 0x04 cells s)

/-- SAMPLE/PRELOAD: the balls are captured and the boundary cells loaded; the chip goes on driving its balls. -/
def execSamplePreload (cells : BitVec 1657) (s : State) : Host.Outcome State Fault Refusal :=
  .next (
    let s := captureBoundary s
    loadIr 0x01 false { s with jtag := { s.jtag with boundary := cells } })

/-! ### The other instructions (R439, R441) -/

/-- The identity register: the stepping letter, 0x9256, 0x2D5 and 1. -/
def idcodeValue (s : State) : Nat := s.otp.stepping / 16 % 16 * 2 ^ 28 + 0x9256 * 2 ^ 12 + 0x2D5 * 2 + 1

/-- IDCODE. -/
def execIdcode (s : State) : Host.Outcome State Fault Refusal := .next (setDr (idcodeValue s) (loadIr 0x02 false s))

/-- What START_STAT captures: START_STEP, START_FAIL and SEC_STATE. -/
def startStatus (s : State) : Nat :=
  rd K.startStep s * 2 ^ 24 + rd K.startFail s * 2 ^ 16 + rd K.secState s * 2 ^ 8

/-- START_STAT (R441). It works from the end of step 3, and during a warm reset; before, what it captures is a free
value. In the certified-configuration mode its code acts as BYPASS (R412, R439). -/
def execStartStat (s : State) : Host.Outcome State Fault Refusal :=
  .next (
    let t := loadIr 0x38 false s
    if rd K.secCertMode s = 1 then setDr 0 t
    else if 4 ≤ rd K.startStep s ∨ (rd K.startStep s = 3 ∧ rd K.resetCause s ≠ 0) then setDr (startStatus s) t
    else
      let v := drawNat t
      setDr (v.1 % 2 ^ 32) v.2)

/-- BYPASS, the meaning of every code that names no other instruction; a code that does is not this command. -/
def execBypass (code : BitVec 8) (s : State) : Host.Outcome State Fault Refusal :=
  .next (if code.toNat ≤ 4 ∨ code = 0x38 then s else setDr 0 (loadIr code.toNat false s))

/-- The TAP is reset: the instruction register holds IDCODE, no boundary instruction acts, and a class F reaction's
hold over the scan ends (R439, R440). -/
def execTapReset (s : State) : Host.Outcome State Fault Refusal :=
  .next { s with jtag := { s.jtag with ir := 0x02, acting := false, safeHold := false } }

end Sys2Proof.Machine
end

