-- ==== Sys2Proof/Machine/Sequencer.lean ====
section
/-! DEFINITION. The sequencer instructions and their events, one meaning each (05, 07). -/
namespace Sys2Proof.Machine

/-- An instruction of a sequencer: nothing where the IU does not execute this word next; sequence error 2 where
a rsv field is nonzero (R106); otherwise its body. -/
def iuInstr (k op : Nat) (w : SeqWord) (rsvOk : Bool) (body : State → State) (s : State) :
    Host.Outcome State Fault Refusal :=
  .next (if !iuOk k op w s then s else if !rsvOk then seqError k 2 (charge k 1 s) else body s)

/-- RUN (R108): a range from the play pointer, repeated where it is the whole body of a loop (R111). -/
def execRun (k : Fin 16) (w : SeqWord) (s : State) : Host.Outcome State Fault Refusal :=
  let creg := w.flags.getLsbD 0
  let seek := w.flags.getLsbD 1
  let a := w.a.toNat
  let run := fun (s : State) =>
    let ptr := if seek then grOf k (nib a 1) s else (seq k s).ptr
    let n := if creg then grOf k (nib a 0) s else w.b.toNat
    let cost := if seek then 2 else 1
    if n = 0 ∨ vlenOf k s < ptr + n then seqError k 3 (charge k cost s)
    else if seek ∧ ptr % granuleOf k s ≠ 0 then seqError k 4 (charge k cost s)
    else if !roomFor k s then s
    else
      let pc := pcOf k s
      let alone : Bool := match (seq k s).loops with
        | v :: _ => loopBase (seq k s) < (seq k s).loops.length && v.pc = pc && !seek && v.pass = 1 &&
            ((codeAt k (pc + 1) s).map (· / 2 ^ 56)) = some 3
        | [] => false
      let reps := if alone then ((seq k s).loops.head?.map (·.left)).getD 1 else 1
      let page := (seq k s).page
      let s := modSeq k (fun q => { q with ptr := ptr }) s
      let s := issue k cost { page, first := ptr, count := n, reps, locks := alone && fitsLock k page ptr n 0 s } s
      let s := modSeq k (fun q => { q with
        ptr := ptr + n
        loops := match q.loops with
          | v :: t => (if alone then { v with left := 1 } else v) :: t
          | [] => [] }) s
      nextPc k s
  iuInstr k 1 w (w.flags.toNat < 4 && (a < 256) && (!creg || w.b = 0)) run s

/-- LOOP (R110). -/
def execLoop (k : Fin 16) (w : SeqWord) (s : State) : Host.Outcome State Fault Refusal :=
  let creg := w.flags.getLsbD 0
  iuInstr k 2 w (w.flags.toNat < 2 && w.a.toNat < 16 && (!creg || w.b = 0)) (fun s =>
    let q := seq k s
    let n := if creg then grOf k (nib w.a.toNat 0) s else w.b.toNat
    if q.ptr % granuleOf k s ≠ 0 then seqError k 4 (charge k 1 s)
    else if 8 ≤ q.loops.length then seqError k 5 (charge k 1 s)
    else
      let v : LoopLvl := { left := if n = 0 then 2 ^ 32 else n, pc := pcOf k s + 1, ptr := q.ptr }
      spend k 1 (modSeq k (fun q => { q with loops := v :: q.loops }) s)) s

/-- ENDL (R110, R112). -/
def execEndl (k : Fin 16) (w : SeqWord) (s : State) : Host.Outcome State Fault Refusal :=
  iuInstr k 3 w (w.flags = 0 && w.a = 0 && w.b = 0) (fun s =>
    let q := seq k s
    let s := charge k 1 s
    match q.loops with
    | [] => seqError k 6 s
    | v :: t =>
      if q.loops.length ≤ loopBase q then seqError k 6 s
      else if v.issued = 0 then seqError k 7 s
      else if 1 < v.left then
        let words := 8 * (pcOf k s + 1 - v.pc)
        let locked := if v.ptr < q.ptr ∧ fitsLock k q.page v.ptr (q.ptr - v.ptr) words s then
            some (q.page, v.ptr, q.ptr - v.ptr) else none
        let v' := { v with left := v.left - 1, issued := 0, pass := v.pass + 1, locked }
        reachPc k v.pc (modSeq k (fun q => { q with loops := v' :: t, ptr := v.ptr }) s)
      else nextPc k (modSeq k (fun q => { q with loops := t }) s)) s

/-- CALL (R113). -/
def execCall (k : Fin 16) (w : SeqWord) (s : State) : Host.Outcome State Fault Refusal :=
  iuInstr k 4 w (w.flags = 0 && w.a = 0) (boundary k (.call w.b.toNat)) s

/-- RET (R113). -/
def execRet (k : Fin 16) (w : SeqWord) (s : State) : Host.Outcome State Fault Refusal :=
  iuInstr k 5 w (w.flags = 0 && w.a = 0 && w.b = 0) (boundary k .ret) s

/-- JUMP, local or into a segment (R114). -/
def execJump (k : Fin 16) (w : SeqWord) (s : State) : Host.Outcome State Fault Refusal :=
  iuInstr k 6 w (w.flags.toNat < 2 && w.a = 0) (fun s =>
    if w.flags.getLsbD 0 then boundary k (.jump w.b.toNat) s
    else
      let s := charge k 3 s
      match codeAt k w.b.toNat s with
      | some _ => reachPc k w.b.toNat s
      | none => seqError k 9 s) s

/-- JIF (R114): a synchronising condition not yet known makes the IU wait. -/
def execJif (k : Fin 16) (w : SeqWord) (s : State) : Host.Outcome State Fault Refusal :=
  iuInstr k 7 w (w.flags.toNat < 4 && w.a.toNat < 256) (fun s =>
    let c := w.a.toNat % 256
    if !condOk c then seqError k 11 (charge k 2 s)
    else match condKnown k c s with
      | some t => decideJif k w (modSeq k (fun q => { q with iuAt := max q.iuAt t }) s)
      | none => modSeq k (fun q => { q with wait := .jif w }) s) s

/-- MATCH (R116–R118): its block is issued as one repeating range. -/
def execMatchBlock (k : Fin 16) (w : SeqWord) (s : State) : Host.Outcome State Fault Refusal :=
  let creg := w.flags.getLsbD 3
  let f := w.flags.toNat
  iuInstr k 8 w (f % 2 = 0 && (!creg || w.b = 0)) (fun s =>
    let q := seq k s
    let grans := w.a.toNat % 2 ^ 14
    let n := grans * granuleOf k s
    let limit := if creg then grOf k (f / 16) s else w.b.toNat
    if blockCheck k grans s ≠ 0 then seqError k (blockCheck k grans s) (charge k 2 s)
    else if !roomFor k s then s
    else
      let id := q.blkNo + 1
      let b : Block := { id, isMatch := true, limit := if limit = 0 then 2 ^ 32 else limit, same := w.flags.getLsbD 1
                         isSealed := ((headOf k q.page s).map Head.isSealed).getD false
                         rly := w.flags.getLsbD 2, sites := participating k (smOf k (w.a.toNat / 2 ^ 14) s) s }
      let s := modSeq k (fun q => { q with blkNo := id, blks := q.blks ++ [b] }) s
      let s := issue k 2 { page := q.page, first := q.ptr, count := n, reps := b.limit, kind := .matchBlock, blk := id
                           locks := fitsLock k q.page q.ptr n 0 s } s
      nextPc k (modSeq k (fun q => { q with ptr := q.ptr + n }) s)) s

/-- The exit of a MATCH with RLY set, decided by the landing of a result of 1 (R309). -/
def decideByRing (k : Nat) (b : Block) (at_ : Nat) (s : State) : State :=
  let s := modSeq k (fun q => { q with blks := q.blks.map (fun y => if y.id == b.id then
    { y with decided := true, known := at_, exitAt := some at_ } else y) }) s
  let s := setSeqFlag k 20 false (wr (K.seqMatchPass k) b.latched s)
  releaseJif k (forEach (members k s) (fun g s => settleGroup g s) s)

/-- The landing of a result of 1 that decides a block: by the verdict instant of its last repetition (R309). -/
def ringDecides (b : Block) : Option Nat :=
  if !b.rly then none
  else match b.flagAt with
    | none => none
    | some t =>
      match b.reps.find? (fun x => b.limit ≠ 0 && x.n == b.limit) with
      | some x => (match x.verdictAt with | some v => if v < t then none else some t | none => some t)
      | none => some t

/-- The exit of the MATCH judged next is decided (R119, R309). -/
def execMatchExitDecision (k : Fin 16) (s : State) : Host.Outcome State Fault Refusal :=
  .next (match openMatch k s with
    | none => s
    | some b => match ringDecides b with
      | some t => decideByRing k b t (toTime t s)
      | none => match dueRep k b s with
        | none => s
        | some x => if decides b x then decideMatch k b x (toTime (x.verdictAt.getD 0) s) else s)

/-- WAITT (R121, R122): a keep-alive block until an event, or a limit. -/
def execWaitt (k : Fin 16) (w : SeqWord) (s : State) : Host.Outcome State Fault Refusal :=
  let creg := w.flags.getLsbD 3
  let f := w.flags.toNat
  let b := w.b.toNat
  iuInstr k 9 w (f % 8 = 0 && w.a.toNat < 2 ^ 14 && (!creg || b % 2 ^ 24 = 0)) (fun s =>
    let q := seq k s
    let src := b / 2 ^ 24
    let grans := w.a.toNat
    let n := grans * granuleOf k s
    let limit := if creg then grOf k (f / 16) s else b % 2 ^ 24
    if !(src < 8 || (0x10 ≤ src && src ≤ 0x21)) then seqError k 11 (charge k 2 s)
    else if blockCheck k grans s ≠ 0 then seqError k (blockCheck k grans s) (charge k 2 s)
    else if !roomFor k s then s
    else
      let id := q.blkNo + 1
      let at_ := max (q.iuAt + 2 * seqclk) q.freedAt
      -- an event on its way arrives after the execution; a level input in activation fires at once
      let coming := q.events.find? (fun e => e.1 == src && at_ < e.2)
      let tr := trig src s
      -- a firing in the cycle in which the consumer arms counts (R161)
      let fires := src < 8 && !tr.firedBy.contains (32 + k) &&
        ((tr.active && rd (K.trigType src) s == 1) || (0 < tr.since && tr.since / seqclk == at_ / seqclk))
      let fire := if rd (K.trigType src) s = 1 then max (nextTref at_) tr.since else tr.since
      let event := if fires then some (reachesSeq fire) else coming.map (·.2)
      let blk : Block := { id, isMatch := false, source := src, limit, event }
      let s := if fires then modTrig src (fun x => { x with firedBy := (32 + k.val) :: x.firedBy }) s else s
      let s := modSeq k (fun q => { q with
        blkNo := id, blks := q.blks ++ [blk]
        events := q.events.filter (fun e => some e != coming) }) s
      let s := issue k 2 { page := q.page, first := q.ptr, count := n, reps := if limit = 0 then 2 ^ 32 else limit
                           kind := .waitBlock, blk := id, locks := fitsLock k q.page q.ptr n 0 s } s
      nextPc k (modSeq k (fun q => { q with ptr := q.ptr + n }) s)) s

/-- The exit of a WAITT is decided (R122). -/
def execWaittExitDecision (k : Fin 16) (s : State) : Host.Outcome State Fault Refusal :=
  .next (match openWait k s with
    | none => s
    | some b => decideWait k b (toTime (if b.event.isSome then b.event.getD 0 else b.since) s))

/-- TSYNC (R123, R124): a hold in the range queue; the IU waits until play reaches it, and only then comes to the next
word. -/
def execTsync (k : Fin 16) (w : SeqWord) (s : State) : Host.Outcome State Fault Refusal :=
  iuInstr k 0xA w (w.flags = 0 && w.a.toNat < 16) (fun s =>
    if !roomFor k s then s
    else
      let s := issue k 2 { page := (seq k s).page, first := 0, count := 0, kind := .hold w.a.toNat w.b.toNat } s
      modSeq k (fun q => { q with wait := .hold }) s) s

/-- The hold of a TSYNC ends (R123): its timer's placed edge or its limit has come by the next cycle start. Where both
have come, it ends by the edge and TTO is 0 (DESIGN CHOICE, log 57). -/
def execTsyncRelease (k : Fin 16) (s : State) : Host.Outcome State Fault Refusal :=
  .next (
    let q := seq k s
    if !(q.live && leader k s = k && !fenced k s && runState k s = 3 && releaseDue q) then s
    else match q.queue with
      | r :: rest =>
        (match r.kind with
          | .hold _ _ =>
            let byEdge := match q.holdEdge with | some e => decide (e ≤ q.nextAt) | none => false
            releaseJif k (leaveSync k q.nextAt rest false (!byEdge) (toTime q.nextAt s))
          | _ => s)
      | [] => s)

/-- MARK (R125): a mark for the first vector of the next range. -/
def execMark (k : Fin 16) (w : SeqWord) (s : State) : Host.Outcome State Fault Refusal :=
  let regv := w.flags.getLsbD 0
  iuInstr k 0xB w (w.flags.toNat < 2 && (!regv || w.a.toNat < 16) && w.b = 0) (fun s =>
    let v := if regv then grOf k w.a.toNat s % 65536 else w.a.toNat
    spend k 1 (modSeq k (fun q => { q with marks := q.marks ++ [v] }) s)) s

/-- FLAG (R126). -/
def execFlag (k : Fin 16) (w : SeqWord) (s : State) : Host.Outcome State Fault Refusal :=
  let op := w.flags.toNat % 4
  iuInstr k 0xC w (w.flags.toNat < 4 && w.b = 0) (fun s =>
    let f := rd (K.seqFlags k) s
    let m := w.a.toNat
    let uf := f % 65536
    let uf' := if op = 0 then uf &&& (65535 - m) else if op = 1 then uf ||| m else uf ^^^ m
    if op = 3 then seqError k 11 (charge k 1 s)
    else spend k 1 (wr (K.seqFlags k) (f - uf + uf') s)) s

/-- SETREG (R127). -/
def execSetreg (k : Fin 16) (w : SeqWord) (s : State) : Host.Outcome State Fault Refusal :=
  let a := w.a.toNat
  let op := nib a 2
  let src := nib a 1
  let d := nib a 0
  let b := w.b.toNat
  let usesSrc := op = 2 || op = 3
  let usesB := op ≠ 2 && op ≠ 4
  iuInstr k 0xD w (w.flags = 0 && a < 4096 && (6 < op || ((usesSrc || src = 0) && (usesB || b = 0)))) (fun s =>
    let set := fun (v : Nat) => spend k 1 (wr (K.gr k d) (v % 2 ^ 32) s)
    let sm := smOf k d s
    match op with
    | 0 => set b
    | 1 => set (grOf k d s + b)
    | 2 => set (grOf k src s)
    | 3 => set (grOf k src s + b)
    | 4 => set (grOf k d s % 2 ^ 32 - 1)
    | 5 => if 3 < d then seqError k 11 (charge k 1 s)
        else spend k 1 (wr (K.sm k d) (sm / 2 ^ 32 * 2 ^ 32 + b) s)
    | 6 => if 3 < d then seqError k 11 (charge k 1 s)
        else spend k 1 (wr (K.sm k d) (b * 2 ^ 32 + sm % 2 ^ 32) s)
    | _ => seqError k 11 (charge k 1 s)) s

/-- TSLOAD (R128): from the run's first cycle start on (R178), where it is checked as well; behind an earlier load
it waits (R170). -/
def execTsload (k : Fin 16) (w : SeqWord) (s : State) : Host.Outcome State Fault Refusal :=
  if !(seq k s).live then .next s
  else iuInstr k 0xE w (w.flags.toNat < 2 && w.a.toNat < 2 ^ 14 && w.a.toNat / 64 % 4 = 0) (fun s =>
    let s := modSeq k (fun q => { q with iuAt := max q.iuAt q.origin }) s
    if (seq k s).load.isSome then modSeq k (fun q => { q with wait := .loadBusy w }) s else startLoad k w s) s

/-- A set of a load commits at the cycle start that the chain has come to (R128, R169). -/
def execTsloadCommit (k : Fin 16) (s : State) : Host.Outcome State Fault Refusal :=
  .next (if leader k s = k ∧ ¬ fenced k s ∧ loadDue k s then commitSet k (toTime (seq k s).cycAt s) else s)

/-- STOP (R129). -/
def execStop (k : Fin 16) (w : SeqWord) (s : State) : Host.Outcome State Fault Refusal :=
  iuInstr k 0xF w (w.flags = 0 && w.a = 0 && w.b = 0) (fun s =>
    let q := seq k s
    let s := charge k 1 s
    if loopBase q < q.loops.length then seqError k 6 s
    else modSeq k (fun q => { q with ending := some .stop }) s) s

/-- HALT (R130). -/
def execHalt (k : Fin 16) (w : SeqWord) (s : State) : Host.Outcome State Fault Refusal :=
  iuInstr k 0x10 w (w.flags = 0 && w.b = 0) (fun s =>
    let q := seq k s
    let s := charge k 1 s
    if loopBase q < q.loops.length then seqError k 6 s
    else modSeq k (fun q => { q with ending := some (.haltInstr w.a.toNat) }) s) s

/-- NOP. -/
def execNop (k : Fin 16) (w : SeqWord) (s : State) : Host.Outcome State Fault Refusal :=
  iuInstr k 0x11 w (w.flags = 0 && w.a = 0 && w.b = 0) (spend k 1) s

/-- The foreground becomes ready while a long routine runs: a micro-trap is taken, and a JIF that waited is
decided (R171–R173). The cause is that of the wait that ended. -/
def execMicroTrap (k : Fin 16) (cause : Fin 7) (s : State) : Host.Outcome State Fault Refusal :=
  .next (
    if !(longHolds k s && leader k s = k && !fenced k s && cause.val = trapCause (seq k s)) then s
    else match readySince k s with
      | none => s
      | some t => releaseJif k (takeTrap k (max t (seq k s).iuAt) s))

/-- The foreground waits again: a TRET gives the micro-engine back to the long routine (R171, R172). -/
def execTrapReturn (k : Fin 16) (s : State) : Host.Outcome State Fault Refusal :=
  .next (match (seq k s).load with
    | some d =>
      if d.trapped ∧ yieldsEngine k s then
        modSeq k (fun q => { q with load := some (longRuns (nextSeqclk q.iuAt + 2 * seqclk) d) }) s
      else s
    | none => s)

/-- Play reaches the commit point of the boundary that the IU waits at (R153–R155). -/
def execCommitPoint (k : Fin 16) (s : State) : Host.Outcome State Fault Refusal :=
  .next (
    let q := seq k s
    match q.wait with
    | .commit b =>
      if leader k s ≠ k ∨ fenced k s ∨ longHolds k s then s
      else match commitAt k s with
        | none => s
        | some c =>
          let s := landJumps k (max (c.2 / seqclk * seqclk) q.iuAt) s
          let take := requestTaken k c s
          let s := modSeq k (fun q => { q with wait := .none, iuAt := max q.iuAt c.2 }) s
          if take then takeRequest k (seq k s).iuAt s else takeBoundary k b s
    | _ => s)

/-- A repetition of a MATCH with RLY set is judged once the exit has been decided (R308). -/
def judgeLate (k : Nat) (s : State) : State :=
  match lateMatch k s with
  | none => s
  | some b => match dueRep k b s with
    | none => s
    | some x => judgeRep k b x (toTime (x.verdictAt.getD 0) s)

/-- A verdict instant (R104): a repetition of a MATCH that does not decide its exit is judged, or, with none of those due,
one of a MATCH with RLY set that has decided its exit, or an IU in a JIF on a fail condition learns its value. -/
def execVerdictInstant (k : Fin 16) (s : State) : Host.Outcome State Fault Refusal :=
  .next (
    if leader k s ≠ k then s
    else match openMatch k s with
      | none => releaseJif k (judgeLate k s)
      | some b => match dueRep k b s with
        | none => releaseJif k (judgeLate k s)
        | some x => if decides b x then releaseJif k s else judgeRep k b x (toTime (x.verdictAt.getD 0) s))

end Sys2Proof.Machine
end

