-- ==== Sys2Proof/Machine/Dispatch.lean ====
section
/-! DEFINITION. The effect of every command on everything but the queue, one arm per row of the table. -/
namespace Sys2Proof.Machine

/-- The effect of a command, by the spec's rules 95_what_each_step_holds.md. -/
def exec (i : Instr) (s : State) : Host.Outcome State Fault Refusal :=
  match i with
  | .write r index sub p => Sys2Proof.Machine.execWrite r index sub p s
  | .read r index sub p => Sys2Proof.Machine.execRead r index sub p s
  | .openSession r role rsv cred => Sys2Proof.Machine.execOpenSession r role rsv cred s
  | .closeSession r p => Sys2Proof.Machine.execCloseSession r p s
  | .readBlock r index sub offset count rsv ecc => Sys2Proof.Machine.execReadBlock r index sub offset count rsv ecc s
  | .writeBlock r index sub offset total rsv data ecc => Sys2Proof.Machine.execWriteBlock r index sub offset total rsv data ecc s
  | .subscribe r index sub rsv => Sys2Proof.Machine.execSubscribe r index sub rsv s
  | .subscribeCancel r index sub rsv => Sys2Proof.Machine.execSubscribeCancel r index sub rsv s
  | .notifyAck r => Sys2Proof.Machine.execNotifyAck r s
  | .notifyRetry session seq => Sys2Proof.Machine.execNotifyRetry session seq s
  | .changeSample session index sub => Sys2Proof.Machine.execChangeSample session index sub s
  | .sessionTimeout session => Sys2Proof.Machine.execSessionTimeout session s
  | .cgModeWrite r g p => Sys2Proof.Machine.execCgModeWrite r g p s
  | .cgGangWrite r g p => Sys2Proof.Machine.execCgGangWrite r g p s
  | .cgBasePeriodWrite r g fs p => Sys2Proof.Machine.execCgBasePeriodWrite r g fs p s
  | .chTermSelWrite r n p => Sys2Proof.Machine.execChTermSelWrite r n p s
  | .sysTimingWrite r k sub p => Sys2Proof.Machine.execSysTimingWrite r k sub p s
  | .tsTableWrite r bank p => Sys2Proof.Machine.execTsTableWrite r bank p s
  | .cycleStart c => Sys2Proof.Machine.execCycleStart c s
  | .edgeFire ch => Sys2Proof.Machine.execEdgeFire ch s
  | .deadTimeEnd g => Sys2Proof.Machine.execDeadTimeEnd g s
  | .comparatorTransition n cl level t => Sys2Proof.Machine.execComparatorTransition n cl level t s
  | .captureRingWrite g => Sys2Proof.Machine.execCaptureRingWrite g s
  | .capBaseWrite r g p => Sys2Proof.Machine.execCapBaseWrite r g p s
  | .capLenWrite r g p => Sys2Proof.Machine.execCapLenWrite r g p s
  | .capRdWrite r g p => Sys2Proof.Machine.execCapRdWrite r g p s
  | .capRead r g => Sys2Proof.Machine.execCapRead r g s
  | .captureSpillDrain g => Sys2Proof.Machine.execCaptureSpillDrain g s
  | .spillRdWrite r g fail p => Sys2Proof.Machine.execSpillRdWrite r g fail p s
  | .failPop r g => Sys2Proof.Machine.execFailPop r g s
  | .failSpillDrain g => Sys2Proof.Machine.execFailSpillDrain g s
  | .run k w => Sys2Proof.Machine.execRun k w s
  | .loop k w => Sys2Proof.Machine.execLoop k w s
  | .endl k w => Sys2Proof.Machine.execEndl k w s
  | .call k w => Sys2Proof.Machine.execCall k w s
  | .ret k w => Sys2Proof.Machine.execRet k w s
  | .jump k w => Sys2Proof.Machine.execJump k w s
  | .jif k w => Sys2Proof.Machine.execJif k w s
  | .matchBlock k w => Sys2Proof.Machine.execMatchBlock k w s
  | .matchExitDecision k => Sys2Proof.Machine.execMatchExitDecision k s
  | .waitt k w => Sys2Proof.Machine.execWaitt k w s
  | .waittExitDecision k => Sys2Proof.Machine.execWaittExitDecision k s
  | .tsync k w => Sys2Proof.Machine.execTsync k w s
  | .tsyncRelease k => Sys2Proof.Machine.execTsyncRelease k s
  | .mark k w => Sys2Proof.Machine.execMark k w s
  | .flag k w => Sys2Proof.Machine.execFlag k w s
  | .setreg k w => Sys2Proof.Machine.execSetreg k w s
  | .tsload k w => Sys2Proof.Machine.execTsload k w s
  | .tsloadCommit k => Sys2Proof.Machine.execTsloadCommit k s
  | .stop k w => Sys2Proof.Machine.execStop k w s
  | .halt k w => Sys2Proof.Machine.execHalt k w s
  | .nop k w => Sys2Proof.Machine.execNop k w s
  | .seqHostEventWrite r k p => Sys2Proof.Machine.execSeqHostEventWrite r k p s
  | .microTrap k cause => Sys2Proof.Machine.execMicroTrap k cause s
  | .trapReturn k => Sys2Proof.Machine.execTrapReturn k s
  | .enable r g => Sys2Proof.Machine.execEnable r g s
  | .disable r g => Sys2Proof.Machine.execDisable r g s
  | .arm r g first => Sys2Proof.Machine.execArm r g first s
  | .armComplete g => Sys2Proof.Machine.execArmComplete g s
  | .start r g => Sys2Proof.Machine.execStart r g s
  | .disarm r g => Sys2Proof.Machine.execDisarm r g s
  | .pause r g => Sys2Proof.Machine.execPause r g s
  | .pauseTakesEffect g => Sys2Proof.Machine.execPauseTakesEffect g s
  | .resume r g => Sys2Proof.Machine.execResume r g s
  | .hostHalt r g => Sys2Proof.Machine.execHostHalt r g s
  | .haltTakesEffect g => Sys2Proof.Machine.execHaltTakesEffect g s
  | .clear r g => Sys2Proof.Machine.execClear r g s
  | .runGroupStart r p => Sys2Proof.Machine.execRunGroupStart r p s
  | .firstCycleStart g => Sys2Proof.Machine.execFirstCycleStart g s
  | .endOfRun g => Sys2Proof.Machine.execEndOfRun g s
  | .underrunResume g => Sys2Proof.Machine.execUnderrunResume g s
  | .triginActivation n edge => Sys2Proof.Machine.execTriginActivation n edge s
  | .triginDeactivation n edge => Sys2Proof.Machine.execTriginDeactivation n edge s
  | .trigStuck n edge => Sys2Proof.Machine.execTrigStuck n edge s
  | .toutPulse r j p => Sys2Proof.Machine.execToutPulse r j p s
  | .toutPulseEnd j => Sys2Proof.Machine.execToutPulseEnd j s
  | .jtReq r k p => Sys2Proof.Machine.execJtReq r k p s
  | .commitPoint k => Sys2Proof.Machine.execCommitPoint k s
  | .patchVerify r => Sys2Proof.Machine.execPatchVerify r s
  | .patchVerifyComplete => Sys2Proof.Machine.execPatchVerifyComplete s
  | .patchApply r => Sys2Proof.Machine.execPatchApply r s
  | .patchApplyComplete => Sys2Proof.Machine.execPatchApplyComplete s
  | .patchDiscard r => Sys2Proof.Machine.execPatchDiscard r s
  | .mcPatchStageWrite r p => Sys2Proof.Machine.execMcPatchStageWrite r p s
  | .dramCommandIssue u => Sys2Proof.Machine.execDramCommandIssue u s
  | .dramBurstComplete port addr ecc => Sys2Proof.Machine.execDramBurstComplete port addr ecc s
  | .dp0Timeout g => Sys2Proof.Machine.execDp0Timeout g s
  | .refresh u bank => Sys2Proof.Machine.execRefresh u bank s
  | .forcedRefresh u bank => Sys2Proof.Machine.execForcedRefresh u bank s
  | .trainingPause u => Sys2Proof.Machine.execTrainingPause u s
  | .trainingPauseEnd u passing last => Sys2Proof.Machine.execTrainingPauseEnd u passing last s
  | .trainingDeferred u => Sys2Proof.Machine.execTrainingDeferred u s
  | .dramSpeedReqWrite r p => Sys2Proof.Machine.execDramSpeedReqWrite r p s
  | .speedChangeStart => Sys2Proof.Machine.execSpeedChangeStart s
  | .speedChangeComplete trained => Sys2Proof.Machine.execSpeedChangeComplete trained s
  | .dramInitComplete => Sys2Proof.Machine.execDramInitComplete s
  | .scrubPassComplete => Sys2Proof.Machine.execScrubPassComplete s
  | .dcReleaseTrainingDone c trained => Sys2Proof.Machine.execDcReleaseTrainingDone c trained s
  | .pacerNop e f => Sys2Proof.Machine.execPacerNop e f s
  | .b e f => Sys2Proof.Machine.execB e f s
  | .pacerCall e f => Sys2Proof.Machine.execPacerCall e f s
  | .jr e f => Sys2Proof.Machine.execJr e f s
  | .doRepeat e f => Sys2Proof.Machine.execDoRepeat e f s
  | .reti e f => Sys2Proof.Machine.execReti e f s
  | .tend e f => Sys2Proof.Machine.execTend e f s
  | .srb e f => Sys2Proof.Machine.execSrb e f s
  | .ssc e f => Sys2Proof.Machine.execSsc e f s
  | .add e f => Sys2Proof.Machine.execAdd e f s
  | .sub e f => Sys2Proof.Machine.execSub e f s
  | .and e f => Sys2Proof.Machine.execAnd e f s
  | .or e f => Sys2Proof.Machine.execOr e f s
  | .xor e f => Sys2Proof.Machine.execXor e f s
  | .mov e f => Sys2Proof.Machine.execMov e f s
  | .not e f => Sys2Proof.Machine.execNot e f s
  | .neg e f => Sys2Proof.Machine.execNeg e f s
  | .asr e f => Sys2Proof.Machine.execAsr e f s
  | .lsr e f => Sys2Proof.Machine.execLsr e f s
  | .lsl e f => Sys2Proof.Machine.execLsl e f s
  | .min e f => Sys2Proof.Machine.execMin e f s
  | .max e f => Sys2Proof.Machine.execMax e f s
  | .abs e f => Sys2Proof.Machine.execAbs e f s
  | .cmp e f => Sys2Proof.Machine.execCmp e f s
  | .addi e f => Sys2Proof.Machine.execAddi e f s
  | .subi e f => Sys2Proof.Machine.execSubi e f s
  | .andi e f => Sys2Proof.Machine.execAndi e f s
  | .ori e f => Sys2Proof.Machine.execOri e f s
  | .xori e f => Sys2Proof.Machine.execXori e f s
  | .movi e f => Sys2Proof.Machine.execMovi e f s
  | .movh e f => Sys2Proof.Machine.execMovh e f s
  | .cmpi e f => Sys2Proof.Machine.execCmpi e f s
  | .asri e f => Sys2Proof.Machine.execAsri e f s
  | .lsri e f => Sys2Proof.Machine.execLsri e f s
  | .lsli e f => Sys2Proof.Machine.execLsli e f s
  | .clr e f => Sys2Proof.Machine.execClr e f s
  | .adda e f => Sys2Proof.Machine.execAdda e f s
  | .suba e f => Sys2Proof.Machine.execSuba e f s
  | .nega e f => Sys2Proof.Machine.execNega e f s
  | .mova e f => Sys2Proof.Machine.execMova e f s
  | .smov e f => Sys2Proof.Machine.execSmov e f s
  | .xtoa e f => Sys2Proof.Machine.execXtoa e f s
  | .rdp e f => Sys2Proof.Machine.execRdp e f s
  | .wrp e f => Sys2Proof.Machine.execWrp e f s
  | .expa e f => Sys2Proof.Machine.execExpa e f s
  | .expx e f => Sys2Proof.Machine.execExpx e f s
  | .norm e f => Sys2Proof.Machine.execNorm e f s
  | .norma e f => Sys2Proof.Machine.execNorma e f s
  | .ld e bus f => Sys2Proof.Machine.execLd e bus f s
  | .st e bus f => Sys2Proof.Machine.execSt e bus f s
  | .sts e bus f => Sys2Proof.Machine.execSts e bus f s
  | .lda e bus f => Sys2Proof.Machine.execLda e bus f s
  | .ldr e f => Sys2Proof.Machine.execLdr e f s
  | .addr e f => Sys2Proof.Machine.execAddr e f s
  | .mvxr e f => Sys2Proof.Machine.execMvxr e f s
  | .mvrx e f => Sys2Proof.Machine.execMvrx e f s
  | .mvs e f => Sys2Proof.Machine.execMvs e f s
  | .msv e f => Sys2Proof.Machine.execMsv e f s
  | .srchs e f => Sys2Proof.Machine.execSrchs e f s
  | .maxi e f => Sys2Proof.Machine.execMaxi e f s
  | .mini e f => Sys2Proof.Machine.execMini e f s
  | .dualMac e f => Sys2Proof.Machine.execDualMac e f s
  | .pushq e f => Sys2Proof.Machine.execPushq e f s
  | .dmago e f => Sys2Proof.Machine.execDmago e f s
  | .dmawt e f => Sys2Proof.Machine.execDmawt e f s
  | .dmast e f => Sys2Proof.Machine.execDmast e f s
  | .dmaDescriptorEnd e c => Sys2Proof.Machine.execDmaDescriptorEnd e c s
  | .interruptAccept e => Sys2Proof.Machine.execInterruptAccept e s
  | .taskEnd e => Sys2Proof.Machine.execTaskEnd e s
  | .peEnable r e => Sys2Proof.Machine.execPeEnable r e s
  | .peDisable r e => Sys2Proof.Machine.execPeDisable r e s
  | .peClear r e => Sys2Proof.Machine.execPeClear r e s
  | .peMemDataWrite r e p => Sys2Proof.Machine.execPeMemDataWrite r e p s
  | .peMemDataRead r e => Sys2Proof.Machine.execPeMemDataRead r e s
  | .taskPost r => Sys2Proof.Machine.execTaskPost r s
  | .cancel r => Sys2Proof.Machine.execCancel r s
  | .taskDisable r => Sys2Proof.Machine.execTaskDisable r s
  | .taskEnable r => Sys2Proof.Machine.execTaskEnable r s
  | .dispatch e => Sys2Proof.Machine.execDispatch e s
  | .preemptionRequest e => Sys2Proof.Machine.execPreemptionRequest e s
  | .failFwd k => Sys2Proof.Machine.execFailFwd k s
  | .hostNote k => Sys2Proof.Machine.execHostNote k s
  | .starterTick => Sys2Proof.Machine.execStarterTick s
  | .delayExpiry task => Sys2Proof.Machine.execDelayExpiry task s
  | .periodExpiry task => Sys2Proof.Machine.execPeriodExpiry task s
  | .engLoadWindow => Sys2Proof.Machine.execEngLoadWindow s
  | .push src => Sys2Proof.Machine.execPush src s
  | .qRead r delivered => Sys2Proof.Machine.execQRead r delivered s
  | .qClear r p => Sys2Proof.Machine.execQClear r p s
  | .hitClear r sites p => Sys2Proof.Machine.execHitClear r sites p s
  | .timeTick tref => Sys2Proof.Machine.execTimeTick tref s
  | .tdIncWrite r d ppb p => Sys2Proof.Machine.execTdIncWrite r d ppb p s
  | .tdOffsetWrite r d fs p => Sys2Proof.Machine.execTdOffsetWrite r d fs p s
  | .tdSetWrite r d p => Sys2Proof.Machine.execTdSetWrite r d p s
  | .timeActiveSelWrite r p => Sys2Proof.Machine.execTimeActiveSelWrite r p s
  | .timerFire t => Sys2Proof.Machine.execTimerFire t s
  | .timerMiss t => Sys2Proof.Machine.execTimerMiss t s
  | .tmrWrite r t sub p => Sys2Proof.Machine.execTmrWrite r t sub p s
  | .ptpEventRx port m => Sys2Proof.Machine.execPtpEventRx port m s
  | .ptpEventTx port m => Sys2Proof.Machine.execPtpEventTx port m s
  | .announceReceiptTimeout d => Sys2Proof.Machine.execAnnounceReceiptTimeout d s
  | .relayTrain r => Sys2Proof.Machine.execRelayTrain r s
  | .relayTrainComplete code position members hopFs offsetFs rtt count chOp => Sys2Proof.Machine.execRelayTrainComplete code position members hopFs offsetFs rtt count chOp s
  | .relayDown r => Sys2Proof.Machine.execRelayDown r s
  | .relayFrameSend => Sys2Proof.Machine.execRelayFrameSend s
  | .relayFrameReceive f => Sys2Proof.Machine.execRelayFrameReceive f s
  | .relayFrameMissing => Sys2Proof.Machine.execRelayFrameMissing s
  | .rlyStartSend r p => Sys2Proof.Machine.execRlyStartSend r p s
  | .rlyEventSend r p => Sys2Proof.Machine.execRlyEventSend r p s
  | .rlyJumpSend r p => Sys2Proof.Machine.execRlyJumpSend r p s
  | .relayStart => Sys2Proof.Machine.execRelayStart s
  | .relayEvent => Sys2Proof.Machine.execRelayEvent s
  | .relayJump => Sys2Proof.Machine.execRelayJump s
  | .relayFail => Sys2Proof.Machine.execRelayFail s
  | .flagResult => Sys2Proof.Machine.execFlagResult s
  | .jtxEnWrite r p => Sys2Proof.Machine.execJtxEnWrite r p s
  | .jrxEnWrite r p => Sys2Proof.Machine.execJrxEnWrite r p s
  | .linkClockReady d devclkHz => Sys2Proof.Machine.execLinkClockReady d devclkHz s
  | .sysrefEdge edge on => Sys2Proof.Machine.execSysrefEdge edge on s
  | .rxLaneLock => Sys2Proof.Machine.execRxLaneLock s
  | .rxLinkLost => Sys2Proof.Machine.execRxLinkLost s
  | .devclkLost => Sys2Proof.Machine.execDevclkLost s
  | .jtxArm r => Sys2Proof.Machine.execJtxArm r s
  | .jtxArmComplete => Sys2Proof.Machine.execJtxArmComplete s
  | .jtxStart r => Sys2Proof.Machine.execJtxStart r s
  | .jtxStop r => Sys2Proof.Machine.execJtxStop r s
  | .sourceSample => Sys2Proof.Machine.execSourceSample s
  | .jtxNcoFtwWrite r hz p => Sys2Proof.Machine.execJtxNcoFtwWrite r hz p s
  | .jrxStart r => Sys2Proof.Machine.execJrxStart r s
  | .jrxStop r => Sys2Proof.Machine.execJrxStop r s
  | .rxSample vals crcErrs => Sys2Proof.Machine.execRxSample vals crcErrs s
  | .calSlot slot found => Sys2Proof.Machine.execCalSlot slot found s
  | .tempReading g reading => Sys2Proof.Machine.execTempReading g reading s
  | .calMove slot path => Sys2Proof.Machine.execCalMove slot path s
  | .calStall n => Sys2Proof.Machine.execCalStall n s
  | .sysCalRecWrite r k p => Sys2Proof.Machine.execSysCalRecWrite r k p s
  | .sysCalRecRead r k => Sys2Proof.Machine.execSysCalRecRead r k s
  | .faultReport fid => Sys2Proof.Machine.execFaultReport fid s
  | .fltinActivation n cycle => Sys2Proof.Machine.execFltinActivation n cycle s
  | .reactionStart => Sys2Proof.Machine.execReactionStart s
  | .reactionWindowClose => Sys2Proof.Machine.execReactionWindowClose s
  | .classCNotify => Sys2Proof.Machine.execClassCNotify s
  | .fltStickyClear r p => Sys2Proof.Machine.execFltStickyClear r p s
  | .fltRelease r p => Sys2Proof.Machine.execFltRelease r p s
  | .secKekWrite r k p => Sys2Proof.Machine.execSecKekWrite r k p s
  | .skLoad r slot p => Sys2Proof.Machine.execSkLoad r slot p s
  | .skClear r slot p => Sys2Proof.Machine.execSkClear r slot p s
  | .secOfficerKeyWrite r k p => Sys2Proof.Machine.execSecOfficerKeyWrite r k p s
  | .secOfficerRevoke r p => Sys2Proof.Machine.execSecOfficerRevoke r p s
  | .secAnchorRevoke r p => Sys2Proof.Machine.execSecAnchorRevoke r p s
  | .secMinLevelSet r p => Sys2Proof.Machine.execSecMinLevelSet r p s
  | .secDiagLoad r p => Sys2Proof.Machine.execSecDiagLoad r p s
  | .secSelftest r p failing => Sys2Proof.Machine.execSecSelftest r p failing s
  | .zeroiseVolatile r => Sys2Proof.Machine.execZeroiseVolatile r s
  | .zeroisePermanent r => Sys2Proof.Machine.execZeroisePermanent r s
  | .certModeEnter r => Sys2Proof.Machine.execCertModeEnter r s
  | .certModeLeave r => Sys2Proof.Machine.execCertModeLeave r s
  | .sealedTagVerify g => Sys2Proof.Machine.execSealedTagVerify g s
  | .porstN => Sys2Proof.Machine.execPorstN s
  | .sysrstN => Sys2Proof.Machine.execSysrstN s
  | .resetCmd r p => Sys2Proof.Machine.execResetCmd r p s
  | .startUpStepEnd ok failing => Sys2Proof.Machine.execStartUpStepEnd ok failing s
  | .bootStageWrite r offset total data => Sys2Proof.Machine.execBootStageWrite r offset total data s
  | .bootCmd r p => Sys2Proof.Machine.execBootCmd r p s
  | .extest cells => Sys2Proof.Machine.execExtest cells s
  | .samplePreload cells => Sys2Proof.Machine.execSamplePreload cells s
  | .idcode => Sys2Proof.Machine.execIdcode s
  | .extestPulse cells => Sys2Proof.Machine.execExtestPulse cells s
  | .extestTrain cells => Sys2Proof.Machine.execExtestTrain cells s
  | .startStat => Sys2Proof.Machine.execStartStat s
  | .bypass code => Sys2Proof.Machine.execBypass code s
  | .tapReset => Sys2Proof.Machine.execTapReset s
  | .verdictInstant k => Sys2Proof.Machine.execVerdictInstant k s
  | .faultConditionEnd fid => Sys2Proof.Machine.execFaultConditionEnd fid s
  | .ethLinkUp port fec => Sys2Proof.Machine.execEthLinkUp port fec s
  | .ethFrameRx port f => Sys2Proof.Machine.execEthFrameRx port f s
  | .ptpGeneralRx port d m => Sys2Proof.Machine.execPtpGeneralRx port d m s
  | .mr4Poll u doubled => Sys2Proof.Machine.execMr4Poll u doubled s
  | .vqpsPresenceChange uv => Sys2Proof.Machine.execVqpsPresenceChange uv s

end Sys2Proof.Machine
end

