-- ==== Sys2Proof/Safety.lean ====
section
/-! DEFINITION. What counts as a safe run, and the terms in which statements are made: that a command completes with
a property of the next state, that the gate admits a request, that an engine stands ready to issue a word, and what
each kind of command may change. -/
namespace Sys2Proof.Machine

/-! ### Runs -/

/-- A command answers a next state that has a property. -/
def Reaches (c : Instr) (s : State) (P : State → Prop) : Prop := ∃ t, exec c s = .next t ∧ P t

/-- The structural invariant: DRAM's list of bytes stands in its canonical form, and at most eight
sessions are open (R365). -/
def Inv (s : State) : Prop := Mem.wf s.dram.mem ∧ s.sessions.length ≤ 8

/-- Every byte of DRAM outside `n` bytes from an address reads as before. -/
def MemElsewhere (a n : Nat) (s t : State) : Prop := ∀ x, x < a ∨ a + n ≤ x → memByte x t = memByte x s

/-- Every object but those listed reads as before. -/
def ObjsBut (keys : List Nat) (s t : State) : Prop := ∀ k, k ∉ keys → rd k t = rd k s

/-- Every sequencer but those listed stands as it was. -/
def SeqsBut (ks : List Nat) (s t : State) : Prop := ∀ k, k ∉ ks → seq k t = seq k s

/-- Every channel group but those listed stands as it was. -/
def GrpsBut (gs : List Nat) (s t : State) : Prop := ∀ g, g ∉ gs → grp g t = grp g s

/-- The SEQCLK edges at which a host command of now can reach a sequencer: 3 to 5 cycles on (R10). -/
def Crosses (s : State) (u : Nat) : Prop :=
  ∃ d, d < 3 ∧ u = nextSeqclk (s.now + 3 * 2048) + d * 2048 ∧ u ≤ s.now + 5 * 2048

/-- No jump request is pending at a sequencer or on its way to it. -/
def NoRequest (g : Nat) (s : State) : Prop := (seq g s).jumps = [] ∧ rd (K.jtPending g) s = 0xFF

/-- No source plays for a gang, and none is about to. -/
def SourceIdle (g : Nat) (s : State) : Prop :=
  16 ≤ rd K.jtxGroup s ∨ leader (rd K.jtxGroup s) s ≠ g ∨ (rd K.jtxPlay s ≠ 2 ∧ s.jtx.startAt = none)

/-- What a gang fetched for a run is dropped, a staged base period takes effect, each member holds or leaves the levels it
entered from OFF as said, and in HALTED the ring writer wraps no more (R40, R69, R138, R162). -/
def GroupsLeave (g : Nat) (off : Nat → Bool) (s t : State) : Prop :=
  (∀ m ∈ members g s,
    grp m t = { grp m s with grans := [], fetches := [], blockErrs := [], baseStaged := none, fromOff := off m
                             noWrap := (grp m s).noWrap || decide (runState m t = 5 ∨ runState m t = 6) } ∧
    rd (K.cgBasePeriodAct m) t =
      (match (grp m s).baseStaged with | some v => v.1 | none => rd (K.cgBasePeriodAct m) s)) ∧
  GrpsBut (members g s) s t

/-- A gang that is in no run: `GroupsLeave`, and its sequencer holds no range, head, load or request any more. -/
def LeavesRun (g : Nat) (off : Nat → Bool) (s t : State) : Prop :=
  GroupsLeave g off s t ∧ (seq g t).queue = [] ∧ (seq g t).heads = [] ∧ (seq g t).live = false ∧ (seq g t).load = none ∧
  (seq g t).jumps = [] ∧ (seq g t).cur = none ∧ (seq g t).stopped = none ∧ SeqsBut [g] s t

/-- The objects of a gang's base period that take effect (R40). -/
def baseKeys (g : Nat) (s : State) : List Nat :=
  (members g s).map K.cgBasePeriodAct ++ (members g s).map K.cgBasePending

/-- Only objects may have changed, and of them only those listed. -/
def OnlyObjs (keys : List Nat) (s t : State) : Prop := t = { s with objs := t.objs } ∧ ObjsBut keys s t

/-! ### Requests (R363, R364, R367) -/

/-- The gate admits a request of session x to its object checks: the port receives and the frame fits, VER is 1, the
binding and the identifier name x, its protection holds, and SEQ lies in the window and has not been executed. -/
def Admitted (r : Req) (op key : Nat) (p : Bytes) (x : Session) (s : State) : Prop :=
  portOpen r.port s = true ∧ frameBytes r p s ≤ mtu r.port s ∧ r.ver = 1 ∧
  s.sessions.find? (bound r) = some x ∧ session x.id s = some x ∧ frameOk x r op key p = true ∧
  -63 ≤ seqDiff r x ∧ seqDiff r x ≤ 64 ∧ (0 < seqDiff r x ∨ recordOf r.seq x = none)

/-- The latest answer of the block is the one to a request, with a status. -/
def Answers (r : Req) (op status : Nat) (t : State) : Prop :=
  ∃ f, t.baton.answer = some f ∧ f.op = 128 + op ∧ f.session = r.session ∧ f.seq = r.seq ∧ f.status = status

/-- A session as it was but for what every request moves: its latest request, its sequence record and its counters
of protected frames (R366, R367, R398). -/
def Carries (x y : Session) : Prop :=
  y = { x with last := y.last, h := y.h, recs := y.recs, ctrHigh := y.ctrHigh, ctrSeen := y.ctrSeen, ctrTx := y.ctrTx }

/-- What every request of a session moves beside its own effect: the answer sent, and its session's record. -/
def HostFrame (x : Session) (s t : State) : Prop :=
  t.baton = { s.baton with answer := t.baton.answer } ∧ (∀ i, i ≠ x.id → session i t = session i s) ∧
  ∃ y, session x.id t = some y ∧ Carries x y

/-- An admitted request of a session that has at least a role, and SES_EXPERT where asked, to an object that exists in
a state that meets a condition: the command answers with status OK, and the next state has a property. -/
def HostDoes (c : Req → Instr) (op key : Nat) (p : Bytes) (role : Nat) (expert : Bool)
    (pre : Session → State → Prop) (post : Session → State → State → Prop) : Prop :=
  ∀ (r : Req) (x : Session) (s : State), Admitted r op key p x s → indexExists key s = true → role ≤ x.role →
    (expert = true → x.expert = true) → pre x s → Reaches (c r) s (fun t => Answers r op Code.ok t ∧ post x s t)

/-- An admitted request to an object that exists, refused with a status in a state that meets a condition: apart from
the session's own record and the answer nothing changes. -/
def HostRefuses (c : Req → Instr) (op key : Nat) (p : Bytes) (role : Nat) (expert : Bool) (status : Nat)
    (pre : Session → State → Prop) : Prop :=
  ∀ (r : Req) (x : Session) (s : State), Admitted r op key p x s → indexExists key s = true → role ≤ x.role →
    (expert = true → x.expert = true) → pre x s → Reaches (c r) s (fun t => Answers r op status t ∧
      t = { s with sessions := t.sessions, baton := t.baton } ∧ HostFrame x s t)

/-- Beside objects, the session's record and the answer nothing has changed, and of the objects only those listed. -/
def HostObjs (keys : List Nat) (x : Session) (s t : State) : Prop :=
  t = { s with objs := t.objs, sessions := t.sessions, baton := t.baton } ∧ HostFrame x s t ∧ ObjsBut keys s t

/-- Beside objects, sequencers, the counter of free values, the session's record and the answer nothing has changed, and
of the objects and the sequencers only those listed. -/
def HostSeqs (keys ks : List Nat) (x : Session) (s t : State) : Prop :=
  t = { s with objs := t.objs, seqs := t.seqs, free := t.free, sessions := t.sessions, baton := t.baton } ∧
  HostFrame x s t ∧ ObjsBut keys s t ∧ SeqsBut ks s t

/-- An object takes a value, and nothing else changes. -/
def HostSets (key v : Nat) (x : Session) (s t : State) : Prop := rd key t = v ∧ HostObjs [key] x s t

/-- A request changes its own session as stated and nothing else. -/
def HostSession (x : Session) (post : Session → Prop) (s t : State) : Prop :=
  t = { s with sessions := t.sessions, baton := t.baton } ∧ t.baton = { s.baton with answer := t.baton.answer } ∧
  (∀ i, i ≠ x.id → session i t = session i s) ∧ ∃ y, session x.id t = some y ∧ post y

/-- What a session outside authentication receives as the payload of its answer (R361). -/
def Receives (x : Session) (data : Bytes) (t : State) : Prop :=
  x.auth = false → ∃ f, t.baton.answer = some f ∧ f.data = data

/-- The numeric objects whose write only stores the value, as base index, instances, first subindex and subindexes. -/
def plainObjs : List (Nat × Nat × Nat × Nat) := [
  (0x3000, 16, 0x20, 16), (0x3100, 256, 0x20, 1), (0x3100, 256, 0x22, 1), (0x3200, 8, 0x08, 1), (0x3200, 8, 0x09, 1),
  (0x4000, 16, 0x05, 1), (0x4000, 16, 0x06, 1), (0x4000, 16, 0x08, 2), (0x4000, 16, 0x10, 1), (0x4000, 16, 0x1A, 2),
  (0x4000, 16, 0x20, 2), (0x4100, 256, 0x01, 4), (0x4200, 64, 0x01, 1), (0x2040, 16, 0x10, 16), (0x2040, 16, 0x20, 4),
  (0x2000, 16, 0x25, 2), (0x2000, 16, 0x2A, 1), (0x2060, 16, 0x01, 16), (0x2060, 16, 0x11, 1), (0x2080, 8, 0x06, 1),
  (0x2090, 8, 0x02, 4), (0x7000, 1, 0x10, 2), (0x7000, 1, 0x18, 1), (0x5000, 16, 0x09, 1), (0x6040, 1, 0x0E, 1),
  (0x8000, 1, 0x02, 1), (0x8010, 2, 0x0A, 2), (0x8010, 2, 0x21, 12), (0x8020, 4, 0x01, 3), (0x8040, 16, 0x07, 2),
  (0x9000, 1, 0x15, 1), (0x9000, 1, 0x18, 1), (0xA000, 1, 0x01, 1), (0xA010, 1, 0x07, 3), (0xA020, 1, 0x08, 2),
  (0xB000, 1, 0x02, 1), (0xC000, 1, 0x07, 2), (0xC010, 4, 0x04, 1), (0x1000, 1, 0x02, 3),
  (0x1010, 4, 0x0A, 1)]

/-- Whether an object is one of them. -/
def plainObj (key : Nat) : Bool :=
  plainObjs.any (fun r => r.1 ≤ key / 256 && key / 256 < r.1 + r.2.1 && r.2.2.1 ≤ key % 256 && key % 256 < r.2.2.1 + r.2.2.2)

/-- A command changes one session as stated, may send one NOTIFY, and changes nothing else. -/
def SessionMoves (id : BitVec 16) (post : Session → Prop) (s t : State) : Prop :=
  t = { s with sessions := t.sessions, baton := t.baton } ∧ t.baton = { s.baton with notify := t.baton.notify } ∧
  (∀ i, i ≠ id → session i t = session i s) ∧ ∃ y, session id t = some y ∧ post y

/-- The machine with an answer to a request sent and nothing else changed. -/
def answered (r : Req) (op key status : Nat) (data : Bytes) (s : State) : State :=
  { s with baton := { s.baton with
      answer := some { op := 128 + op, session := r.session, seq := r.seq, key, status, data } } }

/-! ### Channels (R34, R350) -/

/-- Every channel unit but one stands as it was. -/
def ChansBut (n : Nat) (s t : State) : Prop := ∀ m, m ≠ n → chan m t = chan m s

/-- A channel unit enters the safe state at the first Tref edge from an instant: DEN off, DRV to its level 4 Tref
later, and no edge or window of before left (R350). -/
def entersSafeFrom (at_ : Nat) (c : Chan) : Chan :=
  { c with
    sched := [{ t := nextTref at_, cyc := 0, gen := 8, vec := 0, act := .safeDen },
              { t := nextTref at_ + 4096, cyc := 0, gen := 8, vec := 0, act := .safeDrv }]
    win := [], tdcH := [], tdcL := [] }

/-! ### Instruction units (R100–R106, R132, R133) -/

/-- The IU of sequencer k executes a word next, and a word with a routine follows it. -/
def IuReady (k op : Nat) (w : SeqWord) (s : State) : Prop :=
  iuOk k op w s = true ∧ ∃ v, codeAt k (pcOf k s + 1) s = some v ∧ hasRoutine k (v / 2 ^ 56) s = true ∧ pcOf k s + 1 < 65536

/-- Outside one sequencer and the objects listed nothing has changed. -/
def SeqFrame (k : Nat) (keys : List Nat) (s t : State) : Prop :=
  t = { s with objs := t.objs, seqs := t.seqs } ∧ (∀ m, m ≠ k → seq m t = seq m s) ∧ ObjsBut keys s t

/-- An instruction of a cost in cycles has executed: the sequencer is `q` but for that time, and the PC stands at an
instruction. -/
def IuGoes (k cost pc : Nat) (q : Seq) (keys : List Nat) (s t : State) : Prop :=
  seq k t = { q with iuAt := (seq k s).iuAt + cost * 2048 } ∧ rd (K.seqPc k) t = pc ∧ SeqFrame k (K.seqPc k :: keys) s t

/-- An instruction of a cost in cycles ends in a sequence error: recorded with its place where it is the run's first, and the
IU ends (R132, R133). -/
def IuFails (k cost code : Nat) (s t : State) : Prop :=
  seq k t = { seq k s with iuAt := (seq k s).iuAt + cost * 2048, ending := some .seqErr, wait := .none } ∧
  (rd (K.seqErr k) s = 0 → rd (K.seqErr k) t = 2 ^ 31 + (if filling k s then 0 else 2 ^ 28) + code ∧
    rd (K.seqErrPc k) t = pcOf k s % 65536 ∧ rd (K.seqErrSeg k) t = 4096 * rawPage (seq k s).page) ∧
  (rd (K.seqErr k) s ≠ 0 → ObjsBut [] s t) ∧ SeqFrame k [K.seqErr k, K.seqErrPc k, K.seqErrSeg k] s t

/-- The refill engines may have requested more: the fetches and caches of groups, and requests at the controller behind
those that waited. -/
def Refilled (s t : State) : Prop :=
  t.dram = { s.dram with reqs := t.dram.reqs } ∧ s.dram.reqs <+: t.dram.reqs ∧
  ∀ g, grp g t = { grp g s with grans := (grp g t).grans, fetches := (grp g t).fetches }

/-- Outside one sequencer, the objects listed and the refill engines nothing has changed. -/
def SeqFetchFrame (k : Nat) (keys : List Nat) (s t : State) : Prop :=
  t = { s with objs := t.objs, seqs := t.seqs, grps := t.grps, dram := t.dram } ∧ Refilled s t ∧
  (∀ m, m ≠ k → seq m t = seq m s) ∧ ObjsBut keys s t

/-- An instruction of a cost in cycles has issued a range from a play pointer: it stands last in the queue, ready four
cycles after the IU has issued it, and the play pointer stands behind it (R100, R101, R108). -/
def Issues (k cost first count reps : Nat) (kind : RangeKind) (s t : State) : Prop :=
  let q := seq k s
  let at_ := max (q.iuAt + cost * 2048) q.freedAt
  ∃ r, (seq k t).queue = q.queue ++ [r] ∧ r.page = q.page ∧ r.first = first ∧ r.count = count ∧ r.reps = reps ∧
    r.kind = kind ∧ r.entry = q.entry ∧ r.marks = q.marks ∧ r.ready = (if filling k s then 0 else at_ + 8192) ∧
    (seq k t).iuAt = at_ ∧ (seq k t).ptr = first + count ∧ (seq k t).entry = 0 ∧ (seq k t).marks = [] ∧
    (seq k t).page = q.page ∧ (seq k t).calls = q.calls ∧ (seq k t).wait = .none ∧ (seq k t).ending = none ∧
    (seq k t).cur = q.cur ∧ (seq k t).nextAt = q.nextAt ∧ rd (K.seqPc k) t = pcOf k s + 1 ∧ SeqFetchFrame k [K.seqPc k] s t

/-- The IU has entered a segment, by its latest load where one is held, at an instruction and a play pointer, at a cost of
three cycles; it goes on, or waits for the segment's head (R105, R113, R114). -/
def Enters (k page pc ptr entry : Nat) (calls : List CallLvl) (s t : State) : Prop :=
  let q := seq k t
  q.page = keyOf k page s ∧ q.ptr = ptr ∧ q.entry = entry ∧ q.calls = calls ∧ q.loops = (seq k s).loops ∧ q.pre = none ∧
  q.iuAt = (seq k s).iuAt + 3 * 2048 ∧ q.queue = (seq k s).queue ∧ (q.wait = .none ∨ q.wait = .head page) ∧
  rd (K.seqPc k) t = pc ∧ SeqFetchFrame k [K.seqPc k, K.seqErr k, K.seqErrPc k, K.seqErrSeg k] s t

/-! ### Pacer engines (R209, R226–R232, R245) -/

/-- An engine as the instruction at PC issues: with what its second port has moved by then (R258), and with SR back from
ISR where a RETI has led to it (R234). -/
def peNow (e : Nat) (s : State) : Pe := (pe e (dmaMoves e s)).resumed

/-- An engine issues a word next: BUSY with the word at PC, with nothing to wait for and a SCALE within its range. -/
def PeIssues (e : Nat) (w : Word) (s : State) : Prop :=
  runsWord e w s = true ∧ scaleOk (srScale (peNow e s).sr) = true ∧ ((pe e s).stalled = true → (pe e s).freeAt ≤ (pe e s).issue)

/-- An engine stands ready to issue a word: no branch and no write pending, PC not within the last three addresses of an
active body, no loop cache in force, and a defined word at the next address. -/
def PeReady (e : Nat) (w : Word) (s : State) : Prop :=
  PeIssues e w s ∧ (pe e s).branch = none ∧ (pe e s).late = [] ∧ (pe e s).stores = [] ∧
  (peNow e s).nearEnd = false ∧ (pe e s).cached = false ∧ (pe e s).pc.toNat + 1 < 0x4000 ∧
  wordDefined ((peNow e s).memWord 2 ((pe e s).pc.toNat + 1)) = true

/-- An engine after an instruction of a cost in cycles, whose own writes stand in it: PC at the next address. -/
def Pe.issued (cost : Nat) (q : Pe) : Pe :=
  { q with pc := BitVec.ofNat 14 (q.pc.toNat + 1), issue := q.issue + cost, cycl := q.cycl + cost
           window := q.window + cost, pos := q.pos + 1, stalled := false }

/-- Outside an engine nothing has changed but its PE_CYCLES and the counter of free values, of which the instruction draws
one only where asked. -/
def PeFrame (e cost : Nat) (draws : Bool) (s t : State) : Prop :=
  t = { s with pes := t.pes, objs := t.objs, free := t.free } ∧ (draws = false → t.free = (dmaMoves e s).free) ∧
  (∀ n, n ≠ e → pe n t = pe n s) ∧ ObjsBut [K.peCycles e] s t ∧
  rd (K.peCycles e) t = (rd (K.peCycles e) s + cost) % 2 ^ 64

/-- An ordinary instruction has issued: the engine holds its writes `q` and goes on. -/
def PeStep (e cost : Nat) (q : Pe) (s t : State) : Prop := pe e t = q.issued cost ∧ PeFrame e cost false s t

/-- SR with Z, N, C and V of a result, and every other bit as it was (R214). -/
def SetsZNCV (r : Word) (c v : Bool) (old new : Word) : Prop :=
  new.getLsbD 0 = (r == 0#32) ∧ new.getLsbD 1 = r.msb ∧ new.getLsbD 2 = c ∧ new.getLsbD 3 = v ∧
  ∀ i, 4 ≤ i → new.getLsbD i = old.getLsbD i

/-- A register operation of class 0x1 with its result, C and V (R245). -/
def RegAlu (c : Fin 16 → BitVec 24 → Instr) (op rsv : Nat) (res : Word → Word → Word) (cf vf : Word → Word → Bool) : Prop :=
  ∀ (e : Fin 16) (f : BitVec 24) (s : State), PeReady e (peWord 1 op f) s → f.toNat &&& rsv = 0 →
    let p := peNow e s
    let a := p.xr (fld f.toNat 18 3)
    let b := p.xr (fld f.toNat 15 3)
    Reaches (c e f) s (fun t => ∃ sr, SetsZNCV (res a b) (cf a b) (vf a b) p.sr sr ∧
      PeStep e 1 { p.setX (fld f.toNat 21 3) (res a b) with sr } s t)

/-- An immediate operation of class 0x2 on Xd and IMM with its result, C and V (R246). -/
def ImmAlu (c : Fin 16 → BitVec 24 → Instr) (op rsv : Nat) (res : Word → BitVec 16 → Word)
    (cf vf : Word → BitVec 16 → Bool) : Prop :=
  ∀ (e : Fin 16) (f : BitVec 24) (s : State), PeReady e (peWord 2 op f) s → f.toNat &&& rsv = 0 →
    let p := peNow e s
    let a := p.xr (fld f.toNat 21 3)
    let i := f.extractLsb' 0 16
    Reaches (c e f) s (fun t => ∃ sr, SetsZNCV (res a i) (cf a i) (vf a i) p.sr sr ∧
      PeStep e 1 { p.setX (fld f.toNat 21 3) (res a i) with sr } s t)

/-- Signed overflow of an exact result: it does not fit 32 bits. -/
def overflows (v : Int) : Bool := v < -(2 ^ 31) || 2 ^ 31 ≤ v

/-- An instruction of an engine whose writes a function of the engine gives. -/
def PeDoes (c : Fin 16 → BitVec 24 → Instr) (w : BitVec 24 → Word) (rsv cost : Nat) (pre : Pe → BitVec 24 → Prop)
    (q : Pe → BitVec 24 → Pe) : Prop :=
  ∀ (e : Fin 16) (f : BitVec 24) (s : State), PeReady e (w f) s → f.toNat &&& rsv = 0 → pre (peNow e s) f →
    Reaches (c e f) s (PeStep e cost (q (peNow e s) f) s)


/-- An accumulator written with an exact result: within 72 bits as it is, otherwise clamped or, under WRAP, wrapped, with
AOV set; Z, N and E of what was written; every other bit of SR as it was (R214, R217). -/
def AccGets (n : Nat) (v : Int) (old : Word) (a : Acc) (sr : Word) : Prop :=
  let fits := -(2 ^ 71) ≤ v ∧ v < 2 ^ 71
  (fits → a.toInt = v) ∧ (¬ fits → old.getLsbD 18 = true → a = BitVec.ofInt 72 v) ∧
  (¬ fits → old.getLsbD 18 = false → a.toInt = if v < 0 then -(2 ^ 71) else 2 ^ 71 - 1) ∧
  sr.getLsbD 0 = (a == 0#72) ∧ sr.getLsbD 1 = a.msb ∧ sr.getLsbD 4 = decide (a.toInt < -(2 ^ 63) ∨ 2 ^ 63 ≤ a.toInt) ∧
  sr.getLsbD (28 + n) = (old.getLsbD (28 + n) || !decide fits) ∧
  ∀ i, i ≠ 0 → i ≠ 1 → i ≠ 4 → i ≠ 28 + n → sr.getLsbD i = old.getLsbD i

/-- An operation of class 0x3 that writes an exact result to An (R247). -/
def AccOp (c : Fin 16 → BitVec 24 → Instr) (op rsv : Nat) (v : Pe → Nat → Int) : Prop :=
  ∀ (e : Fin 16) (f : BitVec 24) (s : State), PeReady e (peWord 3 op f) s → f.toNat &&& rsv = 0 →
    let p := peNow e s
    let n := fld f.toNat 22 2
    Reaches (c e f) s (fun t => ∃ a sr, AccGets n (v p f.toNat) p.sr a sr ∧ PeStep e 1 { p.setAc n a with sr } s t)

/-- An engine whose task is none stops with a program error at an instruction none of whose predecessors has a write
pending (R235). -/
def PeStops (e code : Nat) (s t : State) : Prop :=
  let u := raiseFault (130 + 4 * e) (dmaMoves e s)
  rd (K.peErr e) t = 2 ^ 31 + code ∧ rd (K.peErrPc e) t = (pe e s).pc.toNat ∧ rd (K.peState e) t = 3 ∧
  pe e t = { peNow e s with branch := none, tended := none, stalled := false, req := false } ∧
  (∀ n, n ≠ e → pe n t = pe n s) ∧ t = { u with objs := t.objs, pes := t.pes } ∧
  ObjsBut [K.peErr e, K.peErrPc e, K.peState e, K.engPreemptPending e, K.engTask e] u t

/-- An engine issues a word next, with no write pending and no task recorded. -/
def PeAt (e : Nat) (w : Word) (s : State) : Prop :=
  PeIssues e w s ∧ (pe e s).late = [] ∧ (pe e s).stores = [] ∧ taskOf e s = 0xFFFF

end Sys2Proof.Machine
end

