-- ==== Sys2Proof/Certificates/Slice0/Obligations.lean ====
section
/-! DEFINITION. The statements for the provers. Each docstring names the rule of spec/ that a statement formalises or
rests on. -/
open Sys2Proof Sys2Proof.Machine

/-! ### The block as a whole -/

/-- A step takes the command at the front of the queue and runs it on the state with the queue's rest. -/
def Obligations.StepTakesFront : Prop :=
  ∀ (c : Instr) (rest : List Instr) (s : State), s.pending = c :: rest → step s = exec c { s with pending := rest }

/-- Every command completes in every state: a command that finds nothing to act on changes nothing (assumption log 7).
With no command waiting the block idles (the model's choice, assumption log 1). -/
def Obligations.CommandsComplete : Prop :=
  (∀ (c : Instr) (s : State), ∃ t, exec c s = .next t) ∧
  (∀ s : State, s.pending = [] → step s = .next s)

/-- R138, R187, R374, R419: what the machine holds right after reset: START_STEP 1, every other object at its default, the
groups in OFF, the engines as R212 leaves them, DRAM reading as zeros, and no session. -/
def Obligations.ResetLeavesDefaults : Prop :=
  rd K.startStep State.reset = 1 ∧ (∀ k, k ≠ K.startStep → rd k State.reset = objDefault k) ∧
  (∀ g : Fin 16, rd (K.runState g) State.reset = 0 ∧ rd (K.cgBasePeriodAct g) State.reset = 0x1000 ∧
    rd (K.cgGang g) State.reset = g.val ∧ rd (K.capMode g) State.reset = 0 ∧ rd (K.peState g) State.reset = 0 ∧
    pe g State.reset = {} ∧ (pe g State.reset).si = 0xFFFFFFFF#32) ∧
  rd K.dramReady State.reset = 0 ∧ rd K.rlyState State.reset = 0 ∧ rd K.fltFenced State.reset = 0 ∧
  rd (K.ethMtu 0) State.reset = 1500 ∧ rd K.batonTimeoutS State.reset = 30 ∧
  (∀ a, memByte a State.reset = 0) ∧ State.reset.sessions = [] ∧ State.reset.pending = []

/-- The reset state meets the structural invariant. -/
def Obligations.ResetMeetsInvariant : Prop := Inv State.reset

/-- R187, R191, R364: every step keeps DRAM's bytes in canonical form and at most eight sessions open. -/
def Obligations.StepKeepsInvariant : Prop := ∀ s t : State, Inv s → step s = .next t → Inv t

/-- No command changes the commands that wait behind it: R370's requests are executed in the order of their arrival. -/
def Obligations.CommandsKeepTheQueue : Prop := ∀ (c : Instr) (s t : State), exec c s = .next t → t.pending = s.pending

/-! ### Baton (17) -/

/-- R371, R372, R373, R5: a WRITE of an object that no chapter gives a rule of its own stores the value without its rsv
bits; a W1C object loses the bits written 1. A READ of it gives the value held and changes nothing. -/
def Obligations.PlainObjectsStoreAndRead : Prop :=
  ∀ (index : BitVec 16) (sub : BitVec 8) (p : Bytes) (row : ObjRow),
    let key := index.toNat * 256 + sub.toNat
    plainObj key = true → objRow index.toNat sub.toNat = some row →
    HostDoes (.write · index sub p) opWrite key p 0 (decide (1 ≤ row.lev))
      (fun x s => roleOk x.role key row s = true ∧ row.ty.lengthOk p.length = true ∧ rangeOk row (leNat p) = true ∧
        wordRange key (valueOf row p) = true ∧ (row.acc = .rws → stopped key s = true) ∧ memberSeq key s = false)
      (fun x s t => HostSets key
        (if row.acc = .w1c then rd key s - (rd key s &&& valueOf row p) else valueOf row p) x s t) ∧
    HostDoes (.read · index sub []) opRead key [] 0 false (fun x s => row.ty.size ≤ answerMax x s)
      (fun x s t => Receives x (leBytes row.ty.size (rd key s)) t ∧ HostObjs [] x s t)

/-- R360, R363, R364, R367, R368, for a WRITE: what becomes of a request before its object is looked at.
R363, for a WRITE that the gate admits: the refusals by the object, in their order. -/
def Obligations.GateScreensRequests : Prop :=
  (∀ (r : Req) (index : BitVec 16) (sub : BitVec 8) (p : Bytes) (s : State),
      let key := index.toNat * 256 + sub.toNat
      let fits := frameBytes r p s ≤ mtu r.port s
      (portOpen r.port s = false → exec (.write r index sub p) s = .next s) ∧
      (portOpen r.port s = true → ¬ fits → Reaches (.write r index sub p) s (fun t =>
        OnlyObjs [K.batonBadFrames] s t ∧ rd K.batonBadFrames t = min (2 ^ 32 - 1) (rd K.batonBadFrames s + 1))) ∧
      (portOpen r.port s = true → fits → r.ver ≠ 1 →
        exec (.write r index sub p) s = .next (answered r opWrite key Code.version [] s)) ∧
      (portOpen r.port s = true → fits → r.ver = 1 → s.sessions.find? (bound r) = none →
        exec (.write r index sub p) s = .next (answered r opWrite key Code.session [] s)) ∧
      (∀ x, portOpen r.port s = true → fits → r.ver = 1 → s.sessions.find? (bound r) = some x → session x.id s = some x →
        (frameOk x r opWrite key p = false → Reaches (.write r index sub p) s (fun t =>
          t = answered r opWrite key Code.auth [] { s with objs := t.objs } ∧ ObjsBut [K.secAuthFails] s t ∧
          rd K.secAuthFails t = min (2 ^ 32 - 1) (rd K.secAuthFails s + 1))) ∧
        (frameOk x r opWrite key p = true → (seqDiff r x < -63 ∨ 64 < seqDiff r x) →
          Reaches (.write r index sub p) s (fun t => Answers r opWrite Code.window t ∧
            t = { s with sessions := t.sessions, baton := t.baton } ∧ HostFrame x s t)) ∧
        (∀ e, frameOk x r opWrite key p = true → -63 ≤ seqDiff r x → seqDiff r x ≤ 0 → recordOf r.seq x = some e →
          ((e.op ≠ opWrite ∨ e.key ≠ key ∨ e.length ≠ p.length) → Reaches (.write r index sub p) s (fun t =>
            Answers r opWrite Code.seqConflict t ∧ t = { s with sessions := t.sessions, baton := t.baton } ∧
            HostFrame x s t)) ∧
          (∀ b, e.op = opWrite → e.key = key → e.length = p.length → e.payload = some b →
            Reaches (.write r index sub p) s (fun t => Answers r opWrite e.status t ∧ Receives x b t ∧
              t = { s with sessions := t.sessions, baton := t.baton } ∧ (∀ i, i ≠ x.id → session i t = session i s)))))) ∧
  (∀ (index : BitVec 16) (sub : BitVec 8) (p : Bytes),
      let key := index.toNat * 256 + sub.toNat
      let c : Req → Instr := fun r => .write r index sub p
      (∀ (r : Req) (x : Session) (s : State), Admitted r opWrite key p x s → indexExists key s = false → classF key = false →
        Reaches (c r) s (fun t => Answers r opWrite Code.noObject t ∧ t = { s with sessions := t.sessions, baton := t.baton } ∧
          HostFrame x s t)) ∧
      HostRefuses c opWrite key p 0 false Code.noSub
        (fun _ _ => index ≠ 0x1800 ∧ classF key = false ∧ isCapIndex index.toNat = false ∧ objRow index.toNat sub.toNat = none) ∧
      (∀ row, objRow index.toNat sub.toNat = some row → index ≠ 0x1800 → key ≠ K.bootStage → classF key = false →
        isCapIndex index.toNat = false →
        HostRefuses c opWrite key p 0 false Code.rights (fun x s => roleOk x.role key row s = false) ∧
        HostRefuses c opWrite key p 0 false Code.readOnly (fun x s => roleOk x.role key row s = true ∧ row.acc = .ro) ∧
        HostRefuses c opWrite key p 0 false Code.level
          (fun x s => roleOk x.role key row s = true ∧ row.acc ≠ .ro ∧ 1 ≤ row.lev ∧ x.expert = false) ∧
        HostRefuses c opWrite key p 0 (decide (1 ≤ row.lev)) Code.format
          (fun x s => roleOk x.role key row s = true ∧ row.acc ≠ .ro ∧ row.ty.lengthOk p.length = false) ∧
        (plainObj key = true →
          HostRefuses c opWrite key p 0 (decide (1 ≤ row.lev)) Code.range
            (fun x s => roleOk x.role key row s = true ∧ row.acc ≠ .ro ∧ row.ty.lengthOk p.length = true ∧
              (rangeOk row (leNat p) && wordRange key (valueOf row p)) = false) ∧
          HostRefuses c opWrite key p 0 (decide (1 ≤ row.lev)) Code.state
            (fun x s => roleOk x.role key row s = true ∧ row.acc = .rws ∧ row.ty.lengthOk p.length = true ∧
              (rangeOk row (leNat p) && wordRange key (valueOf row p)) = true ∧ stopped key s = false))))

/-- R364, R365, R366: OPEN as an Operator opens one session more, with the next free identifier, unless eight stand
open; a repetition within 1 s opens none; CLOSE and the timeout end a session and nothing else. -/
def Obligations.SessionsOpenAndEnd : Prop :=
  (∀ (r : Req) (s : State), portOpen r.port s = true → overhead r.v6 + 4 ≤ mtu r.port s → r.ver = 1 → r.session = 0 →
    (s.sessions.find? (sameOpen r s) = none → s.sessions.length < 8 → 1 ≤ s.baton.nextId → s.baton.nextId ≤ 0xFFFE →
      idFree s.baton.nextId s = true →
      Reaches (.openSession r 0 0 []) s (fun t => ∃ y, t.sessions = s.sessions ++ [y] ∧
        t = { s with sessions := t.sessions, baton := t.baton } ∧ y.id.toNat = s.baton.nextId ∧ y.port = r.port.val ∧
        y.v6 = r.v6 ∧ y.addr = r.addr ∧ y.udp = r.udp ∧ y.role = 0 ∧ y.h = r.seq ∧ y.s0 = r.seq ∧ y.expert = false ∧
        y.tsPtr = 0 ∧ y.tcbPtr = 0 ∧ y.qPtr = 0 ∧ y.readMax = 16 ∧ y.subs = [] ∧
        ∃ f, t.baton.answer = some f ∧ f.status = Code.ok ∧ f.session = y.id ∧
          f.data = leBytes 2 64 ++ leBytes 2 (min 8192 (mtu r.port s - overhead r.v6 - 16)) ++ leBytes 4 (rd K.batonTimeoutS s))) ∧
    (s.sessions.find? (sameOpen r s) = none → 8 ≤ s.sessions.length →
      exec (.openSession r 0 0 []) s = .next (answered r opOpen 0 Code.noSessions [] s)) ∧
    (∀ x, s.sessions.find? (sameOpen r s) = some x → Reaches (.openSession r 0 0 []) s (fun t =>
      t.sessions.length = s.sessions.length ∧ t = { s with sessions := t.sessions, baton := t.baton } ∧
      ∃ f, t.baton.answer = some f ∧ f.status = Code.ok ∧ f.session = x.id))) ∧
  (∀ (r : Req) (x : Session) (s : State), Admitted r opClose 0 [] x s → Reaches (.closeSession r []) s (fun t =>
    Answers r opClose Code.ok t ∧ session x.id t = none ∧ (∀ i, i ≠ x.id → session i t = session i s) ∧
    t = { s with sessions := t.sessions, baton := t.baton })) ∧
  (∀ (r : Req) (s : State), portOpen r.port s = true → overhead r.v6 ≤ mtu r.port s → r.ver = 1 →
    s.sessions.find? (bound r) = none → session r.session s = none →
    exec (.closeSession r []) s = .next (answered r opClose 0 Code.ok [] s)) ∧
  (∀ (id : BitVec 16) (x : Session) (s : State), session id s = some x →
    (x.last + 1000000000 * rd K.batonTimeoutS s ≤ s.time.sys → Reaches (.sessionTimeout id) s (fun t =>
      session id t = none ∧ (∀ i, i ≠ id → session i t = session i s) ∧
      t = { s with sessions := t.sessions, baton := { s.baton with closed := t.baton.closed } })) ∧
    (s.time.sys < x.last + 1000000000 * rd K.batonTimeoutS s → exec (.sessionTimeout id) s = .next s))

/-- R376, R377, R378, R191: WRITE_BLOCK of DRAM_SPACE writes exactly the bytes it carries, READ_BLOCK returns them; a block
outside mapped DRAM is answered UNMAPPED, and one before DRAM_READY BUSY; a block of another BLOB is staged. -/
def Obligations.BlockTransfers : Prop :=
  (∀ (offset : BitVec 64) (data : Bytes),
    let wr_ : Req → Instr := fun r => .writeBlock r 0x1800 0 offset 0 0 data .clean
    let p := blockPrefix offset.toNat 0 0 ++ data
    let fits := fun (x : Session) (s : State) => data ≠ [] ∧ data.length ≤ maxData x.port x.v6 x.auth s
    HostDoes wr_ opWriteBlock K.dramSpace p 1 true
      (fun x s => fits x s ∧ mapped offset.toNat data.length s = true ∧ rd K.dramReady s = 1 ∧ s.dram.bad = [])
      (fun x s t => memBytes offset.toNat data.length t = data ∧ MemElsewhere offset.toNat data.length s t ∧
        Receives x (blockPrefix offset.toNat 0 (rd K.dramMapEpoch s)) t ∧
        t = { s with
          objs := t.objs, sessions := t.sessions, baton := t.baton
          dram := { s.dram with mem := t.dram.mem, bad := t.dram.bad, reqs := t.dram.reqs } } ∧
        HostFrame x s t ∧ ObjsBut [K.dpBytes 5] s t) ∧
    HostRefuses wr_ opWriteBlock K.dramSpace p 1 true Code.unmapped
      (fun x s => fits x s ∧ mapped offset.toNat data.length s = false) ∧
    (∀ (r : Req) (x : Session) (s : State), Admitted r opWriteBlock K.dramSpace p x s → indexExists K.dramSpace s = true →
      1 ≤ x.role → x.expert = true → fits x s → mapped offset.toNat data.length s = true → rd K.dramReady s = 0 →
      Reaches (wr_ r) s (fun t => Answers r opWriteBlock Code.busy t ∧
        t = { s with sessions := t.sessions, baton := t.baton } ∧ HostFrame x s t))) ∧
  (∀ (offset : BitVec 64) (n : BitVec 32),
    HostDoes (.readBlock · 0x1800 0 offset n 0 .clean) opReadBlock K.dramSpace (blockPrefix offset.toNat n.toNat 0) 0 false
      (fun x s => 1 ≤ n.toNat ∧ n.toNat ≤ maxData x.port x.v6 x.auth s ∧ mapped offset.toNat n.toNat s = true ∧
        rd K.dramReady s = 1 ∧ s.dram.bad = [])
      (fun x s t => Receives x (blockPrefix offset.toNat n.toNat (rd K.dramMapEpoch s) ++ memBytes offset.toNat n.toNat s) t ∧
        HostObjs [K.dpBytes 5] x s t)) ∧
  (∀ (n : Fin 256) (offset : BitVec 64) (data : Bytes),
    HostDoes (.writeBlock · (BitVec.ofNat 16 (0x3100 + n)) 3 offset 2304 0 data .clean) opWriteBlock (K.tsTable n)
      (blockPrefix offset.toNat 2304 0 ++ data) 1 true
      (fun x s => data ≠ [] ∧ data.length ≤ maxData x.port x.v6 x.auth s ∧ offset.toNat + data.length ≤ 2304 ∧
        data.length < 2304 ∧ x.staged = none)
      (fun x s t => HostSession x (fun y => ∃ g, y.staged = some g ∧ g.key = K.tsTable n ∧ g.total = 2304 ∧
        ∀ i, Tab.find i g.bytes = if offset.toNat ≤ i then data[i - offset.toNat]? else none) s t))

/-- R379, R380, R381: subscribing, cancelling, acknowledging, the repetition of a NOTIFY and the sample of a change
subscription.
R348, R360: a link that comes up stands in ETH_LINK and ETH_FEC, unless its port is fenced; ARP, Neighbor Discovery
and echo frames are answered, and every other frame that is no Baton request is counted. -/
def Obligations.SubscriptionsAndPorts : Prop :=
  ((∀ (index : BitVec 16) (sub : BitVec 8) (row : ObjRow),
      let key := index.toNat * 256 + sub.toNat
      let sub_ : Req → Instr := fun r => .subscribe r index sub 0
      let p : Bytes := leBytes 1 1 ++ leBytes 3 0
      let q : Bytes := leBytes 1 0 ++ leBytes 3 0
      objRow index.toNat sub.toNat = some row → isCapIndex index.toNat = false → classF key = false →
      (subscribable key row = true →
        HostDoes sub_ opSubscribe key p 0 false
          (fun x _ => x.subs.length < 256 ∧ ∀ u ∈ x.subs, ¬ (u.key = key ∧ u.ptr = ptrOf key x))
          (fun x s t => HostSession x (fun y => ∃ v, y.subs = x.subs ++ [{ key, ptr := ptrOf key x, last := v }]) s t) ∧
        HostDoes sub_ opSubscribe key p 0 false (fun x _ => ∃ u ∈ x.subs, u.key = key ∧ u.ptr = ptrOf key x)
          (fun x s t => HostSession x (fun y => y.subs = x.subs) s t) ∧
        HostRefuses sub_ opSubscribe key p 0 false Code.refused
          (fun x _ => 256 ≤ x.subs.length ∧ ∀ u ∈ x.subs, ¬ (u.key = key ∧ u.ptr = ptrOf key x)) ∧
        HostDoes (.subscribeCancel · index sub 0) opSubscribe key q 0 false (fun _ _ => True)
          (fun x s t => HostSession x
            (fun y => y.subs = x.subs.filter (fun u => !(u.key == key && u.ptr == ptrOf key x))) s t)) ∧
      (subscribable key row = false → HostRefuses sub_ opSubscribe key p 0 false Code.opcode (fun _ _ => True))) ∧
    (∀ (r : Req) (x : Session) (s : State), portOpen r.port s = true → r.ver = 1 → s.sessions.find? (bound r) = some x →
      session x.id s = some x → frameOk x r (128 + opNotify) 0 [] = true → Reaches (.notifyAck r) s (fun t =>
        t = { s with sessions := t.sessions } ∧
        SessionMoves x.id (fun y => y.pend = x.pend.filter (fun n => n.seq != r.seq) ∧ y.last = x.last) s t)) ∧
    (∀ (id : BitVec 16) (sq : BitVec 32) (x : Session) (n : Notify) (s : State), session id s = some x →
      x.pend.find? (fun m => m.seq == sq) = some n → n.at0 + 1000000 * rd K.batonNotifyRetryMs s ≤ s.time.sys →
      (n.sends < 5 → Reaches (.notifyRetry id sq) s (fun t => (∃ f, t.baton.notify = some f ∧ f.seq = n.seq ∧ f.op = 8) ∧
        SessionMoves id (fun y => y.pend = x.pend.map (fun m =>
          if m.seq == sq then { m with sends := m.sends + 1, at0 := s.time.sys } else m)) s t)) ∧
      (5 ≤ n.sends → Reaches (.notifyRetry id sq) s (fun t => t.baton = s.baton ∧
        SessionMoves id (fun y => y.pend = x.pend.filter (fun m => m.seq != sq) ∧
          y.notifyLost = min (2 ^ 32 - 1) (x.notifyLost + 1)) s t))) ∧
    (∀ (id : BitVec 16) (index : BitVec 16) (sub : BitVec 8) (x : Session) (u : Subscr) (s : State),
      let key := index.toNat * 256 + sub.toNat
      session id s = some x → x.subs.filter (fun w => w.key == key) = [u] → eventObj key = false → u.sentAt = none →
      (subValue key u.ptr x s ≠ u.last → Reaches (.changeSample id index sub) s (fun t =>
        (∃ f, t.baton.notify = some f ∧ f.seq = x.notifySeq + 1 ∧ f.key = key ∧
          (x.auth = false → f.data = leBytes 4 u.ptr ++ subValue key u.ptr x s)) ∧
        SessionMoves id (fun y => y.notifySeq = x.notifySeq + 1 ∧
          y.pend = x.pend.filter (fun m => !(m.key == key && m.ptr == u.ptr && !m.event)) ++
            [{ seq := x.notifySeq + 1, key, ptr := u.ptr, value := subValue key u.ptr x s, event := false, at0 := s.time.sys }]) s t)) ∧
      (subValue key u.ptr x s = u.last → exec (.changeSample id index sub) s = .next s))) ∧
  ((∀ (port : Fin 4) (fec : Fin 3) (s : State),
      (fenced (0x24 + port) s = false → Reaches (.ethLinkUp port fec) s (fun t => rd (K.ethLink port) t = 1 ∧
        rd (K.ethFec port) t = fec.val ∧ OnlyObjs [K.ethLink port, K.ethFec port] s t)) ∧
      (fenced (0x24 + port) s = true → exec (.ethLinkUp port fec) s = .next s)) ∧
    (∀ (port : Fin 4) (f : NetFrame) (s : State),
      (portOpen port s = false → exec (.ethFrameRx port f) s = .next s) ∧
      (portOpen port s = true → f = .arp ∨ f = .neighbour ∨ f = .echo →
        exec (.ethFrameRx port f) s = .next { s with baton := { s.baton with reply := some (port, f) } }) ∧
      (portOpen port s = true → f = .malformed ∨ f = .fragment ∨ f = .otherUdp → Reaches (.ethFrameRx port f) s (fun t =>
        rd K.batonBadFrames t = min (2 ^ 32 - 1) (rd K.batonBadFrames s + 1) ∧ OnlyObjs [K.batonBadFrames] s t))))

/-! ### Groups, periods and timing sets (01, 02) -/

/-- R14, R15: a write of CG_MODE in OFF or READY sets the mode of every member of the gang; odd channels take the safe
state where Dash is entered or left. Other values, other states and members that do not lead are refused.
R17, R40: a write of CG_GANG that leaves a map of consecutive groups of one mode under leaders is taken, all others are
refused; a base period is in force at once outside a run, and staged, withdrawn or refused in one.
R46, R48, R49, R138, R176: writes of CH_TERM_SEL, of a system channel's period, format or edges, of the period table
and of a channel's timing sets. -/
def Obligations.GroupAndTimingWrites : Prop :=
  (∀ (g : Fin 16) (v : Byte),
      let c : Req → Instr := fun r => .cgModeWrite r g [v]
      HostDoes c opWrite (K.cgMode g) [v] 0 false (fun _ s => v.toNat ≤ 2 ∧ runState g s ≤ 1 ∧ leader g s = g)
        (fun x s t =>
          let moved := fun n => n < 256 ∧ n / 16 ∈ members g s ∧ n % 2 = 1 ∧ mode (n / 16) s ≠ v.toNat ∧
            (mode (n / 16) s = 2 ∨ v.toNat = 2)
          (∀ m ∈ members g s, rd (K.cgMode m) t = v.toNat) ∧ ObjsBut ((members g s).map K.cgMode) s t ∧
          t = { s with objs := t.objs, chans := t.chans, sessions := t.sessions, baton := t.baton } ∧ HostFrame x s t ∧
          (∀ n, moved n → chan n t = entersSafeFrom s.now (chan n s)) ∧ (∀ n, ¬ moved n → chan n t = chan n s)) ∧
      HostRefuses c opWrite (K.cgMode g) [v] 0 false Code.range (fun _ _ => 2 < v.toNat) ∧
      HostRefuses c opWrite (K.cgMode g) [v] 0 false Code.state (fun _ s => v.toNat ≤ 2 ∧ 1 < runState g s) ∧
      HostRefuses c opWrite (K.cgMode g) [v] 0 false Code.refused
        (fun _ s => v.toNat ≤ 2 ∧ runState g s ≤ 1 ∧ leader g s ≠ g)) ∧
  ((∀ (g : Fin 16) (v : Byte),
      HostDoes (.cgGangWrite · g [v]) opWrite (K.cgGang g) [v] 0 false
        (fun _ s => v.toNat ≤ 15 ∧ (∀ i, i < 16 → runState i s = 1) ∧ gangMapOk (gangMap g v.toNat s) = true ∧
          mode g s = mode v.toNat s)
        (fun x s t => rd (K.cgGang g) t = v.toNat ∧
          HostObjs (K.cgGang g :: (List.range 16).map K.cgService) x s t) ∧
      HostRefuses (.cgGangWrite · g [v]) opWrite (K.cgGang g) [v] 0 false Code.refused
        (fun _ s => v.toNat ≤ 15 ∧ (∀ i, i < 16 → runState i s = 1) ∧
          (gangMapOk (gangMap g v.toNat s) = false ∨ mode g s ≠ mode v.toNat s))) ∧
    (∀ (g : Fin 16) (fs : Bool) (p : Bytes),
      let key := if fs then K.cgBasePeriodFs g else K.cgBasePeriod g
      let code := if fs then fsToCode (leNat p) else leNat p
      let does := HostDoes (.cgBasePeriodWrite · g fs p) opWrite key p (if fs then 0 else 1) (!fs)
      let post := fun (staged : Session → State → Option (Nat × Nat)) (act pending : State → Nat) (x : Session) (s t : State) =>
        grp g t = { grp g s with baseStaged := staged x s } ∧ (∀ m, m ≠ g.val → grp m t = grp m s) ∧
        rd (K.cgBasePeriodAct g) t = act s ∧ rd (K.cgBasePending g) t = pending s ∧
        t = { s with objs := t.objs, grps := t.grps, sessions := t.sessions, baton := t.baton } ∧ HostFrame x s t ∧
        ObjsBut [K.cgBasePeriodAct g, K.cgBasePending g] s t
      p.length = (if fs then 8 else 4) → code < 2 ^ 32 →
      does (fun _ s => busyState (runState g s) = false) (post (fun _ _ => none) (fun _ => code) (fun _ => 0)) ∧
      does (fun _ s => busyState (runState g s) = true ∧ code = rd (K.cgBasePeriodAct g) s)
        (post (fun _ _ => none) (fun _ => code) (fun _ => 0)) ∧
      does (fun _ s => busyState (runState g s) = true ∧ code ≠ rd (K.cgBasePeriodAct g) s ∧ basePeriodOk g code s = true)
        (post (fun _ s => some (code, s.now)) (fun s => rd (K.cgBasePeriodAct g) s) (fun _ => 1)) ∧
      HostRefuses (.cgBasePeriodWrite · g fs p) opWrite key p (if fs then 0 else 1) (!fs) Code.refused
        (fun _ s => busyState (runState g s) = true ∧ code ≠ rd (K.cgBasePeriodAct g) s ∧ basePeriodOk g code s = false))) ∧
  ((∀ (n : Fin 256) (v : Byte),
      HostDoes (.chTermSelWrite · n [v]) opWrite (K.chTermSel n) [v] 0 false
        (fun _ s => v.toNat ≤ 1 ∧ busyState (runState (n.val / 16) s) = false)
        (fun x s t => rd (K.chTermSel n) t = v.toNat ∧ ObjsBut [K.chTermSel n] s t ∧ ChansBut n s t ∧
          t = { s with objs := t.objs, chans := t.chans, sessions := t.sessions, baton := t.baton } ∧ HostFrame x s t ∧
          (termLevel n s = false → chan n t = chan n s) ∧
          (termLevel n s = true → (∀ e ∈ (chan n s).sched, e.act ≠ .safeDrv) →
            chan n t = { chan n s with sched := (chan n s).sched ++
              [{ t := nextTref s.now, cyc := 0, gen := 8, vec := 0, act := .safeDrv }] }))) ∧
    (∀ (k : Fin 8) (sub : BitVec 8) (p : Bytes),
      let key := 0x320000 + 256 * k.val + sub.toNat
      let v := leNat p
      let new := fun (s : State) =>
        let per := if sub = 2 then fsToCode v else if sub = 3 then v else rd (K.sysPeriod k) s
        let de0 := if sub = 5 then fsToCode v else if sub = 7 then leAt 0 4 p else (sysEdges k s).1
        let de1 := if sub = 6 then fsToCode v else if sub = 7 then leAt 4 4 p else (sysEdges k s).2
        let fmt := if sub = 4 then v else rd (K.sysFormat k) s
        (per, de0, de1, fmt)
      let inRange := fun (s : State) => (new s).1 < 2 ^ 32 ∧ 1024 ≤ (new s).1 ∧ (new s).2.1 < 2 ^ 32 ∧ (new s).2.2.1 < 2 ^ 32
      let ok := fun (s : State) => sysTimingOk (new s).1 (new s).2.1 (new s).2.2.1 (new s).2.2.2
      ∀ row, objRow (0x3200 + k.val) sub.toNat = some row → 2 ≤ sub.toNat → sub.toNat ≤ 7 → row.ty.lengthOk p.length = true →
        rangeOk row (leNat p) = true →
        HostDoes (.sysTimingWrite · k sub p) opWrite key p row.lev (decide (1 ≤ row.lev)) (fun _ s => inRange s ∧ ok s = true)
          (fun x s t => rd (K.sysPeriod k) t = (new s).1 ∧ sysEdges k t = ((new s).2.1, (new s).2.2.1) ∧
            rd (K.sysFormat k) t = (new s).2.2.2 ∧ ObjsBut [K.sysPeriod k, K.sysFormat k] s t ∧
            sysch k t = { sysch k s with resync := (sysch k s).running } ∧ (∀ i, i ≠ k.val → sysch i t = sysch i s) ∧
            t = { s with objs := t.objs, blobs := t.blobs, sysch := t.sysch, sessions := t.sessions, baton := t.baton } ∧
            HostFrame x s t) ∧
        HostRefuses (.sysTimingWrite · k sub p) opWrite key p row.lev (decide (1 ≤ row.lev)) Code.refused
          (fun _ s => inRange s ∧ ok s = false)) ∧
    (∀ (g : Fin 16) (p : Bytes), p.length = 256 →
      HostDoes (.tsTableWrite · (.periods g) p) opWrite (K.tsPeriodTable g) p 1 true
        (fun _ s => busyState (runState g s) = false ∧ rd (K.mcTsLock g) s = 0)
        (fun x s t => (∀ i, i < 64 → tsPeriodOf g i t = leAt (4 * i) 4 p) ∧
          (∀ m i, i < 64 → m ≠ g.val → tsPeriodOf m i t = tsPeriodOf m i s) ∧
          t = { s with periods := t.periods, sessions := t.sessions, baton := t.baton } ∧ HostFrame x s t)) ∧
    (∀ (n : Fin 256) (p : Bytes), p.length = 2304 →
      HostDoes (.tsTableWrite · (.channel n) p) opWrite (K.tsTable n) p 1 true
        (fun _ s => busyState (runState (n.val / 16) s) = false ∧ rd (K.mcTsLock (leader (n.val / 16) s)) s = 0)
        (fun x s t => (∀ i, i < 64 → (tset n i t).fmt = leAt (36 * i + 32) 4 p % 32 ∧
            ∀ j, j < 8 → (tset n i t).edges.getD j 0 = leAt (36 * i + 4 * j) 4 p) ∧
          (∀ m i, i < 64 → m ≠ n.val → tset m i t = tset m i s) ∧
          t = { s with sets := t.sets, sessions := t.sessions, baton := t.baton } ∧ HostFrame x s t) ∧
      HostDoes (.tsTableWrite · (.channel n) p) opWrite (K.tsTable n) p 1 true
        (fun _ s => busyState (runState (n.val / 16) s) = false ∧ rd (K.mcTsLock (leader (n.val / 16) s)) s = 1)
        (fun x s t =>
          let l := leader (n.val / 16) s
          let left := (seq l s).tsNeed.filter (· != 1 + n.val)
          seq l t = { seq l s with tsNeed := left } ∧ (∀ m, m ≠ l → seq m t = seq m s) ∧
          rd (K.mcTsReloadLeft l) t = left.length ∧ rd (K.mcTsLock l) t = (if left = [] then 0 else 1) ∧
          ObjsBut [K.mcTsReloadLeft l, K.mcTsLock l] s t ∧
          t = { s with objs := t.objs, seqs := t.seqs, sets := t.sets, sessions := t.sessions, baton := t.baton } ∧
          HostFrame x s t)))

/-! ### Cycle chains, edges and comparators (02, 03) -/

/-- R24, R25, R26: a cycle start of a group that plays a range plays the range's next vector and sets the next cycle start
one period on; a group whose play has ended goes on with the period of its last vector.
R12, R45, R46: a cycle start of a system channel in clock mode starts a cycle, on a Tref edge after a write of its
timing, and sets the next one a period on; in Sync mode it places the pulse that a run has asked for, low again a period
later; while TCLK is not locked nothing starts. -/
def Obligations.CyclesStart : Prop :=
  ((∀ (g : Fin 16) (r : Range) (s : State),
      let q := seq g s
      cycleDue g s = true → q.stopped = none → runState g s = 3 → q.cur = some r → q.off < r.count →
      granReady g r.page (r.first + q.off) s = true →
      Reaches (.cycleStart (.group g)) s (fun t =>
        let p := seq g t
        p.played = q.played + 1 ∧ p.off = q.off + 1 ∧ p.rep = q.rep ∧ p.cur = some r ∧ p.cyc = q.cyc + 1 ∧
        p.lastStart = q.nextAt ∧ p.nextAt = q.nextAt + cycleLen g (unitAt g r.page (r.first + q.off) s).ts s ∧
        t.now = max s.now q.nextAt ∧ t.sessions = s.sessions ∧ t.pes = s.pes ∧ t.sec = s.sec ∧ t.dram.mem = s.dram.mem)) ∧
    (∀ (g : Fin 16) (s : State), cycleDue g s = false → exec (.cycleStart (.group g)) s = .next s)) ∧
  ((∀ (k : Fin 8) (s : State), tclkLocked s = true → rd (K.sysMode k) s = 3 → (sysch k s).running = true →
      Reaches (.cycleStart (.sys k)) s (fun t =>
        let c := sysch k s
        let at_ := if c.resync then nextTref c.next else c.next
        sysch k t = { c with start := at_, next := at_ + rd (K.sysPeriod k) s, cyc := c.cyc + 1, resync := false } ∧
        (∀ i, i ≠ k.val → sysch i t = sysch i s) ∧ ChansBut (256 + k) s t ∧ (∀ g, g < 16 → grp g t = grp g s) ∧
        t = { s with now := max s.now at_, chans := t.chans, grps := t.grps, sysch := t.sysch } ∧
        (rd (K.sysFormat k) s = 2 → (chan (256 + k) s).sched = [] → (chan (256 + k) s).fired = [] →
          (chan (256 + k) t).sched =
            [{ t := at_ + (sysEdges k s).1, cyc := c.cyc + 1, gen := 0, vec := 0, act := .drv true },
             { t := at_ + (sysEdges k s).2, cyc := c.cyc + 1, gen := 1, vec := 0, act := .drv false }]))) ∧
    (∀ (k : Fin 8) (at_ : Nat) (s : State), tclkLocked s = true → rd (K.sysMode k) s = 4 → (sysch k s).pulse = some at_ →
      Reaches (.cycleStart (.sys k)) s (fun t =>
        sysch k t = { sysch k s with start := at_, cyc := (sysch k s).cyc + 1, pulse := none } ∧
        (∀ i, i ≠ k.val → sysch i t = sysch i s) ∧ ChansBut (256 + k) s t ∧
        t = { s with now := max s.now at_, chans := t.chans, sysch := t.sysch } ∧
        (rd (K.sysFormat k) s = 2 → (chan (256 + k) s).sched = [] → (chan (256 + k) s).fired = [] →
          let cyc := (sysch k s).cyc + 1
          (chan (256 + k) t).sched =
            [{ t := at_ + (sysEdges k s).1, cyc, gen := 0, vec := 0, act := .drv true },
             { t := at_ + (sysEdges k s).2, cyc, gen := 1, vec := 0, act := .drv false },
             { t := at_ + rd (K.sysPeriod k) s, cyc, gen := 8, vec := 0, act := .drv false }]))) ∧
    (∀ (k : Fin 8) (s : State), tclkLocked s = false ∨ (rd (K.sysMode k) s ≠ 3 ∧ rd (K.sysMode k) s ≠ 4) →
      exec (.cycleStart (.sys k)) s = .next s))

/-- R25, R33, R34, R44, R51, R57: the edge that is first at the balls leaves the schedule and acts: a drive edge that the
guard of R34 passes sets the level; a single strobe whose inputs do not pass fails its vector on its channel.
R20, R50, R60: the dead time after a warm-up segment ends at its instant; a comparator input takes a level, and the
time-stamp window that is open records the transition. -/
def Obligations.EdgesAndComparators : Prop :=
  ((∀ (ch : Fin 264) (e : Edge) (v : Bool) (s : State),
      let n := ch.val
      let at_ := (ballTime n e s).toNat
      let u := expireWindows n at_ { s with now := max s.now at_ }
      let c := chan n u
      firstEdge n s (chan n s).sched = some e → e.act = .drv v → e.gen < 8 → (n < 256 → (grp (n / 16) u).judges = []) →
      c.drv.level ≠ v → (∀ l, c.drv.last = some l → l + guardOf n s ≤ at_) →
      Reaches (.edgeFire ch) s (fun t =>
        chan n t = { c with sched := c.sched.erase e, fired := Tab.set e.gen e.t c.fired
                            drv := { level := v, last := some at_, prev := c.drv.last } } ∧
        ChansBut n u t ∧ t = { u with chans := t.chans })) ∧
    (∀ (ch : Fin 264) (e f : Edge) (m : Nat) (j : Judge) (rest : List Judge) (s : State),
      let n := ch.val
      let at_ := (ballTime n e s).toNat
      let u := expireWindows n at_ { s with now := max s.now at_ }
      let c := chan n u
      let io := inputsAt n at_ u
      firstEdge n s (chan n s).sched = some e → e.act = .strobe0 1 false → e.gen = 6 → n < 256 → cmpMode n s = 0 →
      strobeMasked (n / 16) e.t u = false → siteOff n u = false → (grp (n / 16) u).judges = j :: rest → j.empty = false →
      m / 16 = n / 16 → m ≠ n → f ∈ (chan m u).sched → f.gen = 6 → f.vec = j.vec →
      Reaches (.edgeFire ch) s (fun t =>
        chan n t = { c with sched := c.sched.erase e, fired := Tab.set 6 e.t c.fired, seen := max c.seen at_ } ∧ ChansBut n u t ∧
        grp (n / 16) t = { grp (n / 16) u with judges := (j :: rest).map (fun x =>
          if x.vec = e.vec ∧ x.empty = false ∧ ¬ (io.2 = true ∧ io.1 = false) then { x with fail := setBit x.fail (n % 16) } else x) } ∧
        (∀ g, g ≠ n / 16 → grp g t = grp g u) ∧ t = { u with chans := t.chans, grps := t.grps })) ∧
    (∀ (ch : Fin 264) (s : State), (chan ch s).sched = [] → exec (.edgeFire ch) s = .next s)) ∧
  ((∀ (g : Fin 16) (s : State),
      let l := leader g s
      (∀ at_, (seq l s).dead = some at_ → Reaches (.deadTimeEnd g) s (fun t =>
        seq l t = { seq l s with dead := none } ∧ (∀ m, m ≠ l → seq m t = seq m s) ∧
        t = { s with now := max s.now at_, seqs := t.seqs })) ∧
      ((seq l s).dead = none → exec (.deadTimeEnd g) s = .next s)) ∧
    (∀ (n : Fin 256) (level : Bool) (at_ : Nat) (s : State),
      let c := chan n s
      let dir := xor level (rd (K.chCmpInv n) s = 1)
      let u := max at_ c.seen
      let past := fun cl => { t := u, cl, level } :: c.past.filter (fun (y : Transition) => decide (u ≤ y.t + 16384))
      (c.cmpH = level → exec (.comparatorTransition n false level at_) s = .next s) ∧
      (c.cmpL = level → exec (.comparatorTransition n true level at_) s = .next s) ∧
      (c.win = [] → (grp (n.val / 16) s).judges = [] →
        (c.cmpH ≠ level → c.tdcH = [] → Reaches (.comparatorTransition n false level at_) s (fun t =>
          chan n t = { c with cmpH := level, seen := u, past := past false } ∧ ChansBut n s t ∧
          t = { s with now := max s.now u, chans := t.chans })) ∧
        (∀ w, c.cmpL ≠ level → (∀ x ∈ c.tdcH, endedBy u x.closes = false) → c.tdcL = [w] → w.recs = [] → w.holds u = true →
          Reaches (.comparatorTransition n true level at_) s (fun t =>
            chan n t = { c with cmpL := level, seen := u, past := past true
                                tdcL := [{ w with recs := [{ vec := w.vec, ch := n.val % 16, cl := true, dir, ovr := false, t := u }] }] } ∧
            ChansBut n s t ∧ t = { s with now := max s.now u, chans := t.chans })))))

/-! ### Capture and fails (03) -/

/-- R62, R68, R69, R70: the host's writes that restart, resize or release a capture ring, and release spilled bytes.
R63, R66, R67, R68, R69, R369: a read of CAP_READ returns and releases the oldest entries, one of FAIL_POP the oldest
records, as many as fit; the ring writer puts a staged entry at the write offset.
R70, R74: a drain requests the next burst of a spill region, up to the next 64-byte boundary, and takes the entries or
records of a burst that has been written out of the ring or the FIFO. -/
def Obligations.CaptureMemory : Prop :=
  ((∀ (g : Fin 16) (p : Bytes), p.length = 2 →
      HostDoes (.capBaseWrite · g p) opWrite (K.capBase g) p 1 true
        (fun _ s => leNat p % 64 = 0 ∧ 4160 ≤ leNat p ∧ busyState (runState g s) = false ∧
          leNat p + rd (K.capLen g) s ≤ 65536 ∧ ringWriteOk g (leNat p) [rd (K.capLen g) s] s = true)
        (fun x s t => rd (K.capBase g) t = leNat p ∧ rd (K.capWr g) t = 0 ∧ rd (K.capRd g) t = 0 ∧ rd (K.capFill g) t = 0 ∧
          rd (K.capLenWrAct g) t = rd (K.capLen g) s ∧ rd (K.capLenRdAct g) t = rd (K.capLen g) s ∧ rd (K.ringPending g) t = 0 ∧
          grp g t = { grp g s with passes := [], spillCap := none, capDone := false } ∧
          (∀ m, m ≠ g.val → grp m t = grp m s) ∧
          ObjsBut [K.capBase g, K.capWr g, K.capRd g, K.capFill g, K.capLenWrAct g, K.capLenRdAct g, K.ringPending g] s t ∧
          t = { s with objs := t.objs, grps := t.grps, sessions := t.sessions, baton := t.baton } ∧ HostFrame x s t) ∧
      HostDoes (.capLenWrite · g p) opWrite (K.capLen g) p 0 false
        (fun _ s => leNat p % 64 = 0 ∧ 1024 ≤ leNat p ∧ 1 < runState g s ∧ rd (K.capBase g) s + leNat p ≤ 65536 ∧
          ringWriteOk g (rd (K.capBase g) s) [leNat p] s = true ∧ rd (K.capLenWrAct g) s ≠ leNat p)
        (fun x s t => rd (K.capLen g) t = leNat p ∧ rd (K.ringPending g) t = 1 ∧ HostObjs [K.capLen g, K.ringPending g] x s t) ∧
      HostDoes (.capLenWrite · g p) opWrite (K.capLen g) p 0 false
        (fun _ s => leNat p % 64 = 0 ∧ 1024 ≤ leNat p ∧ runState g s ≤ 1 ∧ rd (K.capBase g) s + leNat p ≤ 65536 ∧
          ringWriteOk g (rd (K.capBase g) s) [leNat p] s = true)
        (fun _ _ t => rd (K.capLen g) t = leNat p ∧ rd (K.capWr g) t = 0 ∧ rd (K.capRd g) t = 0 ∧ rd (K.capFill g) t = 0 ∧
          rd (K.capLenWrAct g) t = leNat p ∧ rd (K.capLenRdAct g) t = leNat p ∧ rd (K.ringPending g) t = 0) ∧
      HostDoes (.capRdWrite · g p) opWrite (K.capRd g) p 0 false
        (fun _ s => rd (K.capMode g) s ≠ 2 ∧ rd (K.capRd g) s ≤ leNat p ∧ leNat p < rd (K.capLenRdAct g) s ∧
          leNat p - rd (K.capRd g) s ≤ rd (K.capFill g) s)
        (fun x s t => rd (K.capRd g) t = leNat p ∧
          rd (K.capFill g) t = rd (K.capFill g) s - (leNat p - rd (K.capRd g) s) ∧
          HostObjs [K.capRd g, K.capFill g, K.ringPending g] x s t) ∧
      HostRefuses (.capRdWrite · g p) opWrite (K.capRd g) p 0 false Code.refused
        (fun _ s => rd (K.capMode g) s = 2 ∨ rd (K.capLenRdAct g) s ≤ leNat p)) ∧
    (∀ (g : Fin 16) (p : Bytes), p.length = 8 →
      let v := leNat p
      HostDoes (.spillRdWrite · g true p) opWrite (K.failSpillRd g) p 1 true
        (fun _ s => v % 16 = 0 ∧ rd (K.failSpillRd g) s ≤ v ∧ v < rd (K.failSpillSize g) s ∧
          v - rd (K.failSpillRd g) s ≤ (grp g s).failHeld)
        (fun x s t => rd (K.failSpillRd g) t = v ∧
          grp g t = { grp g s with failHeld := (grp g s).failHeld - (v - rd (K.failSpillRd g) s) } ∧
          (∀ m, m ≠ g.val → grp m t = grp m s) ∧ ObjsBut [K.failSpillRd g] s t ∧
          t = { s with objs := t.objs, grps := t.grps, sessions := t.sessions, baton := t.baton } ∧ HostFrame x s t) ∧
      HostDoes (.spillRdWrite · g false p) opWrite (K.capSpillRd g) p 1 true
        (fun _ s => v % 16 = 0 ∧ rd (K.capSpillRd g) s ≤ v ∧ v < rd (K.capSpillSize g) s ∧
          v - rd (K.capSpillRd g) s ≤ (grp g s).capHeld)
        (fun x s t => rd (K.capSpillRd g) t = v ∧
          grp g t = { grp g s with capHeld := (grp g s).capHeld - (v - rd (K.capSpillRd g) s) } ∧
          (∀ m, m ≠ g.val → grp m t = grp m s) ∧ ObjsBut [K.capSpillRd g] s t ∧
          t = { s with objs := t.objs, grps := t.grps, sessions := t.sessions, baton := t.baton } ∧ HostFrame x s t) ∧
      HostRefuses (.spillRdWrite · g true p) opWrite (K.failSpillRd g) p 1 true Code.range (fun _ _ => v % 16 ≠ 0))) ∧
  ((∀ (g : Fin 16),
      HostDoes (.capRead · g) opRead (K.capRead g) [] 0 false
        (fun _ s => rd (K.capMode g) s ≠ 2 ∧ 0 < rd (K.capFill g) s ∧
          rd (K.capRd g) s + rd (K.capFill g) s < rd (K.capLenRdAct g) s)
        (fun x s t =>
          let n := min 64 (min (rd (K.capFill g) s) (answerMax x s / 16))
          Receives x ((List.range n).flatMap (fun i =>
            leBytes 16 (Tab.get 0 (rd (K.capBase g) s + (rd (K.capRd g) s + i)) (grp g s).capMem))) t ∧
          rd (K.capRd g) t = rd (K.capRd g) s + n ∧ rd (K.capFill g) t = rd (K.capFill g) s - n ∧
          HostObjs [K.capRd g, K.capFill g, K.ringPending g] x s t) ∧
      HostDoes (.failPop · g) opRead (K.failPop g) [] 0 false (fun _ s => (grp g s).spillFail = none)
        (fun x s t =>
          let n := min (min 64 (answerMax x s / 16)) (grp g s).fifo.length
          Receives x (((grp g s).fifo.take n).flatMap (leBytes 16)) t ∧
          grp g t = { grp g s with fifo := (grp g s).fifo.drop n, fifoHead := ((grp g s).fifoHead + n) % 4096 } ∧
          (∀ m, m ≠ g.val → grp m t = grp m s) ∧
          t = { s with grps := t.grps, sessions := t.sessions, baton := t.baton } ∧ HostFrame x s t)) ∧
    (∀ (g : Fin 16) (e : Nat) (s : State), (grp g s).stage = [e] → (grp g s).passes = [rd (K.capLenWrAct g) s] →
      rd (K.capWr g) s + 1 < rd (K.capLenWrAct g) s → rd (K.capLevel g) s < rd (K.capFill g) s →
      Reaches (.captureRingWrite g) s (fun t =>
        grp g t = { grp g s with stage := [], capMem := Tab.set (rd (K.capBase g) s + rd (K.capWr g) s) e (grp g s).capMem } ∧
        (∀ m, m ≠ g.val → grp m t = grp m s) ∧ rd (K.capWr g) t = rd (K.capWr g) s + 1 ∧
        rd (K.capFill g) t = rd (K.capFill g) s + 1 ∧ ObjsBut [K.capWr g, K.capFill g] s t ∧
        t = { s with objs := t.objs, grps := t.grps })) ∧
    (∀ (g : Fin 16) (s : State), (grp g s).stage = [] → Reaches (.captureRingWrite g) s (fun t => OnlyObjs [] s t))) ∧
  (∀ (g : Fin 16) (s : State), rd K.dramReady s = 1 → fenced g s = false →
      (∀ n, rd (K.capMode g) s = 2 → (grp g s).spillCap = none →
        n = min (4 - rd (K.capSpillWr g) s % 64 / 16)
          (min (rd (K.capFill g) s) ((rd (K.capSpillSize g) s - (grp g s).capHeld) / 16)) → 0 < n →
        Reaches (.captureSpillDrain g) s (fun t => ∃ r : DReq,
          t = { s with grps := t.grps, dram := { s.dram with reqs := s.dram.reqs ++ [r] } } ∧ r.port = 1 ∧ r.write = true ∧
          r.issued = false ∧ r.owner = .capSpill g ∧
          r.addr = (rd (K.capSpillBase g) s + rd (K.capSpillWr g) s) / 64 * 64 ∧
          grp g t = { grp g s with spillCap := some n } ∧ ∀ m, m ≠ g.val → grp m t = grp m s)) ∧
      (∀ n, (grp g s).spillFail = none → rd (K.failSpillSize g) s ≠ 0 →
        n = min (4 - rd (K.failSpillWr g) s % 64 / 16)
          (min (grp g s).fifo.length ((rd (K.failSpillSize g) s - (grp g s).failHeld) / 16)) → 0 < n →
        Reaches (.failSpillDrain g) s (fun t => ∃ r : DReq,
          t = { s with grps := t.grps, dram := { s.dram with reqs := s.dram.reqs ++ [r] } } ∧ r.port = 1 ∧ r.write = true ∧
          r.issued = false ∧ r.owner = .failSpill g ∧
          r.addr = (rd (K.failSpillBase g) s + rd (K.failSpillWr g) s) / 64 * 64 ∧
          grp g t = { grp g s with spillFail := some n } ∧ ∀ m, m ≠ g.val → grp m t = grp m s)) ∧
      (∀ n, (grp g s).spillFail = some n → (grp g s).failDone = true → rd (K.failSpillSize g) s = 0 →
        Reaches (.failSpillDrain g) s (fun t =>
          grp g t = { grp g s with spillFail := none, failDone := false, fifo := (grp g s).fifo.drop n
                                   fifoHead := ((grp g s).fifoHead + n) % 4096 } ∧
          (∀ m, m ≠ g.val → grp m t = grp m s) ∧ t = { s with grps := t.grps })))

/-! ### Sequencer instructions (05) -/

/-- R126: FLAG clears, sets or toggles every user flag set in the mask; operation 3 is sequence error 11. -/
def Obligations.FlagAppliesItsOperation : Prop :=
  ∀ (k : Fin 16) (w : SeqWord) (s : State), IuReady k 0xC w s → w.b = 0 → w.flags.toNat < 4 →
    let op := w.flags.toNat
    let old := rd (K.seqFlags k) s
    (op ≤ 2 → Reaches (.flag k w) s (fun t => IuGoes k 1 (pcOf k s + 1) (seq k s) [K.seqFlags k] s t ∧
      ∀ i, (rd (K.seqFlags k) t).testBit i =
        if i < 16 ∧ w.a.toNat.testBit i = true then
          (if op = 0 then false else if op = 1 then true else !old.testBit i)
        else old.testBit i)) ∧
    (op = 3 → Reaches (.flag k w) s (IuFails k 1 11 s))

/-- R127: the seven operations of SETREG, and sequence error 11 for any other and for ops 5 and 6 with a destination
above 3. -/
def Obligations.SetregOperations : Prop :=
  ∀ (k : Fin 16) (w : SeqWord) (s : State), IuReady k 0xD w s → w.flags = 0 → w.a.toNat < 4096 →
    let op := w.a.toNat / 256 % 16
    let src := w.a.toNat / 16 % 16
    let d := w.a.toNat % 16
    let b := w.b.toNat
    let gr := fun i => rd (K.gr k i) s % 2 ^ 32
    let setsGr := fun v => Reaches (.setreg k w) s (fun t =>
      rd (K.gr k d) t = v ∧ IuGoes k 1 (pcOf k s + 1) (seq k s) [K.gr k d] s t)
    let setsSm := fun v => Reaches (.setreg k w) s (fun t =>
      rd (K.sm k d) t = v ∧ IuGoes k 1 (pcOf k s + 1) (seq k s) [K.sm k d] s t)
    let rsvOk := (op = 2 ∨ op = 3 ∨ src = 0) ∧ (op = 2 ∨ op = 4 → b = 0)
    (rsvOk → op = 0 → setsGr b) ∧ (rsvOk → op = 1 → setsGr ((gr d + b) % 2 ^ 32)) ∧ (rsvOk → op = 2 → setsGr (gr src)) ∧
    (rsvOk → op = 3 → setsGr ((gr src + b) % 2 ^ 32)) ∧ (rsvOk → op = 4 → setsGr (if gr d = 0 then 0 else gr d - 1)) ∧
    (rsvOk → op = 5 → d ≤ 3 → setsSm (rd (K.sm k d) s / 2 ^ 32 * 2 ^ 32 + b)) ∧
    (rsvOk → op = 6 → d ≤ 3 → setsSm (b * 2 ^ 32 + rd (K.sm k d) s % 2 ^ 32)) ∧
    (7 ≤ op ∨ (rsvOk ∧ (op = 5 ∨ op = 6) ∧ 3 < d) → Reaches (.setreg k w) s (IuFails k 1 11 s)) ∧
    (op ≤ 6 → ¬ rsvOk → Reaches (.setreg k w) s (IuFails k 1 2 s))

/-- R102, R107, R110, R111, R112, R113, R114, for NOP, LOOP, ENDL, JUMP, CALL and RET where no jump request may be
taken: where the PC, the play pointer and the stacks go, and the sequence errors on the way.
R108, R111, R114, R116, R118, R121, R123: RUN, MATCH, WAITT and TSYNC issue their ranges; JIF goes on, jumps or
waits.
R125, R128, R129, R130, R112: MARK keeps its value for the next range; TSLOAD begins its load, with WAIT it holds the
IU; STOP and HALT end the issue, or are sequence error 6 with a loop open. -/
def Obligations.SequencerInstructions : Prop :=
  (∀ (k : Fin 16) (w : SeqWord) (s : State),
      let q := seq k s
      let pc := pcOf k s
      let bare := w.flags = 0 ∧ w.a = 0 ∧ w.b = 0
      (IuReady k 0x11 w s → bare → Reaches (.nop k w) s (IuGoes k 1 (pc + 1) q [] s)) ∧
      (IuReady k 0x11 w s → ¬ bare → Reaches (.nop k w) s (IuFails k 1 2 s)) ∧
      (IuReady k 2 w s → w.flags.toNat < 2 → w.a.toNat < 16 → (w.flags = 1 → w.b = 0) → q.ptr % granuleOf k s = 0 →
        let n := if w.flags = 1 then rd (K.gr k w.a.toNat) s else w.b.toNat
        (q.loops.length < 8 → Reaches (.loop k w) s (IuGoes k 1 (pc + 1)
          { q with loops := { left := if n = 0 then 2 ^ 32 else n, pc := pc + 1, ptr := q.ptr } :: q.loops } [] s)) ∧
        (8 ≤ q.loops.length → Reaches (.loop k w) s (IuFails k 1 5 s))) ∧
      (IuReady k 3 w s → bare →
        (q.loops = [] → Reaches (.endl k w) s (IuFails k 1 6 s)) ∧
        (∀ v rest, q.loops = v :: rest → q.calls = [] →
          (v.issued = 0 → Reaches (.endl k w) s (IuFails k 1 7 s)) ∧
          (v.issued ≠ 0 → v.left ≤ 1 → Reaches (.endl k w) s (IuGoes k 1 (pc + 1) { q with loops := rest } [] s)) ∧
          (∀ x, v.issued ≠ 0 → 1 < v.left → codeAt k v.pc s = some x → hasRoutine k (x / 2 ^ 56) s = true → v.pc < 65536 →
            Reaches (.endl k w) s (fun t => ∃ v', IuGoes k 1 v.pc { q with loops := v' :: rest, ptr := v.ptr } [] s t ∧
              v'.left = v.left - 1 ∧ v'.pc = v.pc ∧ v'.ptr = v.ptr ∧ v'.issued = 0 ∧ v'.pass = v.pass + 1)))) ∧
      (IuReady k 6 w s → w.flags = 0 → w.a = 0 →
        (∀ x, codeAt k w.b.toNat s = some x → hasRoutine k (x / 2 ^ 56) s = true → w.b.toNat < 65536 →
          Reaches (.jump k w) s (IuGoes k 3 w.b.toNat q [] s)) ∧
        (codeAt k w.b.toNat s = none → Reaches (.jump k w) s (IuFails k 3 9 s))) ∧
      (rd (K.jtEnable k) s = 0 → q.pre = none → q.preErr = none →
        (IuReady k 6 w s → w.flags = 1 → w.a = 0 → q.loops = [] → pageMapped w.b.toNat s = true →
          Reaches (.jump k w) s (Enters k w.b.toNat 0 0 1 q.calls s)) ∧
        (IuReady k 4 w s → w.flags = 0 → w.a = 0 → q.ptr % granuleOf k s = 0 → q.calls.length < 16 →
          pageMapped w.b.toNat s = true →
          Reaches (.call k w) s (Enters k w.b.toNat 0 0 1
            ({ page := q.page, pc := pc + 1, ptr := q.ptr, loops := q.loops.length, entry := q.entry } :: q.calls) s)) ∧
        (IuReady k 4 w s → w.flags = 0 → w.a = 0 → q.ptr % granuleOf k s = 0 → 16 ≤ q.calls.length →
          Reaches (.call k w) s (IuFails k 3 8 s)) ∧
        (∀ c rest, IuReady k 5 w s → bare → q.calls = c :: rest → c.loops = q.loops.length →
          Reaches (.ret k w) s (Enters k (rawPage c.page) c.pc c.ptr (if c.entry = 0 then 2 else c.entry) rest s)) ∧
        (IuReady k 5 w s → bare → q.calls = [] → Reaches (.ret k w) s (IuFails k 3 8 s)))) ∧
  (∀ (k : Fin 16) (w : SeqWord) (s : State),
      let q := seq k s
      let f := w.flags.toNat
      let a := w.a.toNat
      let gr := fun i => rd (K.gr k i) s
      let gran := granuleOf k s
      (IuReady k 1 w s → f < 4 → a < 256 → (f % 2 = 1 → w.b = 0) →
        let first := if 2 ≤ f then gr (a / 16) else q.ptr
        let n := if f % 2 = 1 then gr (a % 16) else w.b.toNat
        let cost := if 2 ≤ f then 2 else 1
        let aligned := 2 ≤ f → first % gran = 0
        (n = 0 ∨ vlenOf k s < first + n → Reaches (.run k w) s (IuFails k cost 3 s)) ∧
        (n ≠ 0 → first + n ≤ vlenOf k s → 2 ≤ f → first % gran ≠ 0 → Reaches (.run k w) s (IuFails k cost 4 s)) ∧
        (n ≠ 0 → first + n ≤ vlenOf k s → aligned → 16 ≤ q.queue.length → exec (.run k w) s = .next s) ∧
        (q.queue.length < 16 →
          (n ≠ 0 → first + n ≤ vlenOf k s → aligned → q.loops = [] →
            Reaches (.run k w) s (Issues k cost first n 1 .plain s)) ∧
          (∀ v x, n ≠ 0 → first + n ≤ vlenOf k s → f < 2 → q.loops = [v] → q.calls = [] → v.pc = pcOf k s → v.pass = 1 →
            codeAt k (pcOf k s + 1) s = some x → x / 2 ^ 56 = 3 →
            Reaches (.run k w) s (fun t => Issues k cost first n v.left .plain s t ∧
              ∃ v', (seq k t).loops = [v'] ∧ v'.left = 1 ∧ v'.issued = v.issued + n)))) ∧
      (IuReady k 8 w s → f % 2 = 0 → f < 8 → q.queue.length < 16 → q.ptr % gran = 0 → a % 2 ^ 14 ≠ 0 →
        q.ptr + a % 2 ^ 14 * gran ≤ vlenOf k s →
        let limit := if w.b = 0 then 2 ^ 32 else w.b.toNat
        Reaches (.matchBlock k w) s (fun t => Issues k 2 q.ptr (a % 2 ^ 14 * gran) limit .matchBlock s t ∧
          ∃ b, (seq k t).blks = q.blks ++ [b] ∧ b.isMatch = true ∧ b.limit = limit ∧ b.same = w.flags.getLsbD 1 ∧
            b.rly = w.flags.getLsbD 2 ∧ b.sites = participating k (rd (K.sm k (a / 2 ^ 14)) s) s ∧ b.decided = false)) ∧
      (IuReady k 9 w s → f = 0 → a < 2 ^ 14 → w.b.toNat / 2 ^ 24 = 0x20 → q.queue.length < 16 → q.ptr % gran = 0 → a ≠ 0 →
        q.ptr + a * gran ≤ vlenOf k s → q.events = [] →
        let limit := w.b.toNat % 2 ^ 24
        Reaches (.waitt k w) s (fun t => Issues k 2 q.ptr (a * gran) (if limit = 0 then 2 ^ 32 else limit) .waitBlock s t ∧
          ∃ b, (seq k t).blks = q.blks ++ [b] ∧ b.isMatch = false ∧ b.source = 0x20 ∧ b.limit = limit ∧ b.event = none)) ∧
      (IuReady k 9 w s → f = 0 → a < 2 ^ 14 → 0x22 ≤ w.b.toNat / 2 ^ 24 → Reaches (.waitt k w) s (IuFails k 2 11 s)) ∧
      (IuReady k 0xA w s → f = 0 → a < 16 → q.queue.length < 16 → Reaches (.tsync k w) s (fun t =>
        let at_ := max (q.iuAt + 2 * 2048) q.freedAt
        (∃ r, (seq k t).queue = q.queue ++ [r] ∧ r.kind = .hold a w.b.toNat ∧ r.count = 0) ∧ (seq k t).wait = .hold ∧
        (seq k t).iuAt = at_ ∧ (seq k t).ptr = q.ptr ∧ (seq k t).marks = q.marks ∧ (seq k t).entry = q.entry ∧
        SeqFetchFrame k [] s t)) ∧
      (IuReady k 7 w s → f < 4 → a < 16 →
        let holds := xor ((rd (K.seqFlags k) s).testBit a) (w.flags.getLsbD 1)
        (holds = false → Reaches (.jif k w) s (IuGoes k 2 (pcOf k s + 1) q [] s)) ∧
        (∀ x, holds = true → f % 2 = 0 → codeAt k w.b.toNat s = some x → hasRoutine k (x / 2 ^ 56) s = true →
          w.b.toNat < 65536 → Reaches (.jif k w) s (IuGoes k 3 w.b.toNat q [] s))) ∧
      (∀ b, IuReady k 7 w s → f < 4 → a = 0x20 → latestBlk true q = some b → b.decided = false →
        Reaches (.jif k w) s (fun t => seq k t = { q with wait := .jif w } ∧ SeqFrame k [] s t)) ∧
      (IuReady k 7 w s → f < 4 → 0x39 ≤ a → a < 256 → Reaches (.jif k w) s (IuFails k 2 11 s))) ∧
  (∀ (k : Fin 16) (w : SeqWord) (s : State),
      let q := seq k s
      let f := w.flags.toNat
      let a := w.a.toNat
      (IuReady k 0xB w s → f < 2 → (f = 1 → a < 16) → w.b = 0 →
        let v := if f = 1 then rd (K.gr k a) s % 65536 else a
        Reaches (.mark k w) s (IuGoes k 1 (pcOf k s + 1) { q with marks := q.marks ++ [v] } [] s)) ∧
      (IuReady k 0xE w s → f < 2 → a < 2 ^ 14 → a / 64 % 4 = 0 → q.live = true → q.load = none →
        let size := 640 * (a % 64 + 1) * (members k s).length
        let waits := f = 1 ∨ dispatchLong k 0xE s = false
        (pageMapped w.b.toNat s = true → mapped (4096 * w.b.toNat) size s = true → fenced k s = false →
          Reaches (.tsload k w) s (fun t =>
            (∃ d, (seq k t).load = some d ∧ d.first = a / 256 % 64 ∧ d.count = a % 64 + 1 ∧ d.page = w.b.toNat ∧
              d.wait = decide waits ∧ d.committed = 0) ∧
            (seq k t).wait = (if waits then .load else .none) ∧ (seq k t).iuAt = max q.iuAt q.origin + 2 * 2048 ∧
            (rd (K.seqFlags k) t).testBit 24 = true ∧
            (∀ i, i ≠ 24 → (rd (K.seqFlags k) t).testBit i = (rd (K.seqFlags k) s).testBit i) ∧
            rd (K.mcRoutine k) t = 1 ∧ rd (K.seqPc k) t = (if waits then pcOf k s else pcOf k s + 1) ∧
            SeqFetchFrame k [K.seqPc k, K.seqFlags k, K.mcRoutine k] { s with free := s.free + 1 } t)) ∧
        (pageMapped w.b.toNat s = false → q.origin ≤ q.iuAt → Reaches (.tsload k w) s (IuFails k 2 10 s)) ∧
        (pageMapped w.b.toNat s = true → mapped (4096 * w.b.toNat) size s = false → Reaches (.tsload k w) s (fun t =>
          (∃ e, (seq k t).headErr = some e ∧ e.code = 7 ∧
            seq k t = { q with iuAt := max q.iuAt q.origin + 2 * 2048, headErr := some e, ending := some .fmtErr }) ∧
          SeqFrame k [] s t))) ∧
      (IuReady k 0xE w s → q.live = true → q.origin ≤ q.iuAt → 2 ≤ f ∨ 2 ^ 14 ≤ a ∨ a / 64 % 4 ≠ 0 →
        Reaches (.tsload k w) s (IuFails k 1 2 s)) ∧
      (q.live = false → exec (.tsload k w) s = .next s) ∧
      (IuReady k 0xF w s → f = 0 → a = 0 → w.b = 0 →
        (q.loops = [] → Reaches (.stop k w) s (fun t =>
          seq k t = { q with iuAt := q.iuAt + 2048, ending := some .stop } ∧ SeqFrame k [] s t)) ∧
        (q.loops ≠ [] → q.calls = [] → Reaches (.stop k w) s (IuFails k 1 6 s))) ∧
      (IuReady k 0x10 w s → f = 0 → w.b = 0 →
        (q.loops = [] → Reaches (.halt k w) s (fun t =>
          seq k t = { q with iuAt := q.iuAt + 2048, ending := some (.haltInstr a) } ∧ SeqFrame k [] s t)) ∧
        (q.loops ≠ [] → q.calls = [] → Reaches (.halt k w) s (IuFails k 1 6 s))))

/-- R104, R118, R119, R122, R123, R309: the exits of MATCH and WAITT, a repetition that decides nothing, and the end of a
TSYNC's hold.
R10, R121, R128, R153, R155, R169–R173: a set of a TSLOAD commits; the micro-engine is trapped and returns; a
boundary that nothing is requested at takes effect at its commit point; a host event reaches a waiting WAITT. -/
def Obligations.SequencerEvents : Prop :=
  ((∀ (k : Fin 16) (b : Block) (x : Rep) (s : State),
      let q := seq k s
      let marked := fun (f : Block → Block) => { q with blks := q.blks.map (fun y => if y.id = b.id then f y else y) }
      openMatch k s = some b → b.rly = false → dueRep k b s = some x →
      (decides b x = true → localMet b x = true → q.wait = .none → (∀ g, (grp g s).judges = []) →
        Reaches (.matchExitDecision k) s (fun t =>
          seq k t = marked (fun y => { y with
            judged := x.n, latched := passedOf b x, oks := (x.verdictAt.getD 0, localMet b x) :: b.oks, decided := true, known := x.verdictAt.getD 0
            exitAt := some (x.verdictAt.getD 0), reps := [] }) ∧
          rd (K.seqMatchPass k) t = passedOf b x ∧ (rd (K.seqFlags k) t).testBit 20 = false ∧
          t = { s with now := max s.now (x.verdictAt.getD 0), objs := t.objs, seqs := t.seqs } ∧
          (∀ m, m ≠ k.val → seq m t = seq m s) ∧ ObjsBut [K.seqMatchPass k, K.seqFlags k] s t)) ∧
      (decides b x = false → leader k s = k → Reaches (.verdictInstant k) s (fun t =>
        seq k t = marked (fun y => { y with
          judged := x.n, latched := passedOf b x, oks := (x.verdictAt.getD 0, localMet b x) :: b.oks
          reps := y.reps.filter (fun z => x.n < z.n || z.n == x.n) }) ∧
        t = { s with now := max s.now (x.verdictAt.getD 0), seqs := t.seqs } ∧ (∀ m, m ≠ k.val → seq m t = seq m s)))) ∧
    (∀ (k : Fin 16) (b : Block) (s : State),
      let q := seq k s
      openWait k s = some b → q.wait = .none →
      (∀ e, b.event = some e → (b.limit = 0 ∨ b.rep < b.limit) → Reaches (.waittExitDecision k) s (fun t =>
        seq k t = { q with blks := q.blks.map (fun y =>
          if y.id = b.id then { y with decided := true, known := e, exitAt := some e } else y) } ∧
        (rd (K.seqFlags k) t).testBit 21 = false ∧ t = { s with now := max s.now e, objs := t.objs, seqs := t.seqs } ∧
        (∀ m, m ≠ k.val → seq m t = seq m s) ∧ ObjsBut [K.seqFlags k] s t)) ∧
      (b.event = none → b.limit ≠ 0 → b.limit ≤ b.rep → Reaches (.waittExitDecision k) s (fun t =>
        seq k t = { q with blks := q.blks.map (fun y =>
          if y.id = b.id then { y with decided := true, known := b.since, exitAt := none } else y) } ∧
        (rd (K.seqFlags k) t).testBit 21 = true ∧ t = { s with now := max s.now b.since, objs := t.objs, seqs := t.seqs } ∧
        (∀ m, m ≠ k.val → seq m t = seq m s) ∧ ObjsBut [K.seqFlags k] s t))) ∧
    (∀ (k : Fin 16) (r : Range) (rest : List Range) (tmr lim : Nat) (s : State),
      let q := seq k s
      q.live = true → leader k s = k → fenced k s = false → runState k s = 3 → q.queue = r :: rest → r.kind = .hold tmr lim →
      q.wait = .none →
      (∀ e, q.holdEdge = some e → e ≤ q.nextAt → Reaches (.tsyncRelease k) s (fun t =>
        (rd (K.seqFlags k) t).testBit 22 = false ∧ (rd (K.seqFlags k) t).testBit 23 = false ∧ (seq k t).queue = rest ∧
        (seq k t).holdEdge = none ∧ (seq k t).holdEnd = none ∧ (seq k t).syncAt = q.nextAt ∧ (seq k t).nextAt = q.nextAt ∧
        t.now = max s.now q.nextAt ∧ SeqFrame k [K.seqFlags k] { s with now := t.now } t)) ∧
      (∀ e, q.holdEdge = none → q.holdEnd = some e → e ≠ 0 → e ≤ q.nextAt → Reaches (.tsyncRelease k) s (fun t =>
        (rd (K.seqFlags k) t).testBit 22 = false ∧ (rd (K.seqFlags k) t).testBit 23 = true ∧ (seq k t).queue = rest ∧
        (seq k t).syncAt = q.nextAt ∧ t.now = max s.now q.nextAt ∧ SeqFrame k [K.seqFlags k] { s with now := t.now } t)))) ∧
  ((∀ (k : Fin 16) (d : Load) (rec0 : Bytes) (s : State),
      let q := seq k s
      let ts := d.first + d.committed
      q.load = some d → leader k s = k → fenced k s = false → loadDue k s = true → members k s = [k.val] →
      Tab.get [] d.committed d.recs = rec0 → setLoads k ts [rec0] s = true → d.committed + 1 < d.count →
      Reaches (.tsloadCommit k) s (fun t =>
        tsPeriodOf k ts t = leAt 0 4 rec0 ∧
        (∀ c, c < 16 → tset (16 * k + c) ts t = parseSet (slice (8 + 36 * c) 36 rec0)) ∧
        seq k t = { q with load := some { d with committed := d.committed + 1, shut := d.shut.drop 1 } } ∧
        (∀ m, m ≠ k.val → seq m t = seq m s) ∧
        t = { s with now := max s.now q.cycAt, sets := t.sets, periods := t.periods, seqs := t.seqs })) ∧
    (∀ (k : Fin 16) (cause : Fin 7) (d : Load) (s : State),
      let q := seq k s
      let cycle := max (max q.iuAt (if needsSlot k s = true then q.freedAt else 0)) d.retAt / 2048
      let ends := (cycle + 1) * 2048
      let had := match d.since, d.firstAt with | some x, some y => ends - nextSeqclk (max x y) | _, _ => 0
      q.load = some d → d.trapped = false → d.wait = false → leader k s = k → fenced k s = false →
      (cause.val ≠ trapCause q → exec (.microTrap k cause) s = .next s) ∧
      (q.wait = .none → q.ending = none → (needsSlot k s = true → q.queue.length < 16) → cause.val = d.cause →
        Reaches (.microTrap k cause) s (fun t =>
          (∃ m, seq k t = { q with
            iuAt := (cycle + 3) * 2048
            load := some { d with trapped := true, since := none, credit := d.credit + had, shut := d.closedBy k ends s
                                  micro := m } }) ∧
          (∀ m, m ≠ k.val → seq m t = seq m s) ∧
          rd (K.mcTraps k) t = min (2 ^ 32 - 1) (rd (K.mcTraps k) s + 1) ∧ ObjsBut [K.mcTraps k] s t ∧
          (let frame := blob [] (K.mcTrapFrame k) t
           frame.length = 64 ∧ leAt 0 4 frame / 2 ^ 26 = 32 + cause.val ∧ leAt 4 4 frame / 2 ^ 26 % 16 = 0 ∧
           leAt 8 2 frame = d.committed % 65536 ∧ leAt 12 2 frame = d.count % 65536 ∧
           leAt 48 4 frame = nextFetch k d s % 2 ^ 32 ∧ slice 56 8 frame = List.replicate 8 0) ∧
          t = { s with objs := t.objs, blobs := t.blobs, seqs := t.seqs, free := s.free + had / 2048 * 11 }))) ∧
    (∀ (k : Fin 16) (d : Load) (s : State),
      let q := seq k s
      let waits := (∀ page, q.wait ≠ .head page) ∧
        (q.wait = .none → q.ending ≠ none ∨ (16 ≤ q.queue.length ∧ needsSlot k s = true))
      let retAt := (q.iuAt + 2047) / 2048 * 2048 + 2 * 2048
      q.load = some d → d.trapped = true →
      (waits → Reaches (.trapReturn k) s (fun t =>
        seq k t = { q with load := some { d with
          trapped := false, retAt, cause := 1, since := some retAt } } ∧
        SeqFrame k [] s t)) ∧
      (¬ waits → exec (.trapReturn k) s = .next s)) ∧
    (∀ (k : Fin 16) (page : Nat) (c : Nat × Nat) (s : State),
      let q := seq k s
      q.wait = .commit (.jump page) → leader k s = k → fenced k s = false → q.load = none → commitAt k s = some c →
      (∀ r ∈ q.jumps, max (c.2 / 2048 * 2048) q.iuAt < r.due) → requestTaken k c s = false → q.loops = [] → pageMapped page s = true → q.pre = none → q.preErr = none →
      Reaches (.commitPoint k) s (fun t =>
        (seq k t).page = keyOf k page s ∧ (seq k t).ptr = 0 ∧ (seq k t).entry = 1 ∧ (seq k t).calls = q.calls ∧
        (seq k t).iuAt = max q.iuAt c.2 + 3 * 2048 ∧ ((seq k t).wait = .none ∨ (seq k t).wait = .head page) ∧
        rd (K.seqPc k) t = 0 ∧ SeqFetchFrame k [K.seqPc k, K.seqErr k, K.seqErrPc k, K.seqErrSeg k] s t)) ∧
    (∀ (k : Fin 16) (b : Block) (s0 : State) (v : Byte),
      HostDoes (.seqHostEventWrite · k [v]) opWrite (K.seqHostEvent k) [v] 0 false
        (fun _ s => s = s0 ∧ v.toNat = 1 ∧ leader k s = k ∧
          (seq k s).blks.find? (fun y => !y.isMatch && !y.decided && y.source == 0x20 && y.event.isNone) = some b)
        (fun x s t => (∃ u, Crosses s u ∧
            seq k t = { seq k s with blks := (seq k s).blks.map (fun y => if y.id = b.id then { y with event := some u } else y) }) ∧
          (∀ m, m ≠ k.val → seq m t = seq m s) ∧
          t = { s with seqs := t.seqs, free := t.free, sessions := t.sessions, baton := t.baton } ∧ HostFrame x s t) ∧
      HostDoes (.seqHostEventWrite · k [v]) opWrite (K.seqHostEvent k) [v] 0 false (fun _ s => v.toNat = 0 ∧ leader k s = k)
        (fun x s t => HostObjs [] x s t)))

/-! ### Run control (06) -/

/-- R137, R138, R139, R140: the host's commands to a leader: each in the run states that R137 gives it, and refused with
STATE in every other, while an arming goes on, and with REFUSED on a member that does not lead. Those that act on a
sequencer reach it 3 to 5 SEQCLK cycles on (R10). While TCLK is not locked no group leaves READY or ARMED (R12).
R143, R10: RUN_GROUP_START starts all the groups it names at one instant, or none of them. -/
def Obligations.RunCommands : Prop :=
  (∀ g : Fin 16,
      let key := K.runCmd g
      let at_ := fun (s : State) => leader g s = g ∧ rd (K.runArmBusy g) s = 0
      let states := fun (v : Nat) (s t : State) => ∀ m ∈ members g s, runState m t = v
      let service := fun (s t : State) => ∀ m ∈ members g s, rd (K.cgService m) t = if wantsWarmup g s then 1 else 0
      let keys := fun (s : State) => (members g s).map K.runState ++ (members g s).map K.cgService
      let runs := fun (s : State) => (members g s).map K.runState
      let kept := fun (s : State) (m : Nat) => (grp m s).fromOff
      let arms := fun (s : State) => at_ s ∧ runState g s = 1 ∧ rd (K.mcTsLock g) s = 0 ∧ rd K.mcPatchStatus s ≠ 4
      let readies := fun (off : Bool) (x : Session) (s t : State) => ∃ u, Crosses s u ∧ states 1 s t ∧ service s t ∧
        (∀ m ∈ members g s, grp m t = { grp m s with fromOff := off }) ∧ GrpsBut (members g s) s t ∧ HostFrame x s t ∧
        (SourceIdle g s → ObjsBut (keys s) s t ∧
          t = { s with now := u, free := t.free, objs := t.objs, grps := t.grps, sessions := t.sessions, baton := t.baton }) ∧
        (¬ SourceIdle g s → rd K.jtxPlay t = 0 ∧ t.jtx.startAt = none ∧ ObjsBut (K.jtxPlay :: keys s) s t ∧
          t = { s with
            now := u, free := t.free, objs := t.objs, grps := t.grps, jtx := t.jtx, sessions := t.sessions, baton := t.baton
            dram := { s.dram with reqs := t.dram.reqs } })
      HostDoes (.enable · g) opWrite key [1] 0 false (fun _ s => at_ s ∧ runState g s = 0 ∧ s.jtag.acting = false)
        (readies true) ∧
      HostDoes (.disable · g) opWrite key [2] 0 false
        (fun _ s => at_ s ∧ ((runState g s = 1 ∧ tclkLocked s = true) ∨ runState g s = 5))
        (fun x s t => ∃ u, Crosses s u ∧ states 0 s t ∧ service s t ∧ LeavesRun g (fun _ => true) s t ∧
          (∀ n, n < 256 → chan n t = if n / 16 ∈ members g s then entersSafeFrom u (chan n s) else chan n s) ∧
          ObjsBut (keys s ++ baseKeys g s) s t ∧ HostFrame x s t ∧
          t = { s with
            now := u, free := t.free, rly := { s.rly with past := t.rly.past }, objs := t.objs, grps := t.grps, seqs := t.seqs, chans := t.chans, sessions := t.sessions, baton := t.baton
            dram := { s.dram with reqs := t.dram.reqs } }) ∧
      (∀ first : BitVec 32,
        HostDoes (.arm · g first) opWrite key [3] 0 false (fun _ s => arms s ∧ rd K.dramSpeedStatus s ≠ 2)
          (fun x s t => ∃ u, Crosses s u ∧ rd (K.runArmBusy g) t = 1 ∧ rd (K.runArmFail g) t = 0 ∧ rd (K.seqPc g) t = 0 ∧
            rd (K.seqFlags g) t = 0 ∧ rd (K.runHaltReason g) t = 0 ∧ rd (K.jtPending g) t = 0xFF ∧
            (∀ m ∈ members g s, runState m t = runState m s ∧ rd (K.capFill m) t = 0 ∧ rd (K.failLost m) t = 0 ∧
              (grp m t).fifo = [] ∧ (grp m t).stage = [] ∧ (grp m t).grans = []) ∧
            (seq g t).first = first.toNat ∧ (seq g t).wait = .head first.toNat ∧ (seq g t).armAt = u ∧ (seq g t).iuAt = u ∧
            (seq g t).queue = [] ∧ (∀ k, plainObj k = true → rd k t = rd k s) ∧ GrpsBut (members g s) s t ∧
            SeqsBut [g] s t ∧ HostFrame x s t ∧
            t = { s with
              now := u, free := t.free, objs := t.objs, grps := t.grps, seqs := t.seqs
              sessions := t.sessions, baton := t.baton, dram := { s.dram with reqs := t.dram.reqs } }) ∧
        HostDoes (.arm · g first) opWrite key [3] 0 false (fun _ s => arms s ∧ rd K.dramSpeedStatus s = 2)
          (fun _ s t => rd (K.runArmFail g) t = 5 ∧ rd (K.tsCheck g) t = 0 ∧ rd (K.runArmBusy g) t = 0 ∧ runState g t = 1 ∧
            t.seqs = s.seqs) ∧
        HostRefuses (.arm · g first) opWrite key [3] 0 false Code.state
          (fun _ s => at_ s ∧ (runState g s ≠ 1 ∨ rd (K.mcTsLock g) s ≠ 0 ∨ rd K.mcPatchStatus s = 4))) ∧
      HostDoes (.start · g) opWrite key [4] 0 false
        (fun _ s => at_ s ∧ runState g s = 2 ∧ rd (K.runStartSrc g) s = 0 ∧ tclkLocked s = true)
        (fun x s t => ∃ u, Crosses s u ∧ states 3 s t ∧
          seq g t = { seq g s with startAt := some (nextTref u + (16 + rd (K.runStartDelay g) s) * 1024) } ∧
          HostSeqs (runs s) [g] x { s with now := u } t) ∧
      HostDoes (.disarm · g) opWrite key [5] 0 false
        (fun _ s => at_ s ∧ runState g s = 2 ∧ tclkLocked s = true ∧ (seq g s).jumps = [] ∧ SourceIdle g s)
        (fun x s t => ∃ u, Crosses s u ∧ states 1 s t ∧ service s t ∧ LeavesRun g (kept s) s t ∧
          rd (K.jtPending g) t = 0xFF ∧
          rd (K.jtDiscarded g) t = (if rd (K.jtPending g) s = 0xFF then rd (K.jtDiscarded g) s
            else min (2 ^ 32 - 1) (rd (K.jtDiscarded g) s + 1)) ∧
          ObjsBut (keys s ++ baseKeys g s ++ [K.jtPending g, K.jtDiscarded g]) s t ∧ HostFrame x s t ∧
          t = { s with
            now := u, free := t.free, objs := t.objs, grps := t.grps, seqs := t.seqs, sessions := t.sessions, baton := t.baton
            rly := { s.rly with past := t.rly.past }, dram := { s.dram with reqs := t.dram.reqs } }) ∧
      HostDoes (.pause · g) opWrite key [6] 0 false (fun _ s => at_ s ∧ runState g s = 3 ∧ (seq g s).stopped = none)
        (fun x s t => ∃ u, Crosses s u ∧ seq g t = { seq g s with pauseAt := (seq g s).pauseAt.or (some (u + 16 * 2048)) } ∧ HostSeqs [] [g] x s t) ∧
      HostDoes (.resume · g) opWrite key [7] 0 false
        (fun _ s => at_ s ∧ runState g s = 4 ∧ (seq g s).pauseWhy = 1 ∧ (seq g s).stopped = none)
        (fun x s t => ∃ u, Crosses s u ∧ seq g t = { seq g s with resumeAt := (seq g s).resumeAt.or (some (u + 8 * 2048)) } ∧ HostSeqs [] [g] x s t) ∧
      HostDoes (.hostHalt · g) opWrite key [8] 0 false (fun _ s => at_ s ∧ busyState (runState g s) = true)
        (fun x s t => ∃ u, Crosses s u ∧ seq g t = { seq g s with haltAt := (seq g s).haltAt.or (some u) } ∧ HostSeqs [] [g] x s t) ∧
      HostDoes (.clear · g) opWrite key [9] 0 false (fun _ s => at_ s ∧ runState g s = 5)
        (readies false) ∧
      HostRefuses (.enable · g) opWrite key [1] 0 false Code.state
        (fun _ s => at_ s ∧ (runState g s ≠ 0 ∨ s.jtag.acting = true)) ∧
      HostRefuses (.disable · g) opWrite key [2] 0 false Code.state
        (fun _ s => at_ s ∧ runState g s ≠ 5 ∧ (runState g s ≠ 1 ∨ tclkLocked s = false)) ∧
      HostRefuses (.start · g) opWrite key [4] 0 false Code.state
        (fun _ s => at_ s ∧ (runState g s ≠ 2 ∨ rd (K.runStartSrc g) s ≠ 0 ∨ tclkLocked s = false)) ∧
      HostRefuses (.disarm · g) opWrite key [5] 0 false Code.state
        (fun _ s => at_ s ∧ (runState g s ≠ 2 ∨ tclkLocked s = false)) ∧
      HostRefuses (.pause · g) opWrite key [6] 0 false Code.state
        (fun _ s => at_ s ∧ (runState g s ≠ 3 ∨ (seq g s).stopped ≠ none)) ∧
      HostRefuses (.resume · g) opWrite key [7] 0 false Code.state
        (fun _ s => at_ s ∧ (runState g s ≠ 4 ∨ (seq g s).pauseWhy ≠ 1 ∨ (seq g s).stopped ≠ none)) ∧
      HostRefuses (.hostHalt · g) opWrite key [8] 0 false Code.state (fun _ s => at_ s ∧ busyState (runState g s) = false) ∧
      HostRefuses (.clear · g) opWrite key [9] 0 false Code.state (fun _ s => at_ s ∧ runState g s ≠ 5) ∧
      HostRefuses (.enable · g) opWrite key [1] 0 false Code.state (fun _ s => leader g s = g ∧ rd (K.runArmBusy g) s ≠ 0) ∧
      HostRefuses (.enable · g) opWrite key [1] 0 false Code.refused (fun _ s => leader g s ≠ g)) ∧
  (∀ p : Bytes, p.length = 2 →
      let gs := bitsOf (leNat p) 16
      let ok := fun (s : State) => (∀ g ∈ gs, leader g s = g ∧ runState g s = 2 ∧ rd (K.runStartSrc g) s = 0 ∧
        rd (K.runArmBusy g) s = 0) ∧ tclkLocked s = true
      HostDoes (.runGroupStart · p) opWrite K.runGroupStart p 0 false (fun _ s => ok s)
        (fun x s t => ∃ u, Crosses s u ∧
          (∀ g ∈ gs, seq g t = { seq g s with startAt := some (nextTref u + (16 + rd (K.runStartDelay g) s) * 1024) }) ∧
          (∀ m, m < 16 → runState m t = if leader m s ∈ gs then 3 else runState m s) ∧
          HostSeqs ((List.range 16).map K.runState) gs x { s with now := u } t) ∧
      HostRefuses (.runGroupStart · p) opWrite K.runGroupStart p 0 false Code.state (fun _ s => ¬ ok s))

/-- R141, R144, R146, R174: an arming whose steps all pass enters ARMED, where a firing of the armed timer still to come
or an activation in progress on the armed level input starts the group at once; one that fails a step leaves READY with
RUN_ARM_FAIL, and with SEG_ERR where a check of the first segment's image failed (R96, R99).
R142, R158, R159, R160, R161, R162, R206, R446: the first cycle and what is aligned to it (R46, R318, R323), a pause
and a halt that take effect, a pause that ends by the lead restored, and the end of a run. -/
def Obligations.RunEvents : Prop :=
  (∀ (g : Fin 16) (s : State), rd (K.runArmBusy g) s = 1 → fenced g s = false →
      let states := fun (v : Nat) (t : State) => ∀ m ∈ members g s, runState m t = v
      let passed := fun (t : State) => rd (K.runArmBusy g) t = 0 ∧ rd (K.runArmFail g) t = 0 ∧
        rd (K.tsCheck g) t = 0 ∧ rd (K.mcAbandon g) t = 0 ∧ rd (K.mcAbandonTotal g) t = 0
      let keys := (members g s).map K.runState ++
        [K.runArmBusy g, K.runArmFail g, K.tsCheck g, K.mcAbandon g, K.mcAbandonTotal g]
      let noMap := ∀ i, i < 8 → rd (K.trigType i) s = 0 ∨ (trig i s).active = false
      let src := rd (K.runStartSrc g) s
      let seen := fun (k : Nat) => ((seq g s).fires.filter (fun f => f.1 == k)).map (·.2)
      (armVerdict g s = some 0 → noMap →
        (src = 0 → Reaches (.armComplete g) s (fun t => states 2 t ∧ passed t ∧ OnlyObjs keys s t)) ∧
        (∀ k, k < 16 → src = 0x20 + k →
          ((∀ e ∈ seen k, e < s.now) → Reaches (.armComplete g) s (fun t => states 2 t ∧ passed t ∧
            rd (K.runStartLate g) t = (if seen k = [] then rd (K.runStartLate g) s else 1) ∧
            OnlyObjs (K.runStartLate g :: keys) s t)) ∧
          (∀ e ∈ seen k, s.now ≤ e → (∀ x ∈ seen k, s.now ≤ x → e ≤ x) → Reaches (.armComplete g) s (fun t =>
            states 3 t ∧ passed t ∧ seq g t = { seq g s with startAt := some (e + rd (K.runStartDelay g) s * 1024) } ∧
            rd (K.runStartLate g) t = (if (seen k).any (· < s.now) then 1 else rd (K.runStartLate g) s) ∧
            ObjsBut (K.runStartLate g :: keys) s t ∧ SeqsBut [g] s t ∧ t = { s with objs := t.objs, seqs := t.seqs })))) ∧
      (∀ i, i < 8 → armVerdict g s = some 0 → src = 0x10 + i → rd (K.trigType i) s = 1 → (trig i s).active = true →
        g.val ∉ (trig i s).firedBy → rd (K.jtEnable g) s = 0 → Reaches (.armComplete g) s (fun t =>
          states 3 t ∧ passed t ∧
          seq g t = { seq g s with
            startAt := some (max (nextTref s.now) (trig i s).since + (40 + rd (K.runStartDelay g) s) * 1024) } ∧
          trig i t = { trig i s with firedBy := g.val :: (trig i s).firedBy } ∧
          ObjsBut keys s t ∧ SeqsBut [g] s t ∧ t = { s with objs := t.objs, seqs := t.seqs, trigs := t.trigs })) ∧
      (∀ c, armVerdict g s = some c → 1 ≤ c → runState g s ≤ 1 → NoRequest g s → Reaches (.armComplete g) s (fun t =>
        rd (K.runArmFail g) t = c ∧ rd (K.runArmBusy g) t = 0 ∧ (∀ m, runState m t = runState m s) ∧
        rd (K.tsCheck g) t = (if c = 3 then tsCheck g s else 0) ∧
        (∀ m ∈ members g s, rd (K.cgService m) t = if wantsWarmup g s then 1 else 0) ∧
        (∀ e, c = 5 → firstFailed g s = some e → rd (K.segErr g) s < 2 ^ 31 →
          rd (K.segErr g) t = 2 ^ 31 + e.member * 2 ^ 24 + e.code ∧ rd (K.segErrAddr g) t = 4096 * e.page ∧
          rd (K.segErrGran g) t = e.gran ∧ rd (K.segErrOff g) t = e.off) ∧
        LeavesRun g (fun m => (grp m s).fromOff) s t ∧
        ObjsBut ([K.runArmBusy g, K.runArmFail g, K.tsCheck g] ++ (members g s).map K.cgService ++ baseKeys g s ++
          (if c = 4 ∨ c = 5 then [K.segErr g, K.segErrAddr g, K.segErrGran g, K.segErrOff g] else [])) s t ∧
        t = { s with objs := t.objs, grps := t.grps, seqs := t.seqs, dram := { s.dram with reqs := t.dram.reqs }
                     rly := { s.rly with past := t.rly.past } })) ∧
      (armVerdict g s = none → exec (.armComplete g) s = .next s)) ∧
  (∀ (g : Fin 16) (s : State), leader g s = g →
      let q := seq g s
      let runs := (members g s).map K.runState
      let bound := fun (n : Nat) => n < 16 ∧ leader n s = g
      let halts := fun (u : Nat) (t : State) => (∀ m ∈ members g s, runState m t = 5) ∧
        rd (K.runHaltReason g) t = 2 ∧ rd (K.runHaltVec g) t = 0 ∧ LeavesRun g (fun m => (grp m s).fromOff) s t ∧
        (seq g t).haltAt = none ∧ (seq g t).startAt = none ∧
        ObjsBut ([K.runHaltReason g, K.runHaltVec g] ++ runs ++ baseKeys g s) s t ∧
        t = { s with now := max s.now u, objs := t.objs, grps := t.grps, seqs := t.seqs
                     dram := { s.dram with reqs := t.dram.reqs }, rly := { s.rly with past := t.rly.past } }
      (∀ at_, q.startAt = some at_ → runState g s = 3 → tclkLocked s = true → (∀ h, q.haltAt = some h → at_ < h) →
        Reaches (.firstCycleStart g) s (fun t =>
          seq g t = { q with startAt := none, live := true, nextAt := at_, origin := at_
                             iuAt := max q.iuAt q.freedAt, period := firstPeriod g s } ∧
          rd (K.runStartTime g) t = actAt at_ (toTime at_ s) ∧ SeqsBut [g] s t ∧
          (∀ k, k < 8 → sysch k t =
            if bound (rd (K.sysAlignGroup k) s) ∧ rd (K.sysMode k) s = 3 then
              { sysch k s with running := true, next := at_, resync := false }
            else if bound (rd (K.sysAlignGroup k) s) ∧ rd (K.sysMode k) s = 4 then { sysch k s with pulse := some at_ }
            else sysch k s) ∧
          t.jtx = (if bound (rd K.jtxGroup s) ∧ rd K.jtxPlay s = 1 then
            { s.jtx with startAt := some (at_ + rd K.jtxStartDelay s * 1024) } else s.jtx) ∧
          (if bound (rd K.jrxGroup s) ∧ rd K.jrxEn s = 1 ∧ s.jrx.capturing = false then
            rd K.jrxWr t = 0 ∧ t.jrx = { s.jrx with
              capturing := true, fresh := true, recorded := 0, part := [], base := lemcAfter K.jrxParams s.jrx.lemc (at_ + 1) s }
            else rd K.jrxWr t = rd K.jrxWr s ∧ t.jrx = s.jrx) ∧
          ObjsBut [K.runStartTime g, K.jrxWr] s t ∧
          t = { s with now := max s.now at_, objs := t.objs, seqs := t.seqs, sysch := t.sysch, jtx := t.jtx, jrx := t.jrx })) ∧
      (q.live = true → pauseDue g s = true → haltDue q = false →
        (runsShort g s = false → Reaches (.pauseTakesEffect g) s (fun t =>
          (∀ m ∈ members g s, runState m t = 4) ∧
          seq g t = { q with pauseAt := none, pauseWhy := 1, pauseFrom := q.nextAt, resumeAt := none } ∧
          ObjsBut runs s t ∧ SeqsBut [g] s t ∧ t = { s with objs := t.objs, seqs := t.seqs })) ∧
        (runsShort g s = true → Reaches (.pauseTakesEffect g) s (fun t =>
          seq g t = { q with pauseAt := none } ∧ SeqsBut [g] s t ∧ t = { s with seqs := t.seqs }))) ∧
      (∀ a, q.haltAt = some a → tclkLocked s = true → NoRequest g s → SourceIdle g s →
        (runState g s = 2 → Reaches (.haltTakesEffect g) s (halts a)) ∧
        (∀ at_, runState g s = 3 → q.live = false → q.startAt = some at_ → a ≤ at_ →
          Reaches (.haltTakesEffect g) s (halts at_))) ∧
      (∀ a, q.haltAt = some a → tclkLocked s = true → (runState g s = 3 ∨ runState g s = 4) → q.live = true → a ≤ q.nextAt →
        q.dead = none → q.stopped = none → 0 < q.played → q.queue = [] → q.marks = [] → q.load = none → q.gap = none →
        q.heads = [] → rd (K.cgService g) s = 0 → (∀ m, m < 16 → (grp m s).judges = []) →
        (∀ n, n < 256 → (chan n s).sched = [] ∧ (chan n s).win = [] ∧ (chan n s).tdcH = [] ∧ (chan n s).tdcL = []) →
        Reaches (.haltTakesEffect g) s (fun t =>
          (seq g t).stopped = some .hostHalt ∧ (seq g t).cur = none ∧ (seq g t).haltAt = none ∧
          (seq g t).cyc = q.cyc + 1 ∧ (seq g t).cycAt = q.nextAt ∧ (seq g t).nextAt = q.nextAt + q.period ∧
          rd (K.runPauseCycles g) t = (if runState g s = 4 ∧ q.pauseWhy = 2 then
              min (2 ^ 32 - 1) (rd (K.runPauseCycles g) s + seqEdges q.pauseFrom q.nextAt) else rd (K.runPauseCycles g) s) ∧
          SeqsBut [g] s t ∧ ObjsBut [K.runPauseCycles g] s t ∧ (∀ n, chan n t = chan n s) ∧ (∀ m, grp m t = grp m s) ∧
          t = { s with now := max s.now q.nextAt, objs := t.objs, seqs := t.seqs, chans := t.chans, grps := t.grps })) ∧
      (runState g s = 4 → q.pauseWhy = 2 → q.resumeAt = none → q.stopped = none → runsShort g s = false →
        (q.cur ≠ none ∨ q.queue ≠ [] ∨ q.ending ≠ none) → leadReached g (rd (K.rfLeadResumeNs g) s) s = true →
        Reaches (.underrunResume g) s (fun t =>
          seq g t = { q with resumeAt := some s.now } ∧ SeqsBut [g] s t ∧ t = { s with seqs := t.seqs })) ∧
      (∀ k v, q.stopped = some k → q.verdictAt = some v → q.dead = none → q.load = none → q.blks = [] →
        NoRequest g s → SourceIdle g s → rd (K.runArmBusy g) s = 0 →
        (∀ m ∈ members g s, (grp m s).judges = [] ∧ (grp m s).fifo = [] ∧ rd (K.capFill m) s = 0) →
        let h := q.haltAt.isSome
        Reaches (.endOfRun g) s (fun t =>
          (∀ m ∈ members g s, runState m t = (if k = .stop ∧ h = false then 1 else 5)) ∧
          (k = .stop → h = false → ∀ m ∈ members g s, rd (K.cgService m) t = if wantsWarmup g s then 1 else 0) ∧
          (k ≠ .stop ∨ h = true → rd (K.runHaltReason g) t = (if h then 2 else haltReason k) ∧ rd (K.runHaltVec g) t = q.played) ∧
          (∀ c, k = .haltInstr c → h = false → rd (K.seqHaltCode g) t = c) ∧
          GroupsLeave g (fun _ => false) s t ∧ (seq g t).live = false ∧ (seq g t).stopped = none ∧ (seq g t).queue = [] ∧
          (seq g t).cur = none ∧ (seq g t).haltAt = none ∧ SeqsBut [g] s t ∧
          ObjsBut ([K.runHaltReason g, K.runHaltVec g, K.seqHaltCode g] ++ runs ++ (members g s).map K.cgService ++
            baseKeys g s) s t ∧
          t = { s with now := max s.now v, objs := t.objs, grps := t.grps, seqs := t.seqs
                       dram := { s.dram with reqs := t.dram.reqs } })))

/-! ### Triggers and jump requests (06) -/

/-- R145, R146, R147: a trigger input becomes active, inactive, or stays active too long; a start, a WAITT or a jump map
entry that is armed on it fires.
R149, R152, R163: a host's pulse on a trigger output and its end; a host's jump request, which is pending from the
instant at which it reaches the sequencer, and a trigger's or the ring's, which the next cycle start finds there. -/
def Obligations.Triggers : Prop :=
  (∀ (i : Fin 8) (edge : Nat) (s : State),
      let x := trig i s
      let on := max (edge * 1024) (nextTref s.now)
      let at_ := max (edge * 1024) s.now
      let others := fun (t : State) => ∀ j, j ≠ i.val → trig j t = trig j s
      let starts := fun (l : Nat) => runState l s = 2 ∧ rd (K.runStartSrc l) s = 0x10 + i
      let noMap := ∀ l, l < 16 → trigMap l i s = 0xFF
      let noWait := ∀ l, l < 16 → waitArmed l i s = false
      let quiet := ∀ l, l < 16 → (seq l s).jumps = []
      let fires := fun (t : State) => rd (K.trigLevel i) t = 1 ∧
        rd (K.trigFires i) t = min (2 ^ 32 - 1) (rd (K.trigFires i) s + 1) ∧ others t
      (x.active = true → exec (.triginActivation i edge) s = .next s) ∧
      (x.active = false → (∀ e, x.ended = some e → e + 13108 ≤ on) → quiet →
        (noWait → noMap → (∀ l, l < 16 → ¬ starts l) → Reaches (.triginActivation i edge) s (fun t => fires t ∧
          trig i t = { x with active := true, since := on, firedBy := [], stuck := false } ∧
          ObjsBut [K.trigLevel i, K.trigFires i] s t ∧ t = { s with now := on, objs := t.objs, trigs := t.trigs })) ∧
        (∀ g : Fin 16, members g s = [g.val] → leader g s = g → starts g → tclkLocked s = true → noWait → noMap →
          (∀ h, (seq g s).haltAt = some h → on < h) → (∀ l, l < 16 → l ≠ g.val → ¬ starts l) →
          Reaches (.triginActivation i edge) s (fun t => fires t ∧
            trig i t = { x with active := true, since := on, firedBy := [g.val], stuck := false } ∧
            runState g t = 3 ∧ seq g t = { seq g s with startAt := some (on + (40 + rd (K.runStartDelay g) s) * 1024) } ∧
            ObjsBut [K.trigLevel i, K.trigFires i, K.runState g] s t ∧ SeqsBut [g] s t ∧
            t = { s with now := on, objs := t.objs, trigs := t.trigs, seqs := t.seqs })) ∧
        (∀ g : Fin 16, leader g s = g → mapArmed g i s = true → noWait → (∀ l, l < 16 → ¬ starts l) →
          (∀ l, l < 16 → l ≠ g.val → trigMap l i s = 0xFF) → Reaches (.triginActivation i edge) s (fun t => fires t ∧
            trig i t = { x with active := true, since := on, firedBy := [16 + g.val], stuck := false } ∧
            seq g t = { seq g s with jumps := [⟨reachesSeq on, trigMap g i s, .trigger i.val⟩] } ∧
            ObjsBut [K.trigLevel i, K.trigFires i] s t ∧ SeqsBut [g] s t ∧
            t = { s with now := on, objs := t.objs, trigs := t.trigs, seqs := t.seqs })) ∧
        (∀ (g : Fin 16) (b : Block), leader g s = g → (seq g s).blks = [b] → waitArmed g i s = true → noMap →
          (∀ l, l < 16 → ¬ starts l) → (∀ l, l < 16 → l ≠ g.val → waitArmed l i s = false) →
          Reaches (.triginActivation i edge) s (fun t => fires t ∧
            trig i t = { x with active := true, since := on, firedBy := [32 + g.val], stuck := false } ∧
            seq g t = { seq g s with blks := [{ b with event := some (reachesSeq on) }] } ∧
            ObjsBut [K.trigLevel i, K.trigFires i] s t ∧ SeqsBut [g] s t ∧
            t = { s with now := on, objs := t.objs, trigs := t.trigs, seqs := t.seqs }))) ∧
      (∀ e, x.active = false → x.ended = some e → on < e + 13108 → Reaches (.triginActivation i edge) s (fun t =>
        trig i t = { x with active := true } ∧ others t ∧ rd (K.trigLevel i) t = 1 ∧
        rd (K.trigOverruns i) t = min (2 ^ 16 - 1) (rd (K.trigOverruns i) s + 1) ∧
        rd (K.trigStuck i) t = (if x.stuck then 1 else rd (K.trigStuck i) s) ∧
        ObjsBut [K.trigLevel i, K.trigOverruns i, K.trigStuck i] s t ∧
        t = { s with now := on, objs := t.objs, trigs := t.trigs
                     flt := if x.stuck then { s.flt with active := (32 + i.val) :: s.flt.active } else s.flt })) ∧
      (x.active = true → Reaches (.triginDeactivation i edge) s (fun t =>
        trig i t = { x with active := false, ended := some at_ } ∧ others t ∧
        rd (K.trigLevel i) t = 0 ∧ rd (K.trigStuck i) t = 0 ∧ ObjsBut [K.trigLevel i, K.trigStuck i] s t ∧
        t = { s with now := at_, objs := t.objs, trigs := t.trigs
                     flt := { s.flt with active := s.flt.active.filter (· != 32 + i.val) } })) ∧
      (x.active = true → x.stuck = false → 0 < rd (K.trigStuckUs i) s →
        (x.since + rd (K.trigStuckUs i) s * 1600 * 1024 < at_ → Reaches (.trigStuck i edge) s (fun t =>
          ∃ u, t = raiseFault (32 + i) u ∧ trig i u = { x with stuck := true } ∧ (∀ j, j ≠ i.val → trig j u = trig j s) ∧
          rd (K.trigStuck i) u = 1 ∧ ObjsBut [K.trigStuck i] s u ∧
          u = { s with now := at_, objs := u.objs, trigs := u.trigs })) ∧
        (at_ ≤ x.since + rd (K.trigStuckUs i) s * 1600 * 1024 → exec (.trigStuck i edge) s = .next s))) ∧
  ((∀ (j : Fin 8) (v : Byte),
      let touts := fun (o : Tout) (x : Session) (s t : State) => tout j t = o ∧ (∀ i, i ≠ j.val → tout i t = tout i s) ∧
        ObjsBut [K.toutCount j] s t ∧ HostFrame x s t ∧
        t = { s with objs := t.objs, touts := t.touts, sessions := t.sessions, baton := t.baton }
      HostDoes (.toutPulse · j [v]) opWrite (K.toutPulse j) [v] 0 false
        (fun _ s => v = 1 ∧ rd (K.toutSrc j) s = 3 ∧ fatal s = false ∧ (tout j s).pulses = [])
        (fun x s t => rd (K.toutCount j) t = min (2 ^ 32 - 1) (rd (K.toutCount j) s + 1) ∧
          touts { tout j s with pulses := [(nextTref s.now, nextTref s.now + rd (K.toutWidth j) s * 1024)] } x s t) ∧
      HostDoes (.toutPulse · j [v]) opWrite (K.toutPulse j) [v] 0 false
        (fun _ s => v.toNat ≤ 1 ∧ (v = 0 ∨ rd (K.toutSrc j) s ≠ 3)) (fun x s t => HostObjs [] x s t)) ∧
    (∀ (j : Fin 8) (b e : Nat) (rest : List (Nat × Nat)) (s : State), (tout j s).pulses = (b, e) :: rest → Reaches (.toutPulseEnd j) s (fun t =>
      tout j t = { tout j s with pulses := rest } ∧ (∀ i, i ≠ j.val → tout i t = tout i s) ∧
      t = { s with now := max s.now e, touts := t.touts })) ∧
    (∀ (k : Fin 16) (v : Byte),
      let ok := fun (s : State) => leader k s = k ∧ rd (K.jtEnable k) s = 1 ∧ busyState (runState k s) = true
      HostDoes (.jtReq · k [v]) opWrite (K.jtReq k) [v] 0 false
        (fun _ s => v.toNat < 16 ∧ ok s ∧ rd (K.jtEntry k v.toNat) s ≠ 0xFFFFFFFF)
        (fun x s t => ∃ u, Crosses s u ∧
          seq k t = { seq k s with jumps := insertJump ⟨u, v.toNat, .host⟩ (seq k s).jumps } ∧ HostSeqs [] [k] x s t) ∧
      HostRefuses (.jtReq · k [v]) opWrite (K.jtReq k) [v] 0 false Code.range (fun _ _ => 16 ≤ v.toNat) ∧
      HostRefuses (.jtReq · k [v]) opWrite (K.jtReq k) [v] 0 false Code.state
        (fun _ s => v.toNat < 16 ∧ leader k s = k ∧ (rd (K.jtEnable k) s ≠ 1 ∨ busyState (runState k s) = false)) ∧
      HostRefuses (.jtReq · k [v]) opWrite (K.jtReq k) [v] 0 false Code.refused
        (fun _ s => v.toNat < 16 ∧ (leader k s ≠ k ∨ (ok s ∧ rd (K.jtEntry k v.toNat) s = 0xFFFFFFFF)))) ∧
    (∀ (k : Fin 16) (r : JumpReq) (s : State), cycleDue k s = true → runState k s = 4 → (seq k s).resumeAt = none →
      (seq k s).jumps = [r] → r.due ≤ (seq k s).nextAt → (∀ i, i < 8 → trigMap k i s = 0xFF) →
      (jumpAccepted k r.entry s = true → Reaches (.cycleStart (.group k)) s (fun t => (seq k t).jumps = [] ∧
        rd (K.jtPending k) t = r.entry ∧ (seq k t).jtAt = r.due ∧ (seq k t).jtVec = (seq k s).played ∧
        (seq k t).jtFrom = (match r.src with | .trigger i => some i | _ => none) ∧ rd (K.jtDiscarded k) t = rd (K.jtDiscarded k) s ∧
        rd (K.jtReplaced k) t = (if rd (K.jtPending k) s = 0xFF then rd (K.jtReplaced k) s
          else min (2 ^ 32 - 1) (rd (K.jtReplaced k) s + 1)))) ∧
      (jumpAccepted k r.entry s = false → Reaches (.cycleStart (.group k)) s (fun t => (seq k t).jumps = [] ∧
        rd (K.jtPending k) t = rd (K.jtPending k) s ∧ rd (K.jtReplaced k) t = rd (K.jtReplaced k) s ∧
        rd (K.jtDiscarded k) t = min (2 ^ 32 - 1) (rd (K.jtDiscarded k) s + 1)))))

/-! ### Microcode patches (07) -/

/-- R181, R182: staging, verifying, applying and discarding a patch; what VERIFY finds, in its order; APPLY writes the
master image into the stores of every group that is not fenced. -/
def Obligations.PatchProcedure : Prop :=
  let status := K.mcPatchStatus
  let key := K.mcPatchCmd
  (∀ p : Bytes, 1 ≤ p.length → p.length ≤ 131072 →
    HostDoes (.mcPatchStageWrite · p) opWrite K.mcPatchStage p 2 true (fun _ s => rd status s ≠ 2 ∧ rd status s ≠ 4)
      (fun x s t => rd status t = 1 ∧ t.patch = { s.patch with stage := p } ∧ ObjsBut [status] s t ∧ HostFrame x s t ∧
        t = { s with objs := t.objs, patch := t.patch, sessions := t.sessions, baton := t.baton }) ∧
    HostRefuses (.mcPatchStageWrite · p) opWrite K.mcPatchStage p 2 true Code.state
      (fun _ s => rd status s = 2 ∨ rd status s = 4)) ∧
  HostDoes (.patchVerify ·) opWrite key [1] 2 true (fun _ s => rd status s = 1 ∨ rd status s = 3 ∨ 0x10 ≤ rd status s)
    (HostSets status 2) ∧
  HostRefuses (.patchVerify ·) opWrite key [1] 2 true Code.state
    (fun _ s => rd status s = 0 ∨ rd status s = 2 ∨ rd status s = 4 ∨ rd status s = 5) ∧
  HostDoes (.patchApply ·) opWrite key [2] 2 true
    (fun _ s => rd status s = 3 ∧ ∀ g, g < 16 → busyState (runState g s) = false ∧ rd (K.runArmBusy g) s = 0)
    (HostSets status 4) ∧
  HostRefuses (.patchApply ·) opWrite key [2] 2 true Code.state
    (fun _ s => rd status s ≠ 3 ∨ ∃ g, g < 16 ∧ (busyState (runState g s) = true ∨ rd (K.runArmBusy g) s ≠ 0)) ∧
  HostDoes (.patchDiscard ·) opWrite key [3] 2 true (fun _ s => rd status s ≠ 4 ∧ rd status s ≠ 5)
    (fun x s t => rd status t = 0 ∧ t.patch = { s.patch with stage := [] } ∧ ObjsBut [status] s t ∧ HostFrame x s t ∧
      t = { s with objs := t.objs, patch := t.patch, sessions := t.sessions, baton := t.baton }) ∧
  HostRefuses (.patchDiscard ·) opWrite key [3] 2 true Code.state (fun _ s => rd status s = 4 ∨ rd status s = 5) ∧
  (∀ s : State, rd status s = 2 →
    let b := s.patch.stage
    let body := slice 64 (leAt 16 4 b) b
    let version := rd K.mcodeVersion s
    let found := fun (v : Nat) => Reaches .patchVerifyComplete s (fun t => rd status t = v ∧
      OnlyObjs [status] { s with patch := { s.patch with signed := !s.patch.diagNext } } t)
    let level := leAt 8 1 b
    let low := level ≤ version / 256 % 256 ∨ level < rd K.mcMinLevel s
    let family := leAt 6 1 b = version / 2 ^ 24 % 256 ∧ leAt 7 1 b = version / 2 ^ 16 % 256
    let signed := s.patch.diagNext = true ∨
      Config.ecdsaVerify (codeKey s.boot.image) (b.take (64 + leAt 16 4 b)) (b.drop (64 + leAt 16 4 b)) = true
    (patchFormat b = false → found 0x10) ∧
    (patchFormat b = true → leAt 5 1 b ≠ s.otp.stepping → found 0x11) ∧
    (patchFormat b = true → leAt 5 1 b = s.otp.stepping →
      (¬ family → found 0x12) ∧
      (family → low → found 0x13) ∧
      (family → ¬ low → leAt 20 4 b ≠ crc32c body → found 0x14) ∧
      (family → ¬ low → leAt 20 4 b = crc32c body → found (if signed then 3 else 0x15)))) ∧
  (∀ (l : List (Nat × Bytes)) (s : State), rd status s = 4 →
    let b := s.patch.stage
    patchRecords (leAt 12 4 b) (slice 64 (leAt 16 4 b) b) = some l → Reaches .patchApplyComplete s (fun t =>
      t.patch.master = buildMaster s.patch.base l ∧ t.patch.diagNext = false ∧ t.patch.stage = b ∧
      t.patch.base = s.patch.base ∧
      (∀ g, g < 16 → Tab.get [] g t.patch.stores = if fenced g s then Tab.get [] g s.patch.stores else t.patch.master) ∧
      rd K.mcImageCrc t = crc32c t.patch.master ∧ rd K.mcodeVersion t / 2 ^ 16 = rd K.mcodeVersion s / 2 ^ 16 ∧
      rd K.mcodeVersion t / 256 % 256 = leAt 8 1 b ∧
      (rd K.mcodeVersion t).testBit 0 = ((rd K.mcodeVersion s).testBit 0 && s.patch.signed && !s.patch.diagNext) ∧
      rd status t = 5 ∧ ObjsBut [K.mcodeVersion, K.mcImageCrc, status] s t ∧
      t = { s with objs := t.objs, patch := t.patch })) ∧
  (∀ s : State, (rd status s ≠ 2 → exec .patchVerifyComplete s = .next s) ∧
    (rd status s ≠ 4 → exec .patchApplyComplete s = .next s))

/-! ### DRAM (08) -/

/-- R191, R194, R195, R200, R202: a subchannel issues a request of its own whose bank is neither blocked nor held for a
forced REFsb, from the port that comes first; within DP0 the urgent engine of least lead goes first, and of an engine its
TSLOAD records and heads; and its waiting time is noted. The DMA channels and the scrubber ask for their next bursts.
R70, R199, R200, R203: bursts that complete: a clean, a corrected and an uncorrectable read of the scrubber, a
write-back, a spill burst whose bytes reach DRAM; and a DP0 burst outstanding for more than 20 µs. -/
def Obligations.DramRequests : Prop :=
  (∀ (u : Fin 8) (s : State),
      let ready := fun (r : DReq) => r ∈ s.dram.reqs ++ standing s ∧ r.issued = false ∧ subchannelOf r.addr s = u ∧
        bankBlocked (bankIndex r.addr s) s = false ∧ bankHeld (bankIndex r.addr s) s = false
      let may := rd K.dramReady s ≠ 0 ∧ s.dram.pause ≠ some u.val
      (may → (∃ r, ready r) → Reaches (.dramCommandIssue u) s (fun t => ∃ r, ready r ∧ (∀ r', ready r' → r.port ≤ r'.port) ∧
        (r.port = 0 → ∀ r', ready r' → r'.port = 0 → reqLead r s ≤ reqLead r' s ∧
          (r'.owner.engine = r.owner.engine → reqRank r ≤ reqRank r')) ∧
        t.dram = { s.dram with reqs := s.dram.reqs.erase r ++ [{ r with issued := true }], turn := t.dram.turn
                               scrubAt := s.dram.scrubAt + if r.owner = .scrub then 1 else 0 } ∧
        (∀ v, v ≠ u.val ∨ r.port ≠ 0 → Tab.get 15 v t.dram.turn = Tab.get 15 v s.dram.turn) ∧
        rd (K.dpWaitMaxNs r.port) t = (if rd (K.dpWaitMaxNs r.port) s < spanNs (s.now - r.at0)
          then min (2 ^ 32 - 1) (spanNs (s.now - r.at0)) else rd (K.dpWaitMaxNs r.port) s) ∧
        ObjsBut [K.dpWaitMaxNs r.port] s t ∧ t = { s with objs := t.objs, dram := t.dram })) ∧
      ((¬ may ∨ ∀ r, ¬ ready r) → exec (.dramCommandIssue u) s = .next s)) ∧
  ((∀ (p : Fin 6) (a : Nat) (e : Ecc) (s : State), completed p (a / 64 * 64) s = none →
      exec (.dramBurstComplete p a e) s = .next s) ∧
    (∀ (a : Nat) (r : DReq) (s : State), a % 64 = 0 → completed 5 a s = some r → r.write = false → r.owner = .scrub →
      s.dram.bad = [] →
      let c := subchannelOf a s / 2
      let v := { s with dram := { s.dram with reqs := s.dram.reqs.erase r, scrubFrom := s.now } }
      let moved := fun (t : State) => rd (K.dpBytes 5) t = (rd (K.dpBytes 5) s + 64) % 2 ^ 64
      Reaches (.dramBurstComplete 5 a .clean) s (fun t => moved t ∧ OnlyObjs [K.dpBytes 5] v t) ∧
      Reaches (.dramBurstComplete 5 a .corrected) s (fun t => ∃ u, moved u ∧
        rd (K.dcEccCorr c) u = min (2 ^ 32 - 1) (rd (K.dcEccCorr c) s + 1) ∧ rd (K.dcEccLastAddr c) u = a ∧
        OnlyObjs [K.dpBytes 5, K.dcEccCorr c, K.dcEccLastAddr c] v u ∧
        t = queueReqs [{ port := 5, addr := a, write := true, owner := .writeBack, at0 := s.now }] (raiseFault (65 + 8 * c) u)) ∧
      Reaches (.dramBurstComplete 5 a .uncorrected) s (fun t => ∃ u, moved u ∧
        rd (K.dcEccUncorr c) u = min (2 ^ 32 - 1) (rd (K.dcEccUncorr c) s + 1) ∧ rd (K.dcEccLastAddr c) u = a ∧
        ObjsBut [K.dpBytes 5, K.dcEccUncorr c, K.dcEccLastAddr c] v u ∧
        u = { v with objs := u.objs, dram := { v.dram with bad := [a] } } ∧ t = raiseFault (67 + 8 * c) u)) ∧
    (∀ (a j : Nat) (words : List Word) (e : Ecc) (r : DReq) (s : State), a % 64 = 0 → completed 4 a s = some r → r.write = true →
      r.owner = .rqSpill j words → Reaches (.dramBurstComplete 4 a e) s (fun t =>
        let data := words.flatMap (fun w => leBytes 4 w.toNat)
        memBytes (slotAddr j s) data.length t = data ∧ MemElsewhere (slotAddr j s) data.length s t ∧
        rd (K.dpBytes 4) t = (rd (K.dpBytes 4) s + 64) % 2 ^ 64 ∧ ObjsBut [K.dpBytes 4] s t ∧
        t = { s with objs := t.objs
                     dram := { s.dram with mem := t.dram.mem, bad := t.dram.bad, reqs := s.dram.reqs.erase r } })) ∧
    (∀ (a q j : Nat) (r : DReq) (s : State), a % 64 = 0 → completed 4 a s = some r → r.write = false →
      r.owner = .rqFetch q j → s.dram.bad = [] → 0 < cacheFree s → Reaches (.dramBurstComplete 4 a .clean) s (fun t =>
        rqueue q t = { rqueue q s with
          items := (rqueue q s).items.map (fun i => if i.slot = some j then { i with slot := none } else i) } ∧
        (∀ m, m ≠ q → rqueue m t = rqueue m s) ∧ ObjsBut [K.dpBytes 4] s t ∧
        t = { s with objs := t.objs, queues := t.queues, dram := { s.dram with reqs := t.dram.reqs } })) ∧
    (∀ (a : Nat) (e : Ecc) (r : DReq) (s : State), a % 64 = 0 → completed 5 a s = some r → r.write = true →
      r.owner = .writeBack → Reaches (.dramBurstComplete 5 a e) s (fun t =>
        rd (K.dpBytes 5) t = (rd (K.dpBytes 5) s + 64) % 2 ^ 64 ∧ ObjsBut [K.dpBytes 5] s t ∧
        t = { s with objs := t.objs
                     dram := { s.dram with reqs := s.dram.reqs.erase r, bad := s.dram.bad.filter (· != a) } })) ∧
    (∀ (g : Fin 16) (a n : Nat) (e : Ecc) (r : DReq) (s : State), a % 64 = 0 → completed 1 a s = some r → r.write = true →
      r.owner = .capSpill g → (grp g s).spillCap = some n →
      let off := rd (K.capSpillWr g) s
      let base := rd (K.capSpillBase g) s + off
      let data := (oldestEntries g n s).flatMap (leBytes 16)
      Reaches (.dramBurstComplete 1 a e) s (fun t =>
        memBytes base data.length t = data ∧ MemElsewhere base data.length s t ∧
        rd (K.capSpillWr g) t = (off + 16 * n) % max 1 (rd (K.capSpillSize g) s) ∧
        grp g t = { grp g s with capDone := true, capHeld := (grp g s).capHeld + 16 * n } ∧
        GrpsBut [g] s t ∧ ObjsBut [K.dpBytes 1, K.capSpillWr g] s t ∧
        t = { s with objs := t.objs, grps := t.grps
                     dram := { s.dram with mem := t.dram.mem, bad := t.dram.bad, reqs := s.dram.reqs.erase r } })) ∧
    (∀ (g : Fin 16) (s : State),
      let late := fun (r : DReq) => r.owner.ofGroup g = true ∧ r.at0 + 32000 * 1024 < s.now
      ((∃ r ∈ s.dram.reqs, late r) → exec (.dp0Timeout g) s = .next (raiseFault (266 + 16 * g) s)) ∧
      ((∀ r ∈ s.dram.reqs, ¬ late r) → exec (.dp0Timeout g) s = .next s)))

/-- R194, R195: REFsb of a bank that is due and wanted by nobody, and forced after four postponed intervals; the poll of
MR4.
R196, R197: a training step pauses a subchannel only where every group can go without DRAM for it; it ends with its
evaluation; a pass that has to wait is reported once.
R198: a change of the DRAM speed from its request to its end. -/
def Obligations.DramUpkeep : Prop :=
  (∀ (u : Fin 8) (bank : Fin 4) (s : State),
      let i := 4 * u.val + bank.val
      let c := u.val / 2
      let n := refDue i u s
      let may := refreshable u s = true ∧ bankBlocked i s = false
      let done_ := fun (t : State) =>
        t = { s with objs := t.objs, dram := { s.dram with refAt := t.dram.refAt, blocked := t.dram.blocked } } ∧
        (∀ j, refUpTo j t = if j = i then refUpTo i s + tRefi u s else refUpTo j s) ∧
        (∀ x ∈ t.dram.blocked, x = (i, s.now + tRfc s) ∨ x ∈ s.dram.blocked) ∧ (i, s.now + tRfc s) ∈ t.dram.blocked
      (may → n ≠ 0 → bankWanted i false s = false → Reaches (.refresh u bank) s (fun t => done_ t ∧
        rd (K.dcRefPostponedMax c) t = max (rd (K.dcRefPostponedMax c) s) (min 4 (n - 1)) ∧
        ObjsBut [K.dcRefPostponedMax c] s t)) ∧
      (refreshable u s = true ↔ rd K.dramMappedBytes s ≠ 0 ∧ rd K.dramSpeedStatus s ≠ 2 ∧ fenced (0x20 + c) s = false ∧
        s.dram.pause ≠ some u.val) ∧
      ((n = 0 ∨ bankWanted i false s = true) → exec (.refresh u bank) s = .next s) ∧
      (may → 5 ≤ n → bankWanted i true s = true →
        (∀ r ∈ s.dram.reqs, ¬ (r.issued = true ∧ bankIndex r.addr s = i)) → Reaches (.forcedRefresh u bank) s (fun t =>
          done_ t ∧ rd (K.dcRefForced c) t = min (2 ^ 32 - 1) (rd (K.dcRefForced c) s + 1) ∧
          rd (K.dcRefPostponedMax c) t = max (rd (K.dcRefPostponedMax c) s) 4 ∧
          ObjsBut [K.dcRefPostponedMax c, K.dcRefForced c] s t)) ∧
      (n < 5 → exec (.forcedRefresh u bank) s = .next s) ∧
      (∀ doubled : Bool, Reaches (.mr4Poll u doubled) s (fun t =>
        t.dram.hot = putBit s.dram.hot u doubled ∧
        rd (K.dcTempHigh c) t = (if t.dram.hot.testBit (2 * c) ∨ t.dram.hot.testBit (2 * c + 1) then 1 else 0) ∧
        ObjsBut [K.dcTempHigh c] s t ∧ t = { s with objs := t.objs, dram := { s.dram with hot := t.dram.hot } }))) ∧
  (∀ (u : Fin 8) (s : State),
      let c := u.val / 2
      let open_ := rd K.dramReady s ≠ 0 ∧ fenced (0x20 + c) s = false
      (s.dram.pause = none → open_ → pauseAllowed s = true →
        (∀ r ∈ s.dram.reqs, ¬ (r.issued = true ∧ subchannelOf r.addr s = u)) → Reaches (.trainingPause u) s (fun t =>
          t.dram.pause = some u.val ∧ u.val ∈ t.dram.passing ∧ rd (K.dcState c) t = 1 + u.val % 2 ∧
          (∀ b, b < 4 → refDue (4 * u + b) u t = 0) ∧ (∀ j, j / 4 ≠ u.val → refUpTo j t = refUpTo j s) ∧
          ObjsBut [K.dcState c, K.dcRefPostponedMax c] s t ∧
          t = { s with objs := t.objs, dram := { s.dram with pause := t.dram.pause, passing := t.dram.passing
                                                             refAt := t.dram.refAt, blocked := t.dram.blocked } })) ∧
      (pauseAllowed s = false → exec (.trainingPause u) s = .next s) ∧
      (∀ last : Bool, s.dram.pause = some u.val → s.dram.discard = false → fenced (0x20 + c) s = false →
        let ended := fun (b : Bool) (l : List Nat) => if b then l.filter (· != u.val) else l
        let dram := fun (b : Bool) => { s.dram with pause := none, passing := ended b s.dram.passing, deferred := ended b s.dram.deferred }
        Reaches (.trainingPauseEnd u true last) s (fun t =>
          rd (K.dcState c) t = 0 ∧ rd K.trainLastTime t = (if last then actAt s.now s else rd K.trainLastTime s) ∧
          ObjsBut [K.dcState c, K.trainLastTime] s t ∧ t = { s with objs := t.objs, dram := dram last }) ∧
        Reaches (.trainingPauseEnd u false last) s (fun t => rd (K.dcState c) t = 0 ∧
          ObjsBut [K.dcState c] (raiseFault (66 + 8 * c) s) t ∧
          t = { raiseFault (66 + 8 * c) s with objs := t.objs, dram := dram true })) ∧
      (∀ passing last : Bool, s.dram.pause = some u.val → s.dram.discard = true → fenced (0x20 + c) s = false →
        Reaches (.trainingPauseEnd u passing last) s (fun t => t.dram.pause = none ∧ t.dram.discard = false ∧
          rd K.trainDiscarded t = min (2 ^ 32 - 1) (rd K.trainDiscarded s + 1) ∧ rd (K.dcState c) t = 0 ∧
          ObjsBut [K.dcState c, K.trainDiscarded] s t)) ∧
      (u.val ∉ s.dram.deferred → open_ → pauseAllowed s = false → Reaches (.trainingDeferred u) s (fun t => ∃ v,
        t = raiseFault 96 v ∧ rd K.trainDeferred v = min (2 ^ 32 - 1) (rd K.trainDeferred s + 1) ∧
        ObjsBut [K.trainDeferred] s v ∧
        v = { s with objs := v.objs, dram := { s.dram with deferred := u.val :: s.dram.deferred } })) ∧
      (u.val ∈ s.dram.deferred → exec (.trainingDeferred u) s = .next s)) ∧
  ((∀ p : Bytes, p.length = 2 →
      let v := leNat p
      let known := v = 4800 ∨ v = 5600 ∨ v = 6400
      let post := fun (status : Nat) (d : State → Dram) (x : Session) (s t : State) =>
        rd K.dramSpeedReq t = v ∧ rd K.dramSpeedStatus t = status ∧ ObjsBut [K.dramSpeedReq, K.dramSpeedStatus] s t ∧
        HostFrame x s t ∧ t = { s with objs := t.objs, dram := d s, sessions := t.sessions, baton := t.baton }
      let does := HostDoes (.dramSpeedReqWrite · p) opWrite K.dramSpeedReq p 1 true
      does (fun _ s => known ∧
          rd K.dramSpeedStatus s ≠ 2 ∧ v ≠ rd K.dramSpeed s)
        (post 1 (fun s => { s.dram with target := v, discard := s.dram.pause.isSome })) ∧
      does (fun _ s => known ∧ rd K.dramSpeedStatus s ≠ 2 ∧ v = rd K.dramSpeed s)
        (post 0 (fun s => { s.dram with heldReq := none, discard := false })) ∧
      does (fun _ s => known ∧ rd K.dramSpeedStatus s = 2) (post 2 (fun s => { s.dram with heldReq := some v })) ∧
      HostRefuses (.dramSpeedReqWrite · p) opWrite K.dramSpeedReq p 1 true Code.range (fun _ _ => ¬ known)) ∧
    (∀ s : State,
      (rd K.dramSpeedStatus s = 1 → streaming s = false → s.dram.pause = none → rd K.dramReady s ≠ 0 → Reaches .speedChangeStart s (fun t =>
          rd K.dramSpeedStatus t = 2 ∧ rd K.dramReady t = 0 ∧ OnlyObjs [K.dramSpeedStatus, K.dramReady] s t)) ∧
      ((rd K.dramSpeedStatus s ≠ 1 ∨ streaming s = true) → exec .speedChangeStart s = .next s) ∧
      (rd K.dramSpeedStatus s = 2 → s.dram.heldReq = none → (∀ r ∈ s.dram.reqs, r.issued = false) →
        Reaches (.speedChangeComplete true) s (fun t =>
          rd K.dramSpeed t = s.dram.target ∧ rd K.dramSpeedStatus t = 0 ∧ rd K.dramReady t = 1 ∧
          ObjsBut [K.dramSpeed, K.dramSpeedStatus, K.dramReady] s t ∧ Refilled (restartRefresh s) t ∧
          t = { s with objs := t.objs, grps := t.grps, dram := t.dram }) ∧
        Reaches (.speedChangeComplete false) s (fun t =>
          rd K.dramSpeed t = rd K.dramSpeed s ∧ rd K.dramSpeedStatus t = 3 ∧ rd K.dramReady t = 1 ∧
          ObjsBut [K.dramSpeedStatus, K.dramReady] s t ∧ Refilled (restartRefresh s) t ∧
          t = { s with objs := t.objs, grps := t.grps, dram := t.dram })) ∧
      (∀ (trained : Bool) (v : Nat), rd K.dramSpeedStatus s = 2 → s.dram.heldReq = some v → v ≠ rd K.dramSpeed s →
        v ≠ s.dram.target → (∀ r ∈ s.dram.reqs, r.issued = false) → Reaches (.speedChangeComplete trained) s (fun t =>
          rd K.dramSpeedStatus t = 1 ∧ t.dram.target = v ∧ t.dram.heldReq = none ∧ rd K.dramReady t = 1)) ∧
      ((rd K.dramSpeedStatus s ≠ 2 ∨ ∃ r ∈ s.dram.reqs, r.issued = true) → ∀ trained, exec (.speedChangeComplete trained) s = .next s)))

/-- R187, R189, R190, R200, R279, R347: the end of initialisation, of a scrub pass, and of the training of a released DRAM
channel, which brings map 0 back, or map 1 while another channel is fenced, with all content lost. -/
def Obligations.DramMapsAndPasses : Prop :=
  ∀ s : State,
    (rd K.dramReady s ≠ 1 → rd K.dramSpeedStatus s ≠ 2 → rd K.dramMappedBytes s ≠ 0 → rd K.rqSpillSize s = 0 →
      Reaches .dramInitComplete s (fun t => rd K.dramReady t = 1 ∧ ObjsBut [K.dramReady] s t ∧ Refilled s t ∧
        t = { s with objs := t.objs, grps := t.grps, dram := t.dram })) ∧
    (rd K.dramReady s = 1 → exec .dramInitComplete s = .next s) ∧
    (rd K.scrubHours s ≠ 0 → rd K.dramReady s ≠ 0 →
      (mapped (64 * s.dram.scrubAt) 64 s = false → (∀ r ∈ s.dram.reqs, r.owner ≠ .scrub) → Reaches .scrubPassComplete s (fun t =>
        rd K.scrubPasses t = min (2 ^ 32 - 1) (rd K.scrubPasses s + 1) ∧
        OnlyObjs [K.scrubPasses] { s with dram := { s.dram with scrubAt := 0, scrubFrom := s.now } } t)) ∧
      (mapped (64 * s.dram.scrubAt) 64 s = true → exec .scrubPassComplete s = .next s)) ∧
    (∀ c : Fin 4, s.dram.retrain.contains c.val = true →
      let left := s.dram.retrain.filter (· != c.val)
      let others := ((List.range 4).filter (fun i => i != c.val && fenced (0x20 + i) s)).length
      let freed := fun (t : State) =>
        (∀ i, (rd K.fltFenced t).testBit i = ((rd K.fltFenced s).testBit i && i != 0x20 + c.val)) ∧ rd (K.dcState c) t = 0
      (others ≤ 1 → Reaches (.dcReleaseTrainingDone c true) s (fun t =>
        freed t ∧ rd K.dramMap t = others ∧ rd K.dramReady t = 0 ∧
        rd K.dramMapEpoch t = (rd K.dramMapEpoch s + 1) % 2 ^ 32 ∧
        rd K.dramMappedBytes t = (if rd K.dramDensity s = 32 then 2 ^ 37 else 2 ^ 36) / (others + 1) ∧
        (∀ a, memByte a t = 0) ∧ t.dram.bad = [] ∧ t.dram.pause = none ∧ t.dram.retrain = left ∧
        (∀ g, g < 16 → rd (K.runArmBusy (leader g s)) s ≠ 1 → (grp g t).grans = (grp g s).grans ∧
          ∀ y ∈ (grp g t).fetches, y.todo = y.all ∧ y.out = 0 ∧ ∀ p n, y.kind ≠ .gran p n) ∧
        (∀ q : Nat, ∀ i ∈ (rqueue q t).items, i.slot = none) ∧
        ObjsBut [K.fltFenced, K.dcState c, K.dramMap, K.dramReady, K.dramMapEpoch, K.dramMappedBytes, K.rqLostTotal] s t ∧
        (∀ m, seq m t = { seq m s with mapLost := (seq m t).mapLost }) ∧
        (∀ g, g < 16 → busyState (runState g s) = true → (seq (leader g s) t).mapLost = true) ∧
        t = { s with objs := t.objs, grps := t.grps, seqs := t.seqs, dram := t.dram, queues := t.queues })) ∧
      (2 ≤ others → Reaches (.dcReleaseTrainingDone c true) s (fun t => freed t ∧
        OnlyObjs [K.fltFenced, K.dcState c] { s with dram := { s.dram with retrain := left } } t)) ∧
      exec (.dcReleaseTrainingDone c false) s =
        .next (raiseFault (66 + 8 * c) { s with dram := { s.dram with retrain := left } })) ∧
    (∀ (c : Fin 4) (trained : Bool), s.dram.retrain.contains c.val = false → exec (.dcReleaseTrainingDone c trained) s = .next s)

/-! ### Pacer engines (09, 10) -/

/-- R245: every operation of class 0x1 writes its result, modulo 2^32, to Xd and sets Z, N, C and V; CMP sets the flags
alone; ABS leaves C open. -/
def Obligations.PacerRegisterAlu : Prop :=
  RegAlu .add 0 0x7FFF (fun a b => BitVec.ofNat 32 (a.toNat + b.toNat)) (fun a b => decide (2 ^ 32 ≤ a.toNat + b.toNat))
    (fun a b => overflows (a.toInt + b.toInt)) ∧
  RegAlu .sub 1 0x7FFF (fun a b => BitVec.ofInt 32 (a.toInt - b.toInt)) (fun a b => decide (b.toNat ≤ a.toNat))
    (fun a b => overflows (a.toInt - b.toInt)) ∧
  RegAlu .and 2 0x7FFF (fun a b => a &&& b) (fun _ _ => false) (fun _ _ => false) ∧
  RegAlu .or 3 0x7FFF (fun a b => a ||| b) (fun _ _ => false) (fun _ _ => false) ∧
  RegAlu .xor 4 0x7FFF (fun a b => a ^^^ b) (fun _ _ => false) (fun _ _ => false) ∧
  RegAlu .mov 5 0x3FFFF (fun a _ => a) (fun _ _ => false) (fun _ _ => false) ∧
  RegAlu .not 6 0x3FFFF (fun a _ => ~~~a) (fun _ _ => false) (fun _ _ => false) ∧
  RegAlu .neg 7 0x3FFFF (fun a _ => BitVec.ofInt 32 (-a.toInt)) (fun a _ => a == 0#32) (fun a _ => overflows (-a.toInt)) ∧
  RegAlu .asr 8 0x7FFF (fun a b => BitVec.ofInt 32 (a.toInt / 2 ^ (b.toNat % 64)))
    (fun a b => b.toNat % 64 != 0 && decide (b.toNat % 64 < 32) && a.getLsbD (b.toNat % 64 - 1)) (fun _ _ => false) ∧
  RegAlu .lsr 9 0x7FFF (fun a b => BitVec.ofNat 32 (a.toNat / 2 ^ (b.toNat % 64)))
    (fun a b => b.toNat % 64 != 0 && decide (b.toNat % 64 < 32) && a.getLsbD (b.toNat % 64 - 1)) (fun _ _ => false) ∧
  RegAlu .lsl 10 0x7FFF (fun a b => BitVec.ofNat 32 (a.toNat * 2 ^ (b.toNat % 64)))
    (fun a b => b.toNat % 64 != 0 && decide (b.toNat % 64 < 32) && a.getLsbD (32 - b.toNat % 64)) (fun _ _ => false) ∧
  RegAlu .min 11 0x7FFF (fun a b => BitVec.ofInt 32 (min a.toInt b.toInt)) (fun _ _ => false) (fun _ _ => false) ∧
  RegAlu .max 12 0x7FFF (fun a b => BitVec.ofInt 32 (max a.toInt b.toInt)) (fun _ _ => false) (fun _ _ => false) ∧
  (∀ (e : Fin 16) (f : BitVec 24) (s : State), PeReady e (peWord 1 13 f) s → f.toNat &&& 0x3FFFF = 0 →
    let p := peNow e s
    let a := p.xr (fld f.toNat 18 3)
    let r := BitVec.ofNat 32 a.toInt.natAbs
    Reaches (.abs e f) s (fun t => ∃ sr c, SetsZNCV r c (a == 0x80000000#32) p.sr sr ∧
      pe e t = Pe.issued 1 { p.setX (fld f.toNat 21 3) r with sr } ∧ PeFrame e 1 true s t)) ∧
  (∀ (e : Fin 16) (f : BitVec 24) (s : State), PeReady e (peWord 1 14 f) s → f.toNat &&& 0xE07FFF = 0 →
    let p := peNow e s
    let a := p.xr (fld f.toNat 18 3)
    let b := p.xr (fld f.toNat 15 3)
    Reaches (.cmp e f) s (fun t => ∃ sr, SetsZNCV (a - b) (decide (b.toNat ≤ a.toNat)) (overflows (a.toInt - b.toInt)) p.sr sr ∧
      PeStep e 1 { p with sr } s t))

/-- R246: every operation of class 0x2 computes Xd op IMM into Xd with the flags of its register form; CMPI sets the
flags alone. -/
def Obligations.PacerImmediateAlu : Prop :=
  ImmAlu .addi 0 0x1F0000 (fun a i => BitVec.ofInt 32 (a.toInt + i.toInt))
    (fun a i => decide (2 ^ 32 ≤ a.toNat + (i.signExtend 32).toNat)) (fun a i => overflows (a.toInt + i.toInt)) ∧
  ImmAlu .subi 1 0x1F0000 (fun a i => BitVec.ofInt 32 (a.toInt - i.toInt))
    (fun a i => decide ((i.signExtend 32).toNat ≤ a.toNat)) (fun a i => overflows (a.toInt - i.toInt)) ∧
  ImmAlu .andi 2 0x1F0000 (fun a i => a &&& i.setWidth 32) (fun _ _ => false) (fun _ _ => false) ∧
  ImmAlu .ori 3 0x1F0000 (fun a i => a ||| i.setWidth 32) (fun _ _ => false) (fun _ _ => false) ∧
  ImmAlu .xori 4 0x1F0000 (fun a i => a ^^^ i.setWidth 32) (fun _ _ => false) (fun _ _ => false) ∧
  ImmAlu .movi 5 0x1F0000 (fun _ i => i.signExtend 32) (fun _ _ => false) (fun _ _ => false) ∧
  ImmAlu .movh 6 0x1F0000 (fun a i => BitVec.ofNat 32 (i.toNat * 65536 + a.toNat % 65536)) (fun _ _ => false) (fun _ _ => false) ∧
  (∀ (e : Fin 16) (f : BitVec 24) (s : State), PeReady e (peWord 2 7 f) s → f.toNat &&& 0x1F0000 = 0 →
    let p := peNow e s
    let a := p.xr (fld f.toNat 21 3)
    let i := f.extractLsb' 0 16
    Reaches (.cmpi e f) s (fun t => ∃ sr, SetsZNCV (a - i.signExtend 32) (decide ((i.signExtend 32).toNat ≤ a.toNat))
      (overflows (a.toInt - i.toInt)) p.sr sr ∧ PeStep e 1 { p with sr } s t)) ∧
  ImmAlu .asri 8 0x1FFFC0 (fun a i => BitVec.ofInt 32 (a.toInt / 2 ^ (i.toNat % 64)))
    (fun a i => i.toNat % 64 != 0 && decide (i.toNat % 64 < 32) && a.getLsbD (i.toNat % 64 - 1)) (fun _ _ => false) ∧
  ImmAlu .lsri 9 0x1FFFC0 (fun a i => BitVec.ofNat 32 (a.toNat / 2 ^ (i.toNat % 64)))
    (fun a i => i.toNat % 64 != 0 && decide (i.toNat % 64 < 32) && a.getLsbD (i.toNat % 64 - 1)) (fun _ _ => false) ∧
  ImmAlu .lsli 10 0x1FFFC0 (fun a i => BitVec.ofNat 32 (a.toNat * 2 ^ (i.toNat % 64)))
    (fun a i => i.toNat % 64 != 0 && decide (i.toNat % 64 < 32) && a.getLsbD (32 - i.toNat % 64)) (fun _ _ => false)

/-- R228, R234, R240, R241, R242: branches, RETI and TEND: the target stands two delay slots on, a branch not taken and one
taken alike; EXIT closes the innermost level.
R229, R230, R231, R232: DO opens a level over the body that follows, or skips it with a count of 0; a body of at most
32 instructions is captured for the loop cache. -/
def Obligations.PacerControlFlow : Prop :=
  (let goTo := fun (a : BitVec 14) (reti : Bool) (p : Pe) => { p with branch := some { target := a, left := 2, reti } }
    let close := fun (exit : Bool) (p : Pe) =>
      let mine := p.cacheAt == some (p.lsOf p.llvl, p.leOf p.llvl)
      if exit then { p.setLc p.llvl 0 with
        sr := putLlvl (p.llvl - 1) p.sr
        served := p.served && !mine
        stale := p.stale && !mine
        cacheAt := if mine && p.stale then none else p.cacheAt } else p
    PeDoes .pacerNop (peWord 0 0) 0xFFFFFF 1 (fun _ _ => True) (fun p _ => p) ∧
    PeDoes .b (peWord 0 1) 0x07C000 1 (fun p f => fld f.toNat 20 4 ≠ 15 ∧ (f.getLsbD 19 = true → p.llvl ≠ 0))
      (fun p f => if condHolds (fld f.toNat 20 4) p.sr = some true then goTo (f.extractLsb' 0 14) false (close (f.getLsbD 19) p)
        else { p with branch := some { target := 0, left := 2, reti := false, taken := false } }) ∧
    PeDoes .pacerCall (peWord 0 2) 0x1FC000 1 (fun _ _ => True)
      (fun p f => goTo (f.extractLsb' 0 14) false (p.setX (fld f.toNat 21 3) (BitVec.ofNat 32 (p.pc.toNat + 3)))) ∧
    PeDoes .jr (peWord 0 3) 0x0FFFFF 1 (fun p f => f.getLsbD 20 = true → p.llvl ≠ 0)
      (fun p f => goTo ((p.xr (fld f.toNat 21 3)).setWidth 14) false (close (f.getLsbD 20) p)) ∧
    PeDoes .reti (peWord 0 5) 0xFFFFFF 1 (fun _ _ => True) (fun p _ => goTo p.ipc true p) ∧
    PeDoes .tend (peWord 0 6) 0xFFFF00 1 (fun _ _ => True) (fun p f => { p with tended := some (fld f.toNat 0 8) }) ∧
    (∀ sr : Word, condHolds 0 sr = some true ∧ condHolds 1 sr = some (sr.getLsbD 0) ∧ condHolds 3 sr = some (sr.getLsbD 1) ∧
      condHolds 5 sr = some (sr.getLsbD 2) ∧ condHolds 7 sr = some (sr.getLsbD 3) ∧ condHolds 9 sr = some (sr.getLsbD 4) ∧
      condHolds 11 sr = some (sr.getLsbD 1 == sr.getLsbD 3) ∧
      condHolds 13 sr = some (!sr.getLsbD 0 && sr.getLsbD 1 == sr.getLsbD 3) ∧ condHolds 15 sr = none)) ∧
  (∀ (e : Fin 16) (f : BitVec 24) (s : State), PeReady e (peWord 0 4 f) s →
      let p := peNow e s
      let le := f.extractLsb' 0 14
      let ls := BitVec.ofNat 14 (p.pc.toNat + 1)
      let k := p.llvl + 1
      let count := if f.getLsbD 23 then p.xr (fld f.toNat 20 3) else BitVec.ofNat 32 (fld f.toNat 14 9)
      (f.getLsbD 23 = true → fld f.toNat 14 6 = 0) → k ≤ 3 → p.pc.toNat + 1 ≤ le.toNat →
      (p.llvl ≠ 0 → le.toNat < (p.leOf p.llvl).toNat) →
      (count ≠ 0 → Reaches (.doRepeat e f) s (fun t => ∃ q, PeStep e 3 q s t ∧ q.llvl = k ∧ q.lcOf k = count ∧
        q.lsOf k = ls ∧ q.leOf k = le ∧ (∀ i, 14 ≠ i → 15 ≠ i → q.sr.getLsbD i = p.sr.getLsbD i) ∧
        (∀ j, j ≠ k → 1 ≤ j → j ≤ 3 → q.lcOf j = p.lcOf j ∧ q.lsOf j = p.lsOf j ∧ q.leOf j = p.leOf j) ∧
        q.cacheAt = (if le.toNat + 1 - (p.pc.toNat + 1) ≤ 32 then some (ls, le) else p.cacheAt) ∧
        q = { p with lc := q.lc, ls := q.ls, le := q.le, sr := q.sr, cacheAt := q.cacheAt, served := q.served, stale := q.stale, cache := q.cache })) ∧
      (count = 0 → le.toNat + 1 < 0x4000 → wordDefined (p.memWord 2 (le.toNat + 1)) = true →
        Reaches (.doRepeat e f) s (fun t =>
          pe e t = { Pe.issued 3 p with pc := BitVec.ofNat 14 (le.toNat + 1) } ∧ PeFrame e 3 false s t)))

/-- R215, R227, R244, R251: SRB, SSC and MSV write late; MVS reads a special register, and a read of CYCL latches CYCH. -/
def Obligations.PacerSpecialRegisters : Prop :=
  let late := fun (w : Late) (p : Pe) => { p with late := [⟨p.pos, w⟩] }
  PeDoes .srb (peWord 0 7) 0xFFFFC0 1
    (fun _ f => fld f.toNat 0 5 = 16 ∨ fld f.toNat 0 5 = 18 ∨ 25 ≤ fld f.toNat 0 5)
    (fun p f => late (.srBit (fld f.toNat 0 5) (f.getLsbD 5)) p) ∧
  PeDoes .ssc (peWord 0 8) 0x7FFFE0 1
    (fun _ f => f.getLsbD 23 = false ∧ -8 ≤ (f.extractLsb' 0 5).toInt ∧ (f.extractLsb' 0 5).toInt ≤ 8)
    (fun p f => late (.srScale (f.extractLsb' 0 5)) p) ∧
  PeDoes .ssc (peWord 0 8) 0x0FFFFF 1
    (fun p f => f.getLsbD 23 = true ∧ -8 ≤ (p.xr (fld f.toNat 20 3)).toInt ∧ (p.xr (fld f.toNat 20 3)).toInt ≤ 8)
    (fun p f => late (.srScale (BitVec.ofInt 5 (p.xr (fld f.toNat 20 3)).toInt)) p) ∧
  PeDoes .msv (peWord 6 1) 0x00FFFF 1
    (fun p f => sprWritable (fld f.toNat 16 5) = true ∧
      (fld f.toNat 16 5 = 0 → scaleOk (srScale (p.xr (fld f.toNat 21 3))) = true))
    (fun p f => late (.spr (fld f.toNat 16 5) (p.xr (fld f.toNat 21 3))) p) ∧
  (∀ (e : Fin 16) (f : BitVec 24) (v : Word) (s : State), PeReady e (peWord 6 0 f) s → f.toNat &&& 0x00FFFF = 0 →
    sprRead e (fld f.toNat 16 5) (peNow e s) s = some v → Reaches (.mvs e f) s (PeStep e 1
      (let q := (peNow e s).setX (fld f.toNat 21 3) v
       if fld f.toNat 16 5 = 0x14 then { q with cych := BitVec.ofNat 32 (q.cycl / 2 ^ 32) } else q) s)) ∧
  (∀ (e : Fin 16) (p : Pe) (s : State), sprRead e 0 p s = some p.sr ∧ sprRead e 5 p s = some (p.taskid.setWidth 32) ∧
    sprRead e 6 p s = some p.targ ∧ sprRead e 0x14 p s = some (BitVec.ofNat 32 p.cycl) ∧
    sprRead e 0x17 p s = some (BitVec.ofNat 32 (rd (K.capWr p.capg.toNat) s)) ∧
    sprRead e 0x1B p s = some (BitVec.ofNat 32 e) ∧ sprRead e 7 p s = none)

/-- R247, R217, R218, R220: the operations that write an exact result to an accumulator.
R218, R219, R220, R247: scaled moves, parts of accumulators, and exponents.
R216, R253, R254: the dual multiply-accumulate with one unit, with two units on two accumulators or on one, and with a
parallel load from XM. -/
def Obligations.PacerAccumulators : Prop :=
  (AccOp .clr 0 0x3FFFFF (fun _ _ => 0) ∧
    AccOp .adda 1 0x0FFFFF (fun p f => (p.ac (fld f 22 2)).toInt + (p.ac (fld f 20 2)).toInt) ∧
    AccOp .suba 2 0x0FFFFF (fun p f => (p.ac (fld f 22 2)).toInt - (p.ac (fld f 20 2)).toInt) ∧
    AccOp .nega 3 0x0FFFFF (fun p f => -(p.ac (fld f 20 2)).toInt) ∧
    AccOp .mova 4 0x0FFFFF (fun p f => (p.ac (fld f 20 2)).toInt) ∧
    AccOp .xtoa 6 0x31FFFF (fun p f => (p.xr (fld f 17 3)).toInt * 2 ^ 32) ∧
    (∀ (e : Fin 16) (f : BitVec 24) (s : State), PeReady e (peWord 3 11 f) s → f.toNat &&& 0x31FFFF = 0 →
      let p := peNow e s
      let n := fld f.toNat 22 2
      let c := (p.xr (fld f.toNat 17 3)).toInt
      let v := if 0 ≤ c then (p.ac n).toInt * 2 ^ c.toNat else ((p.ac n).toInt + 2 ^ ((-c).toNat - 1)) / 2 ^ (-c).toNat
      c ≤ 63 → -72 ≤ c →
      Reaches (.norm e f) s (fun t => ∃ a sr, AccGets n v p.sr a sr ∧ PeStep e 1 { p.setAc n a with sr } s t)) ∧
    (∀ (e : Fin 16) (f : BitVec 24) (s : State), PeReady e (peWord 3 12 f) s → f.toNat &&& 0x31FFFF = 0 →
      let p := peNow e s
      let n := fld f.toNat 22 2
      let x := fld f.toNat 17 3
      0 ≤ accExp (p.ac n) →
      Reaches (.norma e f) s (fun t => ∃ a sr, AccGets n ((p.ac n).toInt * 2 ^ (accExp (p.ac n)).toNat) p.sr a sr ∧
        PeStep e 1 { (p.setAc n a).setX x (BitVec.ofInt 32 (accExp (p.ac n))) with sr } s t)) ∧
    (∀ (e : Fin 16) (f : BitVec 24) (s : State), PeReady e (peWord 3 12 f) s → f.toNat &&& 0x31FFFF = 0 →
      let p := peNow e s
      let n := fld f.toNat 22 2
      let r := (-accExp (p.ac n)).toNat
      accExp (p.ac n) < 0 →
      Reaches (.norma e f) s (fun t => ∃ a sr sr', AccGets n (((p.ac n).toInt + 2 ^ (r - 1)) / 2 ^ r) p.sr a sr ∧
        (∀ i, sr'.getLsbD i = (sr.getLsbD i || i == 28 + n)) ∧
        PeStep e 1 { (p.setAc n a).setX (fld f.toNat 17 3) (BitVec.ofInt 32 (accExp (p.ac n))) with sr := sr' } s t))) ∧
  ((∀ (e : Fin 16) (f : BitVec 24) (s : State), PeReady e (peWord 3 5 f) s → f.toNat &&& 0x31FFFF = 0 →
      let p := peNow e s
      let v := ((p.ac (fld f.toNat 22 2)).toInt * 2 ^ (srScale p.sr + 8).toNat + 2 ^ 39) / 2 ^ 40
      let x := fld f.toNat 17 3
      Reaches (.smov e f) s (fun t => ∃ sr r, PeStep e 1 { p.setX x r with sr } s t ∧
        (-(2 ^ 31) ≤ v → v < 2 ^ 31 → r = BitVec.ofInt 32 v ∧ sr = p.sr) ∧
        (2 ^ 31 ≤ v → r = 0x7FFFFFFF#32) ∧ (v < -(2 ^ 31) → r = 0x80000000#32) ∧
        ((v < -(2 ^ 31) ∨ 2 ^ 31 ≤ v) → ∀ i, sr.getLsbD i = (p.sr.getLsbD i || i == 27)))) ∧
    PeDoes .rdp (peWord 3 7) 0x307FFF 1 (fun _ f => fld f.toNat 15 2 ≠ 3) (fun p f =>
      let a := p.ac (fld f.toNat 22 2)
      p.setX (fld f.toNat 17 3) (match fld f.toNat 15 2 with
        | 0 => a.extractLsb' 0 32 | 1 => a.extractLsb' 32 32 | _ => (a.extractLsb' 64 8).signExtend 32)) ∧
    PeDoes .wrp (peWord 3 8) 0x307FFF 1 (fun _ f => fld f.toNat 15 2 ≠ 3) (fun p f =>
      let a := p.ac (fld f.toNat 22 2)
      let w := p.xr (fld f.toNat 17 3)
      p.setAc (fld f.toNat 22 2) (match fld f.toNat 15 2 with
        | 0 => (a.extractLsb' 32 40 ++ w : BitVec 72) | 1 => (a.extractLsb' 64 8 ++ w ++ a.extractLsb' 0 32 : BitVec 72)
        | _ => (w.extractLsb' 0 8 ++ a.extractLsb' 0 64 : BitVec 72))) ∧
    PeDoes .expa (peWord 3 9) 0x31BFFF 1 (fun _ _ => True) (fun p f =>
      let v := BitVec.ofInt 32 (accExp (p.ac (fld f.toNat 22 2)))
      let old := p.xr (fld f.toNat 17 3)
      p.setX (fld f.toNat 17 3) (if f.getLsbD 14 = true ∧ old.toInt ≤ v.toInt then old else v)) ∧
    PeDoes .expx (peWord 3 10) 0xF1C7FF 1 (fun _ _ => True) (fun p f =>
      p.setX (fld f.toNat 17 3) (BitVec.ofNat 32 (wordRun (p.xr (fld f.toNat 11 3))))) ∧
    (∀ a : Acc, ∀ i, i < 71 → (71 - accRun a ≤ i → a.getLsbD i = a.msb)) ∧
    (∀ w : Word, ∀ i, i < 31 → (31 - wordRun w ≤ i → w.getLsbD i = w.msb))) ∧
  (∀ (e : Fin 16) (f : BitVec 30) (s : State),
      let g := f.toNat
      let p := peNow e s
      let w : Word := BitVec.ofNat 32 (3 * 2 ^ 30 + g)
      let opa := fld g 28 2
      let opb := fld g 26 2
      let sign := fld g 20 2
      let num := fun (k : Nat) (x : Word) => if sign = 0 ∨ (sign = 1 ∧ k = 0) then x.toInt else (x.toNat : Int)
      let prod := fun (i j : Nat) => num 0 (p.xr (fld g i 2)) * num 1 (p.xr (4 + fld g j 2))
      let term := fun (op i j : Nat) => if op = 0 then 0 else if op = 3 then - prod i j else prod i j
      let na := fld g 24 2
      let nb := if f.getLsbD 23 then na ^^^ 2 else na
      let of := fun (op n : Nat) => if op = 1 then 0 else (p.ac n).toInt
      let still := f.getLsbD 11 = false ∧ f.getLsbD 5 = false
      let frame := PeFrame e 1 true s
      PeReady e w s → dualRsv g = false →
      (still → opa ≠ 0 → opb = 0 → Reaches (.dualMac e f) s (fun t => ∃ a sr,
        AccGets na (term opa 18 16 + of opa na) p.sr a sr ∧ pe e t = Pe.issued 1 { p.setAc na a with sr } ∧ frame t)) ∧
      (still → opa = 0 → opb ≠ 0 → Reaches (.dualMac e f) s (fun t => ∃ a sr,
        AccGets nb (term opb 14 12 + of opb nb) p.sr a sr ∧ pe e t = Pe.issued 1 { p.setAc nb a with sr } ∧ frame t)) ∧
      (still → opa ≠ 0 → opb ≠ 0 → nb = na → Reaches (.dualMac e f) s (fun t => ∃ a sr,
        AccGets na (term opa 18 16 + term opb 14 12 + if opa = 1 ∨ opb = 1 then 0 else (p.ac na).toInt) p.sr a sr ∧
        pe e t = Pe.issued 1 { p.setAc na a with sr } ∧ frame t)) ∧
      (still → opa ≠ 0 → opb ≠ 0 → nb ≠ na → Reaches (.dualMac e f) s (fun t => ∃ a b sr sra srb,
        AccGets na (term opa 18 16 + of opa na) p.sr a sra ∧ AccGets nb (term opb 14 12 + of opb nb) p.sr b srb ∧
        ((sr.getLsbD 0 = sra.getLsbD 0 ∧ sr.getLsbD 1 = sra.getLsbD 1 ∧ sr.getLsbD 4 = sra.getLsbD 4) ∨
          (sr.getLsbD 0 = srb.getLsbD 0 ∧ sr.getLsbD 1 = srb.getLsbD 1 ∧ sr.getLsbD 4 = srb.getLsbD 4)) ∧
        sr.getLsbD (28 + na) = sra.getLsbD (28 + na) ∧ sr.getLsbD (28 + nb) = srb.getLsbD (28 + nb) ∧
        (∀ i, i ≠ 0 → i ≠ 1 → i ≠ 4 → i ≠ 28 + na → i ≠ 28 + nb → sr.getLsbD i = p.sr.getLsbD i) ∧
        (pe e t).ac na = a ∧ (pe e t).ac nb = b ∧ (∀ k, k < 4 → k ≠ na → k ≠ nb → (pe e t).ac k = p.ac k) ∧
        pe e t = Pe.issued 1 { p with acc := (pe e t).acc, sr } ∧ frame t)) ∧
      (opa = 0 → opb = 0 → f.getLsbD 11 = true → f.getLsbD 5 = false → f.getLsbD 6 = false →
        (p.ptr (fld g 7 2)).toNat < 0xE000 → Reaches (.dualMac e f) s (fun t =>
        pe e t = Pe.issued 1 { p with late :=
          [⟨p.pos, .x ⟨fld g 9 2 % 8, Nat.mod_lt _ (by decide)⟩ (p.memWord 0 (p.ptr (fld g 7 2)).toNat)⟩] } ∧ frame t)))

/-- R222–R225, R227, R248, R249: loads are late, stores pend, and the pointer moves by its mode; a load from PM costs two
cycles.
R222, R223, R248: a pointer without a window moves modulo 2^16; one with a window wraps within it and falls back to BASE,
with the sticky bit set, where one window's length does not bring it back. -/
def Obligations.PacerMemoryAccess : Prop :=
  (∀ (e : Fin 16) (bus : BitVec 2) (f : BitVec 24) (q : Pe) (s : State),
      let p := peNow e s
      let n := fld f.toNat 21 3
      let mode := fld f.toNat 19 2
      let a := (p.ptr n).toNat
      let moved := fun (r : Pe) => postMode mode n (fld f.toNat 0 16) r = .ok q
      let late := fun (w : Late) => { p with late := [⟨p.pos, w⟩] }
      let store := fun (v : Word) => { p with stores := [⟨p.pos, bus.toNat + 1, a, v, p.issue⟩] }
      let cost := if bus = 2 then 2 else 1
      bus ≠ 3 → (mode ≠ 2 → fld f.toNat 0 16 = 0) → a < (if bus = 2 then 0x4000 else 0xE000) →
      (PeReady e (peWord 4 (bus.toNat * 4 + 0) f) s → moved (late (.x ⟨fld f.toNat 16 3 % 8, by omega⟩ (p.memWord bus.toNat a))) →
        Reaches (.ld e bus f) s (PeStep e cost q s)) ∧
      (PeReady e (peWord 4 (bus.toNat * 4 + 1) f) s → bus ≠ 2 → moved (store (p.xr (fld f.toNat 16 3))) →
        Reaches (.st e bus f) s (PeStep e 1 q s)) ∧
      (PeReady e (peWord 4 (bus.toNat * 4 + 2) f) s → bus ≠ 2 → f.toNat &&& 0x040000 = 0 →
        (let m := scaledMove (p.ac (fld f.toNat 16 2)) (srScale p.sr)
         moved { store m.1 with sr := if m.2 then srBit 27 true p.sr else p.sr }) → Reaches (.sts e bus f) s (PeStep e 1 q s)) ∧
      (PeReady e (peWord 4 (bus.toNat * 4 + 3) f) s → f.toNat &&& 0x040000 = 0 →
        (let v : Acc := BitVec.ofInt 72 ((p.memWord bus.toNat a).toInt * 2 ^ 32)
         ∀ sr : Word, sr.getLsbD 0 = (v == 0#72) → sr.getLsbD 1 = v.msb → sr.getLsbD 4 = false →
           (∀ i, i ≠ 0 → i ≠ 1 → i ≠ 4 → sr.getLsbD i = p.sr.getLsbD i) →
           moved { late (.acc ⟨fld f.toNat 16 2 % 4, by omega⟩ v) with sr } → Reaches (.lda e bus f) s (PeStep e cost q s)))) ∧
  (∀ (p : Pe) (n imm : Nat),
      let w := p.win n
      let b : Int := (w.extractLsb' 16 16).toNat
      let l : Int := (w.extractLsb' 0 16).toNat
      let at_ : Int := (p.ptr n).toNat
      postMode 0 n imm p = .ok p ∧
      (∀ mode m, (mode = 1 ∧ m = (p.step n).toInt ∨ mode = 2 ∧ m = (BitVec.ofNat 16 imm).toInt) →
        (l = 0 → postMode mode n imm p = .ok (p.setPt n (BitVec.ofInt 16 (at_ + m)))) ∧
        (l ≠ 0 → 0xE000 < b + l → postMode mode n imm p = .error 7) ∧
        (l ≠ 0 → b + l ≤ 0xE000 →
          let v := if b + l ≤ at_ + m then at_ + m - l else if at_ + m < b then at_ + m + l else at_ + m
          (b ≤ v → v < b + l → postMode mode n imm p = .ok (p.setPt n (BitVec.ofInt 16 v))) ∧
          (v < b ∨ b + l ≤ v → ∃ q, postMode mode n imm p = .ok q ∧ q.ptr n = w.extractLsb' 16 16 ∧
            q.sr.getLsbD 26 = true ∧ q = { p with pt := q.pt, sr := q.sr } ∧
            (∀ i, i ≠ 26 → q.sr.getLsbD i = p.sr.getLsbD i) ∧ ∀ m, m < 8 → m ≠ n % 8 → q.ptr m = p.ptr m))))

/-- R227, R250: LDR, ADDR and MVXR write address registers late; MVRX reads one.
R221, R252: SRCHS starts a search; MAXI and MINI compare one operand, or one of XM and then one of YM, by the order
asked for, and count SC on. -/
def Obligations.PacerAddressRegisters : Prop :=
  (let late := fun (w : Late) (p : Pe) => { p with late := [⟨p.pos, w⟩] }
    let reg := fun (r : Nat) (n : Fin 8) (v : BitVec 16) =>
      if r = 0 then Late.pt n v else if r = 1 then .ds n v else if r = 2 then .cwBase n v else .cwLen n v
    let n := fun (f : BitVec 24) => (⟨fld f.toNat 21 3 % 8, Nat.mod_lt _ (by decide)⟩ : Fin 8)
    let val := fun (r : Nat) (n : Fin 8) (p : Pe) =>
      if r = 0 then p.pt[n] else if r = 1 then p.ds[n] else if r = 2 then p.cw[n].extractLsb' 16 16
      else p.cw[n].extractLsb' 0 16
    PeDoes .ldr (peWord 5 0) 0x1C0000 1 (fun _ _ => True)
      (fun p f => late (reg (fld f.toNat 16 2) (n f) (f.extractLsb' 0 16)) p) ∧
    PeDoes .addr (peWord 5 1) 0x1C0000 1 (fun _ _ => True)
      (fun p f => late (reg (fld f.toNat 16 2) (n f) (val (fld f.toNat 16 2) (n f) p + f.extractLsb' 0 16)) p) ∧
    PeDoes .mvxr (peWord 5 2) 0x00FFFF 1 (fun _ f => fld f.toNat 16 2 ≤ 2)
      (fun p f => late (if fld f.toNat 16 2 = 2 then .cw (n f) (p.xr (fld f.toNat 18 3))
        else reg (fld f.toNat 16 2) (n f) ((p.xr (fld f.toNat 18 3)).extractLsb' 0 16)) p) ∧
    PeDoes .mvrx (peWord 5 3) 0x00FFFF 1 (fun _ f => fld f.toNat 16 2 ≤ 2)
      (fun p f => p.setX (fld f.toNat 18 3) (if fld f.toNat 16 2 = 0 then p.pt[n f].setWidth 32
        else if fld f.toNat 16 2 = 1 then p.ds[n f].signExtend 32 else p.cw[n f]))) ∧
  (let beats := fun (max unsigned : Bool) (v sv : Word) =>
      if unsigned then (if max then decide (sv.toNat < v.toNat) else decide (v.toNat < sv.toNat))
      else (if max then decide (sv.toInt < v.toInt) else decide (v.toInt < sv.toInt))
    let seen := fun (max : Bool) (f : BitVec 24) (v : Word) (p : Pe) =>
      let hit := p.si = 0xFFFFFFFF#32 ∨ beats max (f.getLsbD 23) v p.sv = true
      { p with sv := if hit then v else p.sv, si := if hit then p.sc else p.si, sc := p.sc + 1 }
    PeDoes .srchs (peWord 7 0) 0xE3FFFF 1 (fun _ _ => True)
      (fun p f => { p with sc := p.xr (fld f.toNat 18 3), si := 0xFFFFFFFF#32 }) ∧
    PeDoes .maxi (peWord 7 1) 0x03FFFF 1 (fun _ f => fld f.toNat 21 2 = 0) (fun p f => seen true f (p.xr (fld f.toNat 18 3)) p) ∧
    PeDoes .mini (peWord 7 2) 0x03FFFF 1 (fun _ f => fld f.toNat 21 2 = 0) (fun p f => seen false f (p.xr (fld f.toNat 18 3)) p) ∧
    (let one := fun (p : Pe) (f : BitVec 24) => fld f.toNat 21 2 = 1 ∧ f.getLsbD 16 = false ∧ (p.ptr (fld f.toNat 17 3)).toNat < 0xE000
     let word := fun (p : Pe) (f : BitVec 24) => p.memWord (fld f.toNat 20 1) (p.ptr (fld f.toNat 17 3)).toNat
     PeDoes .maxi (peWord 7 1) 0x00FFFF 1 one (fun p f => seen true f (word p f) p) ∧
     PeDoes .mini (peWord 7 2) 0x00FFFF 1 one (fun p f => seen false f (word p f) p)) ∧
    (let two := fun (p : Pe) (f : BitVec 24) => fld f.toNat 21 2 = 2 ∧ f.getLsbD 16 = false ∧
       (p.ptr (fld f.toNat 19 2)).toNat < 0xE000 ∧ (p.ptr (4 + fld f.toNat 17 2)).toNat < 0xE000
     let x := fun (p : Pe) (f : BitVec 24) => p.memWord 0 (p.ptr (fld f.toNat 19 2)).toNat
     let y := fun (p : Pe) (f : BitVec 24) => p.memWord 1 (p.ptr (4 + fld f.toNat 17 2)).toNat
     PeDoes .maxi (peWord 7 1) 0x00FFFF 1 two (fun p f => seen true f (y p f) (seen true f (x p f) p)) ∧
     PeDoes .mini (peWord 7 2) 0x00FFFF 1 two (fun p f => seen false f (y p f) (seen false f (x p f) p))))

/-- R237, R255–R258: PUSHQ fills the push buffer or waits; DMAGO, DMAWT and DMAST start, await and tell a channel; a
descriptor that ends has moved its bytes within the engine's memories. -/
def Obligations.PacerPushAndDma : Prop :=
  (∀ (e : Fin 16) (f : BitVec 24) (s : State),
    let p := peNow e s
    let a := (p.ptr (fld f.toNat 18 3)).toNat
    let waits := fun (t : State) => pe e t = { pe e s with stalled := true } ∧ (∀ n, n ≠ e.val → pe n t = pe n s) ∧
      t = { s with pes := t.pes }
    (PeReady e (peWord 8 0 f) s → f.toNat &&& 0x03FFFF = 0 → p.buffer.length < 4 → a + 7 < 0xE000 →
      Reaches (.pushq e f) s (PeStep e 8 { p with buffer := p.buffer ++
        [((p.xr (fld f.toNat 21 3)).toNat % 2 ^ 18, (List.range 8).map (fun i => p.memWord 0 (a + i)))] } s)) ∧
    (PeReady e (peWord 8 0 f) s → f.toNat &&& 0x01FFFF = 0 → 4 ≤ p.buffer.length → Reaches (.pushq e f) s waits) ∧
    (PeReady e (peWord 8 1 f) s → f.toNat &&& 0x23FFFF = 0 → a ≤ 0xDFF8 →
      ((p.ch (fld f.toNat 22 2)).busy = false → Reaches (.dmago e f) s (PeStep e 1 (p.setCh (fld f.toNat 22 2)
        { busy := true, desc := (List.range 8).map (fun i => p.memWord 0 (a + i)), epoch := rd K.dramMapEpoch s
          at0 := p.issue * 8192 / 5 }) s)) ∧
      ((p.ch (fld f.toNat 22 2)).busy = true → Reaches (.dmago e f) s waits)) ∧
    (PeReady e (peWord 8 2 f) s → f.toNat &&& 0x0FFFFF = 0 →
      ((∀ c, c < 4 → f.getLsbD (20 + c) = true → (p.ch c).busy = false) → Reaches (.dmawt e f) s (PeStep e 1 p s)) ∧
      ((∃ c, c < 4 ∧ f.getLsbD (20 + c) = true ∧ (p.ch c).busy = true) → Reaches (.dmawt e f) s waits)) ∧
    (PeReady e (peWord 8 3 f) s → f.toNat &&& 0x07FFFF = 0 →
      let d := p.ch (fld f.toNat 19 2)
      Reaches (.dmast e f) s (PeStep e 1
        (p.setX (fld f.toNat 21 3) (BitVec.ofNat 32 ((if d.busy then 2 ^ 31 else 0) + d.err * 2 ^ 28 + d.done))) s))) ∧
  (∀ (e : Fin 16) (s : State),
    let p := pe e s
    let q := pe e (dmaMoves e s)
    ((∀ c, c < 4 → wordsLeft e c s = 0) → dmaMoves e s = s) ∧
    (∀ c, c < 4 → ∃ n, n ≤ wordsLeft e c s ∧ (q.ch c).done = (p.ch c).done + 4 * n ∧
      (q.ch c).busy = (p.ch c).busy ∧ (q.ch c).err = (p.ch c).err ∧ (q.ch c).desc = (p.ch c).desc) ∧
    (∀ b i, b ≤ 2 → (∀ c, c < 4 → 0 < wordsLeft e c s →
        let d := readDesc (p.ch c).desc
        let at_ := (d.dst + (p.ch c).done) / 4
        spaceBus d.dsp = b → i < at_ ∨ at_ + wordsLeft e c s ≤ i) → q.memWord b i = p.memWord b i) ∧
    dmaMoves e s = { s with pes := (dmaMoves e s).pes, free := (dmaMoves e s).free } ∧
    q = { p with pm := q.pm, xm := q.xm, ym := q.ym, stores := q.stores, dma := q.dma
                 cacheAt := q.cacheAt, cached := q.cached, stale := q.stale } ∧
    (∀ n, n ≠ e.val → pe n (dmaMoves e s) = pe n s)) ∧
  (∀ (e : Fin 16) (c : Fin 4) (s : State),
    let p := pe e s
    let x := p.ch c
    let d := readDesc x.desc
    let from_ := (d.src + x.done) / 4
    let to_ := (d.dst + x.done) / 4
    let left := (d.len - x.done) / 4
    let ends := fun (t : State) =>
      (pe e t).ch c = { x with busy := false, err := 0, done := d.len, hold := none, at0 := ((pe e t).ch c).at0 } ∧
      (∀ n, n ≠ e.val → pe n t = pe n s) ∧ t = { s with pes := t.pes, free := t.free }
    x.busy = true → fenced (0x10 + e) s = false → x.desc.length = 8 → d.ok = true → d.dram = false → d.stop = true →
    (peState e s ≠ 2 → Reaches (.dmaDescriptorEnd e c) s (fun t => ends t ∧ (∀ j : Fin 4, j ≠ c →
      ∃ n, min (wordsLeft e j s) (left - 1) ≤ n ∧ n ≤ min (wordsLeft e j s) left ∧
        ((pe e t).ch j).done = (p.ch j).done + 4 * n))) ∧
    ((∀ j, j < 4 → j ≠ c.val → wordsLeft e j s = 0) → undefinedNext e s = false → d.ssp = 1 → d.dsp = 2 →
      Reaches (.dmaDescriptorEnd e c) s (fun t => ends t ∧ t.free = s.free ∧
        (∀ i, (pe e t).memWord 1 i = if to_ ≤ i ∧ i < to_ + left then p.portWord s.time.sys 0 (from_ + (i - to_))
          else p.memWord 1 i) ∧
        pe e t = { p with ym := (pe e t).ym, dma := (pe e t).dma, stores := (pe e t).stores
                          freeAt := max p.freeAt s.time.sys, dmaEvt := p.dmaEvt || d.ev } ∧
        (∀ j : Fin 4, j ≠ c → (pe e t).ch j = p.ch j) ∧ (pe e t).stores.Sublist p.stores))) ∧
  (∀ (e : Fin 16) (c : Fin 4) (s : State),
    let x := (pe e s).ch c
    let d := readDesc x.desc
    (x.busy = false → exec (.dmaDescriptorEnd e c) s = .next s) ∧
    (x.error s = 0 → d.dram = true → x.done < d.len → exec (.dmaDescriptorEnd e c) s = .next s) ∧
    (x.busy = true → fenced (0x10 + e) s = false → x.error s ≠ 0 → undefinedNext e s = false →
      Reaches (.dmaDescriptorEnd e c) s (fun t =>
        (pe e t).ch c = { x with busy := false, err := x.error s, hold := none } ∧
        (∀ j, j ≠ c → (pe e t).ch j.val = (pe e s).ch j.val) ∧
        pe e t = { pe e s with dma := (pe e t).dma, freeAt := max (pe e s).freeAt s.time.sys, dmaEvt := (pe e s).dmaEvt || d.ev } ∧
        (∀ n, n ≠ e.val → pe n t = pe n s) ∧ t = { s with pes := t.pes })) ∧
    (x.desc.length ≠ 8 ∨ d.ok = false → x.error s = 1) ∧
    (x.desc.length = 8 → d.ok = true → x.done < d.len → d.mappedAt x.done s = false → x.error s = 2) ∧
    (x.desc.length = 8 → d.ok = true → (x.done < d.len → d.mappedAt x.done s = true) →
      x.error s = if d.dram = true ∧ x.epoch ≠ rd K.dramMapEpoch s then 3 else 0))

/-- R209, R223, R225, R228, R231, R235, R239, R244: where an instruction is a program error: the engine stops in ERROR, with
the code and the address, and its registers stand. -/
def Obligations.PacerProgramErrors : Prop :=
  ∀ (e : Fin 16) (f : BitVec 24) (bus : BitVec 2) (s : State),
    let p := peNow e s
    (PeAt e (peWord 0 0 f) s → f ≠ 0 → Reaches (.pacerNop e f) s (PeStops e 2 s)) ∧
    (PeAt e (peWord 0 1 f) s → f.toNat &&& 0x07C000 = 0 →
      (fld f.toNat 20 4 = 15 → Reaches (.b e f) s (PeStops e 2 s)) ∧
      (fld f.toNat 20 4 ≠ 15 → p.branch ≠ none → Reaches (.b e f) s (PeStops e 2 s)) ∧
      (fld f.toNat 20 4 ≠ 15 → p.branch = none → p.nearEnd = true → Reaches (.b e f) s (PeStops e 4 s)) ∧
      (fld f.toNat 20 4 ≠ 15 → p.branch = none → p.nearEnd = false → f.getLsbD 19 = true → p.llvl = 0 →
        Reaches (.b e f) s (PeStops e 3 s))) ∧
    (PeAt e (peWord 0 4 f) s → f.getLsbD 23 = false →
      (p.llvl = 3 ∨ (f.extractLsb' 0 14).toNat < p.pc.toNat + 1) → Reaches (.doRepeat e f) s (PeStops e 3 s)) ∧
    (PeAt e (peWord 0 8 f) s → f.toNat &&& 0x7FFFE0 = 0 → f.getLsbD 23 = false → 8 < (f.extractLsb' 0 5).toInt →
      Reaches (.ssc e f) s (PeStops e 5 s)) ∧
    (PeAt e (peWord 4 (bus.toNat * 4) f) s → bus ≠ 3 → (fld f.toNat 19 2 ≠ 2 → fld f.toNat 0 16 = 0) →
      (if bus = 2 then 0x4000 else 0xE000) ≤ (p.ptr (fld f.toNat 21 3)).toNat → Reaches (.ld e bus f) s (PeStops e 1 s)) ∧
    (PeAt e (peWord 5 3 f) s → f.toNat &&& 0x00FFFF = 0 → fld f.toNat 16 2 = 3 → Reaches (.mvrx e f) s (PeStops e 2 s)) ∧
    (let nxt := p.pc.toNat + 1
     PeAt e (peWord 0 0 0) s → p.branch = none → p.nearEnd = false → p.cached = false → p.cacheAt = none →
     (0x4000 ≤ nxt ∨ p.sr.getLsbD 16 = false ∧ wordDefined (p.memWord 2 nxt) = false) →
      Reaches (.pacerNop e 0) s (fun t => rd (K.peErr e) t = 2 ^ 31 + (if 0x4000 ≤ nxt then 6 else 2) ∧
        rd (K.peState e) t = 3 ∧ (nxt < 0x4000 → rd (K.peErrPc e) t = nxt)))

/-! ### Engines and the Starter (09, 11) -/

/-- R236, R238: PE_CMD in the states that accept it, and the host's accesses to an engine's memories through
PE_MEM_ADDR. -/
def Obligations.EngineCommands : Prop :=
  ∀ e : Fin 16,
    let key := K.peCmd e
    let frame := fun (keys : List Nat) (x : Session) (s t : State) => ObjsBut keys s t ∧ HostFrame x s t ∧
      (∀ n, n ≠ e.val → pe n t = pe n s) ∧
      t = { s with objs := t.objs, pes := t.pes, starter := { s.starter with elig := t.starter.elig }
                   sessions := t.sessions, baton := t.baton }
    HostDoes (.peEnable · e) opWrite key [1] 0 false (fun _ s => peState e s = 0)
      (fun x s t => rd (K.peState e) t = 1 ∧
        pe e t = { pe e s with cycl := 0, issue := max (pe e s).issue s.time.sys } ∧
        Tab.get 0 e.val t.starter.elig = s.time.sys ∧ frame [K.peState e] x s t) ∧
    HostDoes (.peDisable · e) opWrite key [2] 0 false (fun _ s => peState e s = 1)
      (fun x s t => rd (K.peState e) t = 0 ∧
        pe e t = { pe e s with cycl := (pe e s).cycl + (s.time.sys - (pe e s).issue), issue := max (pe e s).issue s.time.sys } ∧
        t.starter = s.starter ∧ frame [K.peState e] x s t) ∧
    HostDoes (.peClear · e) opWrite key [3] 0 false (fun _ s => peState e s = 3)
      (fun x s t => rd (K.peState e) t = 1 ∧ rd (K.peErr e) t = 0 ∧
        pe e t = { pm := (pe e s).pm, xm := (pe e s).xm, ym := (pe e s).ym, dma := (pe e s).dma, buffer := (pe e s).buffer
                   issue := max (pe e s).issue s.time.sys, window := (pe e s).window, freeAt := (pe e s).freeAt } ∧
        frame [K.peState e, K.peErr e] x s t) ∧
    HostRefuses (.peEnable · e) opWrite key [1] 0 false Code.state (fun _ s => peState e s ≠ 0) ∧
    HostRefuses (.peDisable · e) opWrite key [2] 0 false Code.state (fun _ s => peState e s ≠ 1) ∧
    HostRefuses (.peClear · e) opWrite key [3] 0 false Code.state (fun _ s => peState e s ≠ 3) ∧
    (∀ p : Bytes, p.length % 4 = 0 → 4 ≤ p.length → p.length ≤ 4096 →
      let n := p.length / 4
      let at_ := fun (x : Session) => x.peAddr e % 65536
      HostDoes (.peMemDataWrite · e p) opWrite (K.peMemData e) p 1 true
        (fun x s => x.peAddr e / 2 ^ 28 = 1 ∧ at_ x + n ≤ 0xE000 ∧ undefinedNext e (dmaMoves e s) = false)
        (fun x s t =>
          let q := pe e (dmaMoves e s)
          (∀ i, (pe e t).memWord 0 i = if at_ x ≤ i ∧ i < at_ x + n then BitVec.ofNat 32 (leAt (4 * (i - at_ x)) 4 p)
            else q.memWord 0 i) ∧
          pe e t = { q with xm := (pe e t).xm, stores := (pe e t).stores } ∧ (pe e t).stores.Sublist q.stores ∧ (∀ m, m ≠ e.val → pe m t = pe m s) ∧
          (∃ y, session x.id t = some y ∧ y.peAddr e = x.peAddr e + n ∧ ∀ m, m ≠ e.val → y.peAddr m = x.peAddr m) ∧
          (∀ i, i ≠ x.id → session i t = session i s) ∧
          t = { s with pes := t.pes, free := (dmaMoves e s).free, sessions := t.sessions
                       baton := { s.baton with answer := t.baton.answer } }) ∧
      HostRefuses (.peMemDataWrite · e p) opWrite (K.peMemData e) p 1 true Code.state
        (fun x s => x.peAddr e / 2 ^ 28 = 0 ∧ peState e s ≠ 0) ∧
      HostRefuses (.peMemDataWrite · e p) opWrite (K.peMemData e) p 1 true Code.refused
        (fun x _ => x.peAddr e / 2 ^ 28 = 1 ∧ 0xE000 < at_ x + n)) ∧
    HostDoes (.peMemDataRead · e) opRead (K.peMemData e) [] 0 false
      (fun x s => x.peAddr e / 2 ^ 28 = 2 ∧ x.peAddr e % 65536 < 0xE000 ∧ undefinedNext e (dmaMoves e s) = false)
      (fun x s t =>
        let a := x.peAddr e % 65536
        let n := min (min 1024 (answerMax x s / 4)) (0xE000 - a)
        Receives x ((List.range n).flatMap (fun i => leBytes 4 ((pe e (dmaMoves e s)).portWord s.time.sys 1 (a + i)).toNat)) t ∧
        (∃ y, session x.id t = some y ∧ y.peAddr e = x.peAddr e + n) ∧ (∀ i, i ≠ x.id → session i t = session i s) ∧
        t = { dmaMoves e s with sessions := t.sessions, baton := { s.baton with answer := t.baton.answer } })

/-- R233, R236, R243, R264, R266: a task is dispatched to an engine, which enters IVEC; an accepted request enters it
likewise; and TEND ends the task's run.
R264: one READY task goes to the engine of its mask that is there first, the lowest-numbered where several are, and is
decided at the first cycle at which both are there. -/
def Obligations.EnginesRunTasks : Prop :=
  (∀ (e : Fin 16) (s : State),
      let p := pe e s
      let enters := fun (cause : BitVec 8) (cycle : Nat) => { p with
        ipc := p.pc, isr := p.sr, icause := cause, sr := p.sr &&& 0xFFFE3FFF#32, pc := p.ivec
        cycl := p.cycl + (cycle - p.issue), issue := cycle, stalled := false, resume := false
        cacheAt := if p.cached then p.cacheAt else none }
      let still := p.late = [] ∧ p.stores = [] ∧ p.cached = false ∧ wordDefined (p.memWord 2 p.ivec.toNat) = true
      let cycles := fun (n : Nat) (t : State) => rd (K.peCycles e) t = (rd (K.peCycles e) s + n) % 2 ^ 64
      (∀ t decided, eligible e s = true → dispatchee e s = some (t, decided) → still → (∀ k, k < 16 → rd (K.engPreemptPending k) s ≠ t) →
        let c := tcb t s
        let at_ := decided + 16
        let wait := min (2 ^ 32 - 1) (at_ - c.since)
        Reaches (.dispatch ⟨e.val, by omega⟩) s (fun u =>
          pe e u = { enters 1 (at_ + 4) with
            taskid := BitVec.ofNat 16 (t + if c.res then 0x8000 else 0), targ := BitVec.ofNat 32 c.arg, lastReq := none
            tended := none, window := p.window + 4 } ∧
          tcb t u = { c with state := 2, engine := e, argRun := c.arg, waitLast := wait, waitMax := min (2 ^ 32 - 1) (max c.waitMax (at_ - c.since)) } ∧
          (∀ m, m ≠ t → tcb m u = tcb m s) ∧ rd (K.engTask e) u = t ∧ rd (K.peState e) u = 2 ∧ cycles 4 u ∧
          rd K.stDispatches u = (rd K.stDispatches s + 1) % 2 ^ 64 ∧
          rd (K.engDispatches e) u = min (2 ^ 32 - 1) (rd (K.engDispatches e) s + 1) ∧ (∀ m, m ≠ e.val → pe m u = pe m s) ∧
          ObjsBut [K.engTask e, K.peState e, K.peCycles e, K.stDispatches, K.engDispatches e] s u ∧
          u = { s with objs := u.objs, pes := u.pes, tcbs := u.tcbs })) ∧
      (acceptsNow e s = true → p.req = true → p.dmaEvt = false → still → Reaches (.interruptAccept e) s (fun u =>
        pe e u = { enters 2 (p.issue + 3) with req := false, window := p.window + 3 } ∧ cycles 3 u ∧
        rd (K.engPreemptPending e) u = 0xFFFF ∧ (∀ m, m ≠ e.val → pe m u = pe m s) ∧
        ObjsBut [K.peCycles e, K.engPreemptPending e] s u ∧ u = { s with objs := u.objs, pes := u.pes })) ∧
      (acceptsNow e s = true → p.req = false → p.dmaEvt = true → still → Reaches (.interruptAccept e) s (fun u =>
        pe e u = { enters 3 (p.issue + 3) with dmaEvt := false, window := p.window + 3 } ∧ cycles 3 u ∧
        (∀ m, m ≠ e.val → pe m u = pe m s) ∧ ObjsBut [K.peCycles e] s u ∧ u = { s with objs := u.objs, pes := u.pes })) ∧
      (acceptsNow e s = false → exec (.interruptAccept e) s = .next s) ∧
      (∀ code, p.tended = some code → peState e s = 2 → p.buffer = [] → (∀ d ∈ p.dma.toList, d.busy = false) →
        p.late = [] → p.stores = [] → taskOf e s < 4096 →
        let t := taskOf e s
        let c := tcb t s
        let stop := max (p.issue + 4) p.freeAt
        let n := stop - p.issue
        let ended := fun (kind state : Nat) (u : State) => (tcb t u).last = kind * 256 + code ∧ (tcb t u).state = state ∧
          (tcb t u).runs = min (2 ^ 32 - 1) (c.runs + 1) ∧ (tcb t u).res = decide (kind = 1) ∧
          (∀ m, m ≠ t → tcb m u = tcb m s) ∧ rd (K.engTask e) u = 0xFFFF ∧ rd (K.peState e) u = 1 ∧ cycles n u ∧
          pe e u = { p with tended := none, req := false, cycl := p.cycl + n, issue := stop, window := p.window + n } ∧
          (∀ m, m ≠ e.val → pe m u = pe m s) ∧ Tab.get 0 e.val u.starter.elig = max stop s.time.sys ∧
          u = { s with objs := u.objs, pes := u.pes, tcbs := u.tcbs, starter := u.starter }
        c.stopReq = false → c.state = 2 →
        (code ≠ 0xFF → 4096 ≤ c.next → c.rpt = false → Reaches (.taskEnd e) s (fun u => ended 0 0 u ∧
          ObjsBut [K.engTask e, K.peState e, K.engPreemptPending e, K.peCycles e] s u)) ∧
        (code = 0xFF → Reaches (.taskEnd e) s (fun u => ended 1 1 u ∧ (tcb t u).since = stop ∧
          rd K.stYields u = min (2 ^ 32 - 1) (rd K.stYields s + 1) ∧
          ObjsBut [K.engTask e, K.peState e, K.engPreemptPending e, K.peCycles e, K.stYields] s u))) ∧
      (p.tended = none → exec (.taskEnd e) s = .next s)) ∧
  (∀ (t : Nat) (c : Tcb) (e : Nat) (s : State), s.tcbs = [(t, c)] → c.state = 1 → e < 20 → c.mask.testBit e = true →
      let since := fun f => max c.since (Tab.get 0 f s.starter.elig)
      eligible e s = true →
      (∀ f, f < 20 → c.mask.testBit f = true → eligible f s = true → since e < since f ∨ since e = since f ∧ e ≤ f) →
      dispatchee e s = some (t, since e) ∧ ∀ f, f ≠ e → dispatchee f s = none)

/-- R261, R262, R268, R270: POST, CANCEL, DISABLE and ENABLE of the task that TCB_PTR names. -/
def Obligations.TaskCommands : Prop :=
  let does := fun (c : Req → Instr) (v : Byte) (pre : Tcb → Prop) (post : Tcb → Tcb → State → Prop) =>
    HostDoes c opWrite K.tcbCmd [v] 0 false (fun x s => x.tcbPtr < 4096 ∧ pre (tcb x.tcbPtr s) ∧
        ∀ k, k < 16 → rd (K.engPreemptPending k) s ≠ x.tcbPtr)
      (fun x s t => post (tcb x.tcbPtr s) (tcb x.tcbPtr t) s ∧ (∀ m, m ≠ x.tcbPtr → tcb m t = tcb m s) ∧
        HostFrame x s t ∧ t = { s with tcbs := t.tcbs, sessions := t.sessions, baton := t.baton
                                       starter := { s.starter with order := t.starter.order } })
  let absorbed := fun (c d : Tcb) (_ : State) => d = { c with coal := min (2 ^ 32 - 1) (c.coal + 1) }
  does .taskPost 1 (fun c => c.mask = 0 ∨ c.state = 4 ∨ c.state = 1) absorbed ∧
  does .taskPost 1 (fun c => c.mask ≠ 0 ∧ c.state = 0 ∧ c.delay = 0) (fun c d s => d = { c with
    state := 1, since := s.time.sys, order := s.starter.order, sched := c.sched || 0 < c.period
    toGo := if !c.sched && 0 < c.period then c.period else c.toGo }) ∧
  does .taskPost 1 (fun c => c.mask ≠ 0 ∧ c.state = 0 ∧ c.delay ≠ 0) (fun c d _ => d = { c with state := 3, left := c.delay }) ∧
  does .taskPost 1 (fun c => c.mask ≠ 0 ∧ c.state = 3) absorbed ∧
  does .taskPost 1 (fun c => c.mask ≠ 0 ∧ c.state = 2 ∧ c.rpt = false) (fun c d _ => d = { c with rpt := true }) ∧
  does .taskPost 1 (fun c => c.mask ≠ 0 ∧ c.state = 2 ∧ c.rpt = true) absorbed ∧
  does .cancel 2 (fun c => c.state = 1 ∨ c.state = 3) (fun c d _ => d = { c with sched := false, toGo := 0, state := 0 }) ∧
  does .cancel 2 (fun c => c.state = 2) (fun c d _ => d = { c with sched := false, toGo := 0, rpt := false }) ∧
  does .cancel 2 (fun c => c.state = 0 ∨ c.state = 4) (fun c d _ => d = { c with sched := false, toGo := 0 }) ∧
  does .taskDisable 3 (fun c => c.state ≠ 2 ∧ (c.state = 3 → 0 < c.left)) (fun c d _ => d = { c with state := 4 }) ∧
  does .taskDisable 3 (fun c => c.state = 3 ∧ c.left = 0)
    (fun c d _ => d = { c with state := 4, coal := min (2 ^ 32 - 1) (c.coal + 1) }) ∧
  does .taskDisable 3 (fun c => c.state = 2) (fun c d _ => d = { c with stopReq := true }) ∧
  does .taskEnable 4 (fun c => c.state = 4) (fun c d _ => d = { c with state := 0 }) ∧
  does .taskEnable 4 (fun c => c.state ≠ 4) (fun c d _ => d = c)

/-- R265, R267: a pre-emption request reaches a busy engine; the services of a control core run and end.
R268, R269: a Starter tick counts every delay and period down; a delay and a period that run out enter READY; a load
window gives the engines' loads. -/
def Obligations.RequestsServicesAndTicks : Prop :=
  ((∀ (e : Fin 16) (t : Nat) (c : Tcb) (s : State),
      (preemptor e s = some (t, c) → Reaches (.preemptionRequest e) s (fun u =>
        pe e u = { pe e s with req := true, lastReq := some t, targ := BitVec.ofNat 32 c.arg
                               taskid := BitVec.ofNat 16 (t + if (tcb t s).res then 0x8000 else 0) } ∧
        (∀ n, n ≠ e.val → pe n u = pe n s) ∧ rd (K.engPreemptPending e) u = t ∧
        rd K.stPreemptReqs u = min (2 ^ 32 - 1) (rd K.stPreemptReqs s + 1) ∧
        ObjsBut [K.engPreemptPending e, K.stPreemptReqs] s u ∧ u = { s with objs := u.objs, pes := u.pes })) ∧
      (preemptor e s = none → exec (.preemptionRequest e) s = .next s)) ∧
    (∀ (k : Fin 4) (s : State),
      let e := 16 + k.val
      let t := taskOf e s
      let c := tcb t s
      let ended := fun (code : Nat) (keys : List Nat) (u : State) =>
        (tcb t u).state = 0 ∧ (tcb t u).last = code ∧ (tcb t u).runs = min (2 ^ 32 - 1) (c.runs + 1) ∧
        (∀ m, m ≠ t → tcb m u = tcb m s) ∧ rd (K.engTask e) u = 0xFFFF ∧
        (∃ d : Nat, d ≤ 20000 ∧ Tab.get 0 e u.starter.elig = max (Tab.get 0 e s.starter.elig + d) s.time.sys ∧
          Tab.get 0 e u.starter.busy = Tab.get 0 e s.starter.busy + d) ∧
        ObjsBut (K.engTask e :: keys) s u
      t < 4096 → c.next = 0xFFFF → c.rpt = false → c.stopReq = false →
      (c.service = 1 →
        let g := c.argRun % 16
        let n := if (grp g s).spillFail.isSome then 0 else min 64 (grp g s).fifo.length
        Reaches (.failFwd k) s (fun u => ended n [] u ∧ (grp g u).fifo = (grp g s).fifo.drop n ∧ GrpsBut [g] s u ∧
          Tab.get [] e u.rqm.ccItems = Tab.get [] e s.rqm.ccItems ++
            ((grp g s).fifo.take n).map (recordItem (c.argRun / 2 ^ 28) (c.argRun / 65536 % 4096)) ∧
          u = { s with objs := u.objs, grps := u.grps, tcbs := u.tcbs, starter := u.starter, free := u.free
                       rqm := { s.rqm with ccItems := u.rqm.ccItems } })) ∧
      (c.service = 2 → (∀ x ∈ s.sessions, x.subs = []) → Reaches (.hostNote k) s (fun u => ended 0 [K.stNote] u ∧
        rd K.stNote u = c.argRun ∧ u = { s with objs := u.objs, tcbs := u.tcbs, starter := u.starter, free := u.free })) ∧
      (c.service ≠ 1 → exec (.failFwd k) s = .next s) ∧ (c.service ≠ 2 → exec (.hostNote k) s = .next s))) ∧
  (∀ s : State,
      (s.starter.tickNs ≤ s.starter.phase → anyExpiry s = false → Reaches .starterTick s (fun t =>
        (∀ n c, Tab.find n s.tcbs = some c → tcb n t = { c with
          left := if c.state = 3 then c.left - 1 else c.left, toGo := if c.sched then c.toGo - 1 else c.toGo }) ∧
        t.starter = { s.starter with phase := s.starter.phase - s.starter.tickNs, tickNs := rd K.stTickNs s } ∧
        t = { s with tcbs := t.tcbs, starter := t.starter })) ∧
      (s.starter.phase < s.starter.tickNs → exec .starterTick s = .next s) ∧
      (∀ task : BitVec 12,
        let c := tcb task.toNat s
        (firstExpiry s = some task.toNat → c.state = 3 → c.left = 0 → Reaches (.delayExpiry task) s (fun t =>
          tcb task.toNat t = { c with
            state := 1, since := s.time.sys, order := s.starter.order, sched := c.sched || 0 < c.period
            toGo := if !c.sched && 0 < c.period then c.period else c.toGo } ∧
          (∀ m, m ≠ task.toNat → tcb m t = tcb m s) ∧
          t = { s with tcbs := t.tcbs, starter := { s.starter with order := s.starter.order + 1 } })) ∧
        (firstExpiry s = some task.toNat → c.sched = true → c.toGo = 0 → c.mask ≠ 0 → c.state = 0 →
          Reaches (.periodExpiry task) s (fun t =>
          tcb task.toNat t = { c with state := 1, since := s.time.sys, order := s.starter.order, toGo := c.period, sched := c.period != 0 } ∧
          (∀ m, m ≠ task.toNat → tcb m t = tcb m s) ∧
          t = { s with tcbs := t.tcbs, starter := { s.starter with order := s.starter.order + 1 } })) ∧
        (firstExpiry s = none → exec (.delayExpiry task) s = .next s ∧ exec (.periodExpiry task) s = .next s)) ∧
      (s.starter.window + 1000000 ≤ s.time.sys →
        let ends : Int := s.starter.window + 1000000
        let lack := fun (running : Bool) (upTo : Nat) => if running = true then ends - upTo else min 0 (ends - upTo)
        let load := fun (v : Int) => min 1000000 v.toNat
        let pacer := fun e => lack (rd (K.peState e) s == 2) (pe e s).issue
        let core := fun k => lack (taskOf (16 + k) s != 0xFFFF) (Tab.get 0 (16 + k) s.starter.elig)
        Reaches .engLoadWindow s (fun t =>
        (∀ e, e < 16 → rd (K.engLoad e) t = load ((pe e s).window + pacer e) ∧ pe e t = { pe e s with window := - pacer e }) ∧
        (∀ k, k < 4 → rd (K.engLoad (16 + k)) t = load (Tab.get 0 (16 + k) s.starter.busy + core k) ∧
          Tab.get 0 (16 + k) t.starter.busy = - core k) ∧
        ObjsBut ((List.range 20).map K.engLoad) s t ∧
        t.starter = { s.starter with window := s.starter.window + 1000000, busy := t.starter.busy } ∧
        t = { s with objs := t.objs, pes := t.pes, starter := t.starter })) ∧
      (s.time.sys < s.starter.window + 1000000 → exec .engLoadWindow s = .next s))

/-- R271, R272, R274, R277: a push lands at the tail of its queue, is dropped for want of space, or is bad; the crossing of
Q_LEVEL gives notice.
R272, R276, R277, R280: Q_READ takes the items of least PRI first, each in the order of its push; an empty queue gives
the idle item; Q_CLEAR, RQ_HIT_SITES and Q_HIT_MAP clear. -/
def Obligations.ResultQueues : Prop :=
  (∀ (e : Fin 16) (q : Nat) (w : List Word) (rest : List (Nat × List Word)) (s : State),
      let u := rqueue q s
      let src : Fin 20 := ⟨e.val, by omega⟩
      let good := q % 4096 < rd K.rqStreams s ∧ q < 262144 ∧ (w.headD 0).toNat / 65536 ≠ 0xFFFF
      let stored := match w with | a :: l => (a &&& 0xFFFFF000#32) :: l | [] => []
      let rqm := { s.rqm with turn := (e.val + 1) % 20 }
      let base := fun (t : State) => pe e t = { pe e s with buffer := rest, freeAt := max (pe e s).freeAt s.time.sys } ∧ (∀ n, n ≠ e.val → pe n t = pe n s) ∧
        (∀ m, m ≠ q → rqueue m t = rqueue m s)
      let lands := good ∧ (u.items = [] ∧ rd K.rqStreams s ≤ 512 ∨ u.items ≠ [] ∧ 0 < cacheFree s)
      let spills := good ∧ dramSlots s = true ∧
        (u.items = [] ∧ 512 < rd K.rqStreams s ∨ u.items ≠ [] ∧ cacheFree s = 0 ∧ 0 < spillFree s)
      let drops := good ∧ (u.items = [] ∧ 512 < rd K.rqStreams s ∧ dramSlots s = false ∨
        u.items ≠ [] ∧ cacheFree s = 0 ∧ (spillFree s = 0 ∨ dramSlots s = false))
      (nextSource s ≠ some e.val → exec (.push src) s = .next s) ∧
      (nextSource s = some e.val → (pe e s).buffer = (q, w) :: rest →
      (lands → (u.items.length ≠ u.level ∨ u.level = 0xFFFFFFFF) → Reaches (.push src) s (fun t => base t ∧
        rqueue q t = { u with items := u.items ++ [{ words := stored }] } ∧
        t = { s with pes := t.pes, queues := t.queues, rqm })) ∧
      (spills → (u.items.length ≠ u.level ∨ u.level = 0xFFFFFFFF) → Reaches (.push src) s (fun t =>
        let v := makeRoom q s
        let j := takeSlot q v
        (32 * takeSlot q s + 32 ≤ rd K.rqSpillSize s → v = s) ∧
        pe e t = { pe e s with buffer := rest, freeAt := max (pe e s).freeAt s.time.sys } ∧ (∀ n, n ≠ e.val → pe n t = pe n s) ∧
        rqueue q t = { rqueue q v with items := (rqueue q v).items ++ [{ words := stored, slot := some j }] } ∧
        (∀ m, m ≠ q → rqueue m t = rqueue m v) ∧
        t.dram = { s.dram with reqs := v.dram.reqs ++ [mkReq 4 (slotAddr j s) true (.rqSpill j stored) s] } ∧
        t = { s with pes := t.pes, queues := t.queues, dram := t.dram, rqm })) ∧
      (lands → u.items.length = u.level → u.level ≠ 0xFFFFFFFF → (∀ x ∈ s.sessions, x.subs = []) →
        Reaches (.push src) s (fun t => base t ∧ rqueue q t = { u with items := u.items ++ [{ words := stored }] } ∧
        (Tab.get 0 (q / 4096) t.rqm.hits).testBit (q % 4096) = true ∧ (rd K.rqHitSites t).testBit (q / 4096) = true ∧
        (∀ i, i ≠ q / 4096 → (rd K.rqHitSites t).testBit i = (rd K.rqHitSites s).testBit i) ∧
        ObjsBut [K.rqHitSites] s t ∧
        t = { s with objs := t.objs, pes := t.pes, queues := t.queues, rqm := { rqm with hits := t.rqm.hits } })) ∧
      (drops → Reaches (.push src) s (fun t =>
        base t ∧ rqueue q t = { u with dropped := min (2 ^ 32 - 1) (u.dropped + 1) } ∧
        rd K.rqDroppedTotal t = min (2 ^ 64 - 1) (rd K.rqDroppedTotal s + 1) ∧ ObjsBut [K.rqDroppedTotal] s t ∧
        t = { s with objs := t.objs, pes := t.pes, queues := t.queues, rqm })) ∧
      (¬ good → Reaches (.push src) s (fun t => base t ∧ rd K.rqBadPush t = min (2 ^ 32 - 1) (rd K.rqBadPush s + 1) ∧
        ObjsBut [K.rqBadPush] s t ∧ t = { s with objs := t.objs, pes := t.pes, rqm })))) ∧
  ((∀ delivered : Nat,
      HostDoes (.qRead · delivered) opRead K.qRead [] 0 false
        (fun x s => (rqueue x.qPtr s).items ≠ [] ∧ (∀ i ∈ (rqueue x.qPtr s).items, i.slot = none) ∧
          1 ≤ min x.readMax (answerMax x s / 32))
        (fun x s t => ∃ out rest,
          let l := (rqueue x.qPtr s).items
          List.Perm (out ++ rest) l ∧ out.length = min (min x.readMax (answerMax x s / 32)) l.length ∧ rest.Sublist l ∧
          out.Pairwise (fun a b => a.pri ≤ b.pri) ∧ (∀ a ∈ out, ∀ b ∈ rest, a.pri ≤ b.pri) ∧
          Receives x (out.flatMap (fun i => i.words.flatMap (fun w => leBytes 4 w.toNat))) t ∧
          rqueue x.qPtr t = { rqueue x.qPtr s with items := rest } ∧ (∀ m, m ≠ x.qPtr → rqueue m t = rqueue m s) ∧
          HostFrame x s t ∧ ObjsBut [] s t ∧
          t = { s with objs := t.objs, queues := t.queues, sessions := t.sessions, baton := t.baton }) ∧
      HostDoes (.qRead · delivered) opRead K.qRead [] 0 false (fun x s => (rqueue x.qPtr s).items = [])
        (fun x s t => Receives x (leBytes 4 0xFFFF0000 ++ List.replicate 28 0) t ∧ HostObjs [] x s t) ∧
      HostDoes (.qRead · delivered) opRead K.qRead [] 0 false
        (fun x s => (∃ w j, (rqueue x.qPtr s).items = [{ words := w, slot := some j }]) ∧ rd K.dramReady s = 1 ∧ 0 < delivered ∧
          1 ≤ min x.readMax (answerMax x s / 32) ∧ ∀ y ∈ s.sessions, y.subs = [])
        (fun x s t => (rqueue x.qPtr t).items = [] ∧
          (Receives x ((rqueue x.qPtr s).items.flatMap Item.bytes) t ∧ (rqueue x.qPtr t).lost = (rqueue x.qPtr s).lost ∧
              rd K.rqLostTotal t = rd K.rqLostTotal s ∨
            Receives x (leBytes 4 0xFFFF0000 ++ List.replicate 28 0) t ∧
              (rqueue x.qPtr t).lost = min (2 ^ 32 - 1) ((rqueue x.qPtr s).lost + 1)))) ∧
    HostRefuses (.qRead · 0) opRead K.qRead [] 0 false Code.busy
      (fun x s => (rqueue x.qPtr s).items ≠ [] ∧ (∀ i ∈ (rqueue x.qPtr s).items, i.inDram = true) ∧
        1 ≤ min x.readMax (answerMax x s / 32)) ∧
    HostDoes (.qClear · [1]) opWrite K.qClear [1] 0 false (fun _ _ => True)
      (fun x s t => rqueue x.qPtr t = { rqueue x.qPtr s with items := [] } ∧ (∀ m, m ≠ x.qPtr → rqueue m t = rqueue m s) ∧
        HostFrame x s t ∧ t = { s with queues := t.queues, sessions := t.sessions, baton := t.baton }) ∧
    HostDoes (.qClear · [0]) opWrite K.qClear [0] 0 false (fun _ _ => True) (HostObjs []) ∧
    (∀ p : Bytes, p.length = 8 →
      HostDoes (.hitClear · true p) opWrite K.rqHitSites p 0 false (fun _ _ => True)
        (fun x s t => (∀ i, (rd K.rqHitSites t).testBit i = ((rd K.rqHitSites s).testBit i && !(leNat p).testBit i)) ∧
          HostObjs [K.rqHitSites] x s t)) ∧
    (∀ p : Bytes, p.length = 512 →
      HostDoes (.hitClear · false p) opWrite K.qHitMap p 0 false (fun _ _ => True)
        (fun x s t => let site := x.qPtr / 4096
          (∀ i, (Tab.get 0 site t.rqm.hits).testBit i = ((Tab.get 0 site s.rqm.hits).testBit i && !(leNat p).testBit i)) ∧
          (∀ m, m ≠ site → Tab.get 0 m t.rqm.hits = Tab.get 0 m s.rqm.hits) ∧ HostFrame x s t ∧
          t = { s with sessions := t.sessions, baton := t.baton, rqm := { s.rqm with hits := t.rqm.hits } })))

/-! ### The time unit (12) -/

/-- R281, R284, R285, R292, R294: a tick advances the domains and ACT, applies what has been staged, and switches ACT or
holds it; without SYSCLK nothing ticks.
R281, R284, R292, R293: steering a domain, and naming the domain that ACT follows; each takes effect at the next tick. -/
def Obligations.NetworkTime : Prop :=
  (∀ (c : Nat) (s : State),
      let sel := s.time.sel
      let moved := fun d => (tdStage d s).moved = true ∨ (tdStage d s).set.isSome = true
      let start := fun d => if moved d then
          ofSigned 96 (((tdStage d s).set.getD (tdCount d s) : Nat) + if (tdStage d s).moved = true then (tdStage d s).offset else 0)
        else tdCount d s
      let jump : Int := if moved sel then toSigned 96 (start sel + 2 ^ 96 - tdCount sel s) else 0
      let count := fun d inc => if tdUsable d s = true then (start d + inc) % 2 ^ 96 else start d
      let inc := fun d => (tdStage d s).inc.getD (tdInc d s)
      let rate := (((if (switchDue s).isNone then inc sel else tdInc sel s) : Nat) + slewOf s.time.h (slewStep s)).toNat
      let quiet := (∀ i, i < 16 → (timer i s).cmp = none ∧ (timer i s).period = none ∧ (timer i s).mode = none) ∧ ∀ e, e < 16 → undefinedNext e s = false
      let at_ := max c s.time.ck
      let frame := fun (keys : List Nat) (t : State) => ObjsBut keys s t ∧
        t.time.ck = at_ ∧ t.time.sys = s.time.sys + 4 ∧ t.time.hist = (s.time.ck :: s.time.hist).take 65536 ∧
        (∀ i, i < 16 → timer i t = {}) ∧
        t = { s with
          now := max s.now (at_ * 1024), objs := t.objs, time := t.time, timers := t.timers
          starter := { s.starter with phase := s.starter.phase + 4 } }
      let incs := [K.tdInc 0, K.tdInc 1]
      (s.flt.active.contains 1 = true → exec (.timeTick c) s = .next s) ∧
      (s.flt.active.contains 1 = false → quiet → sel ≤ 1 → rd K.timeHoldover s = 0 →
        (s.time.fenceSw = false → switchDue s = none → Reaches (.timeTick c) s (fun t =>
          (∀ d, d ≤ 1 → tdCount d t = count d (inc d) ∧ tdInc d t = inc d ∧
            (tdStage d t).inc = none ∧ (tdStage d t).moved = false ∧ (tdStage d t).set = none) ∧
          t.time.act = (ofSigned 96 (s.time.act + jump) + rate) % 2 ^ 96 ∧ t.time.rate = rate ∧
          t.time.h = s.time.h - slewOf s.time.h (slewStep s) ∧ t.time.sel = sel ∧
          rd K.timeSteps t = (if moved sel then min (2 ^ 32 - 1) (rd K.timeSteps s + 1) else rd K.timeSteps s) ∧
          frame (K.timeSteps :: incs) t)) ∧
        (∀ d, switchDue s = some d → d ≤ 1 → Reaches (.timeTick c) s (fun t =>
          (∀ e, e ≤ 1 → tdCount e t = count e (tdInc e s) ∧ tdInc e t = inc e) ∧
          t.time.act = (ofSigned 96 (s.time.act + jump) + rate) % 2 ^ 96 ∧
          t.time.h = toSigned 96 (tdCount d t + 2 ^ 96 - t.time.act) ∧ t.time.sel = d ∧ rd K.timeActiveSel t = d ∧
          rd K.timeSwitches t = min (2 ^ 32 - 1) (rd K.timeSwitches s + 1) ∧ rd K.timeHoldover t = 0 ∧
          frame ([K.timeSteps, K.timeSwitches, K.timeActiveSel, K.timeHoldover] ++ incs) t)) ∧
        (s.time.fenceSw = true → switchDue s = none → Reaches (.timeTick c) s (fun t =>
          (∀ d, d ≤ 1 → tdCount d t = count d (inc d) ∧ tdInc d t = inc d) ∧
          rd K.timeHoldover t = 1 ∧ t.time.held = inc sel ∧ t.time.sel = sel ∧
          t.time.act = (ofSigned 96 (s.time.act + jump) + rate) % 2 ^ 96 ∧ frame ([K.timeSteps, K.timeHoldover] ++ incs) t))) ∧
      (s.flt.active.contains 1 = false → quiet → rd K.timeHoldover s = 1 → switchDue s = none →
        (∀ d, d ≤ 1 → ¬ moved d) → Reaches (.timeTick c) s (fun t =>
          t.time.act = (s.time.act + s.time.held) % 2 ^ 96 ∧ (∀ d, d ≤ 1 → tdCount d t = tdCount d s) ∧
          rd K.timeHoldover t = 1 ∧ t.time.sel = sel ∧
          t.time.h = s.time.h ∧ frame incs t))) ∧
  ((∀ (d : Fin 2) (p : Bytes),
      let stages := fun (g : State → TdStage) (x : Session) (s t : State) =>
        tdStage d t = g s ∧ (∀ e, e ≠ d.val → tdStage e t = tdStage e s) ∧ HostFrame x s t ∧
        t = { s with time := { s.time with stage := t.time.stage }, sessions := t.sessions, baton := t.baton }
      let host := fun (s : State) => rd (K.tdServo d) s = 0 ∧ fenced (0x28 + d) s = false
      (p.length = 8 →
        HostDoes (.tdIncWrite · d false p) opWrite (K.tdInc d) p 1 true
          (fun _ s => host s ∧ 0x00000003FEF9DB23 ≤ leNat p ∧ leNat p ≤ 0x00000004010624DD)
          (stages (fun s => { tdStage d s with inc := some (leNat p) })) ∧
        HostRefuses (.tdIncWrite · d false p) opWrite (K.tdInc d) p 1 true Code.range
          (fun _ _ => leNat p < 0x00000003FEF9DB23 ∨ 0x00000004010624DD < leNat p) ∧
        HostRefuses (.tdIncWrite · d false p) opWrite (K.tdInc d) p 1 true Code.state
          (fun _ s => ¬ host s ∧ 0x00000003FEF9DB23 ≤ leNat p ∧ leNat p ≤ 0x00000004010624DD) ∧
        HostDoes (.tdOffsetWrite · d false p) opWrite (K.tdOffset d) p 1 true (fun _ s => host s)
          (stages (fun s => { tdStage d s with offset := (tdStage d s).offset + toSigned 64 (leNat p), moved := true })) ∧
        HostDoes (.tdOffsetWrite · d true p) opWrite (K.tdOffsetFs d) p 1 false (fun _ s => host s)
          (stages (fun s => { tdStage d s with
            offset := (tdStage d s).offset + (2 * (toSigned 64 (leNat p) * 2 ^ 32) + 1000000) / 2000000, moved := true })) ∧
        HostRefuses (.tdOffsetWrite · d false p) opWrite (K.tdOffset d) p 1 true Code.state (fun _ s => ¬ host s)) ∧
      (p.length = 4 →
        let ppb := toSigned 32 (leNat p)
        HostDoes (.tdIncWrite · d true p) opWrite (K.tdIncPpb d) p 1 false
          (fun _ s => host s ∧ -1000000 ≤ ppb ∧ ppb ≤ 1000000)
          (stages (fun s => { tdStage d s with
            inc := some ((2 * (2 ^ 34 * (1000000000 + ppb)) + 1000000000) / 2000000000).toNat }))) ∧
      (p.length = 12 →
        HostDoes (.tdSetWrite · d p) opWrite (K.tdSet d) p 1 false (fun _ s => host s)
          (stages (fun s => { tdStage d s with set := some (leNat p), offset := 0, moved := false })) ∧
        HostRefuses (.tdSetWrite · d p) opWrite (K.tdSet d) p 1 false Code.state (fun _ s => ¬ host s))) ∧
    (∀ v : Byte,
      let usable := fun (s : State) => rd (K.tdEnable v.toNat) s = 1 ∧ fenced (0x28 + v.toNat) s = false
      HostDoes (.timeActiveSelWrite · [v]) opWrite K.timeActiveSel [v] 1 false (fun _ s => v.toNat ≤ 1 ∧ usable s)
        (fun x s t => t.time = { s.time with newSel := if v.toNat = s.time.sel then s.time.newSel else some v.toNat } ∧
          HostFrame x s t ∧ t = { s with time := t.time, sessions := t.sessions, baton := t.baton }) ∧
      HostRefuses (.timeActiveSelWrite · [v]) opWrite K.timeActiveSel [v] 1 false Code.state
        (fun _ s => v.toNat ≤ 1 ∧ ¬ usable s) ∧
      HostRefuses (.timeActiveSelWrite · [v]) opWrite K.timeActiveSel [v] 1 false Code.range (fun _ _ => 2 ≤ v.toNat)))

/-- R289, R290, R291: a timer fires, misses, and takes a host's writes at the next tick. -/
def Obligations.TimersFireAndMiss : Prop :=
  ∀ (i : Fin 16) (s : State),
    let d := timerDiff i s
    let edge := s.time.ck + (d.toNat * trefRatio s + (s.time.rate * 65536 - 1)) / (s.time.rate * 65536)
    let live := rd (K.tmrState i) s = 1 ∧ (timer i s).judged = false
    let next := fun (n : Nat) => (rd (K.tmrCmp i) s + n * rd (K.tmrPeriod i) s) % 2 ^ 64
    let judged := fun (t : State) => timer i t = { timer i s with judged := true } ∧ ∀ j, j ≠ i.val → timer j t = timer j s
    let alone := (∀ l, l < 16 → ¬ (runState l s = 2 ∧ rd (K.runStartSrc l) s = 0x20 + i) ∧ (seq l s).blks = [] ∧
      (seq l s).queue = []) ∧ rd (K.tmrTout i) s = 0 ∧ rd (K.tmrRelay i) s = 0
    let arms := fun (l : Nat) => rd (K.runArmBusy l) s = 1
    let hears := fun (l : Nat) => l < 16 ∧ leader l s = l ∧ (arms l ∨ busyState (runState l s) = true)
    (live → 0 < d → d ≤ 256 * 2 ^ 32 → alone → Reaches (.timerFire i) s (fun t =>
      rd (K.tmrFires i) t = min (2 ^ 32 - 1) (rd (K.tmrFires i) s + 1) ∧ rd (K.tmrLastTref i) t = edge ∧
      rd (K.tmrLastFire i) t = actTime edge s ∧
      rd (K.tmrState i) t = (if rd (K.tmrMode i) s = 2 then 1 else 2) ∧
      rd (K.tmrCmp i) t = (if rd (K.tmrMode i) s = 2 then next 1 else rd (K.tmrCmp i) s) ∧ judged t ∧
      ObjsBut [K.tmrFires i, K.tmrLastTref i, K.tmrLastFire i, K.tmrState i, K.tmrCmp i] s t ∧
      (∀ l, ¬ hears l → seq l t = seq l s) ∧
      (∀ l, hears l → seq l t = { seq l s with
        events := ((0x10 + i.val, nextSeqclk (edge * 1024 + 16 * 1024)) :: (seq l s).events).take 32
        fires := if arms l then (i.val, edge * 1024) :: (seq l s).fires else (seq l s).fires }) ∧
      t = { s with objs := t.objs, timers := t.timers, seqs := t.seqs })) ∧
    (∀ g : Fin 16, live → 0 < d → d ≤ 256 * 2 ^ 32 → members g s = [g.val] → leader g s = g → runState g s = 2 →
      rd (K.runStartSrc g) s = 0x20 + i → (seq g s).blks = [] → (seq g s).queue = [] → tclkLocked s = true →
      (seq g s).haltAt = none → (∀ l, l < 16 → l ≠ g.val → runState l s ≠ 2 ∧ (seq l s).blks = [] ∧ (seq l s).queue = []) →
      rd (K.tmrTout i) s = 0 → rd (K.tmrRelay i) s = 0 → Reaches (.timerFire i) s (fun t =>
        runState g t = 3 ∧ (seq g t).startAt = some ((edge + rd (K.runStartDelay g) s) * 1024))) ∧
    (live → d ≤ 0 →
      (rd (K.tmrMode i) s = 1 → Reaches (.timerMiss i) s (fun t => rd (K.tmrState i) t = 2 ∧
        rd (K.tmrMissed i) t = min (2 ^ 32 - 1) (rd (K.tmrMissed i) s + 1) ∧ judged t ∧
        ObjsBut [K.tmrState i, K.tmrMissed i] s t ∧ t = { s with objs := t.objs, timers := t.timers })) ∧
      (rd (K.tmrMode i) s = 2 → 0 < rd (K.tmrPeriod i) s → Reaches (.timerMiss i) s (fun t =>
        ∃ n, 1 ≤ n ∧ 0 < d + n * (rd (K.tmrPeriod i) s * 256 : Nat) ∧ d + (n - 1) * (rd (K.tmrPeriod i) s * 256 : Nat) ≤ 0 ∧
          rd (K.tmrCmp i) t = next n.toNat ∧ rd (K.tmrMissed i) t = min (2 ^ 32 - 1) (rd (K.tmrMissed i) s + n.toNat) ∧
          judged t ∧ ObjsBut [K.tmrCmp i, K.tmrMissed i] s t ∧ t = { s with objs := t.objs, timers := t.timers }))) ∧
    (0 < d → exec (.timerMiss i) s = .next s) ∧ (d ≤ 0 → exec (.timerFire i) s = .next s) ∧
    (rd (K.tmrState i) s ≠ 1 → exec (.timerFire i) s = .next s ∧ exec (.timerMiss i) s = .next s) ∧
    (∀ p : Bytes,
      let key := fun (sub : Nat) => 0x804000 + 256 * i.val + sub
      let stages := fun (g : State → TimerSt) (x : Session) (s t : State) =>
        timer i t = g s ∧ (∀ j, j ≠ i.val → timer j t = timer j s) ∧ HostFrame x s t ∧
        t = { s with timers := t.timers, sessions := t.sessions, baton := t.baton }
      (p.length = 1 → HostDoes (.tmrWrite · i 1 p) opWrite (key 1) p 0 false (fun _ _ => leNat p ≤ 2)
        (stages (fun s => { timer i s with mode := some (leNat p) }))) ∧
      (p.length = 8 → HostDoes (.tmrWrite · i 2 p) opWrite (key 2) p 1 true (fun _ _ => True)
          (stages (fun s => { timer i s with cmp := some (leNat p) })) ∧
        HostDoes (.tmrWrite · i 4 p) opWrite (key 4) p 1 true
          (fun _ _ => 1000 * 2 ^ 24 ≤ leNat p ∧ leNat p ≤ 2 ^ 63)
          (stages (fun s => { timer i s with period := some (leNat p) })) ∧
        HostDoes (.tmrWrite · i 5 p) opWrite (key 5) p 0 false (fun _ _ => periodOk (fsPeriod (leNat p)) = true)
          (stages (fun s => { timer i s with period := some ((2 * (leNat p * 2 ^ 24) + 1000000) / 2000000) })) ∧
        HostRefuses (.tmrWrite · i 4 p) opWrite (key 4) p 1 true Code.range (fun _ _ => leNat p < 1000 * 2 ^ 24 ∨ 2 ^ 63 < leNat p)) ∧
      (p.length = 12 → HostDoes (.tmrWrite · i 3 p) opWrite (key 3) p 0 false (fun _ _ => True)
        (stages (fun s => { timer i s with cmp := some (leNat p / 256 % 2 ^ 64) }))))

/-- R286, R287, R288: PTP event messages are stamped, within 1 ns of the domain's count, at the port of the instance that
owns them; Announce and timeouts move its port; what an offset measures, and which master the BMCA takes, is of IEEE 1588
(PRESUMED, assumption log 9). -/
def Obligations.PtpMessagesAndTimeouts : Prop :=
  (∀ (port : Fin 4) (m : PtpEvent) (s : State),
    let d := m.dom
    let counted := fun (t : State) => rd (K.ethPtpStamps port) t = min (2 ^ 32 - 1) (rd (K.ethPtpStamps port) s + 1)
    let count : Int := tdCount d s + (m.stamp % max 1 (tdInc d s) : Nat)
    let stamped := fun (lat v : Int) => ∃ k : Int, -(2 ^ 32) ≤ k * 2 ^ 26 - count ∧ k * 2 ^ 26 - count ≤ 2 ^ 32 ∧ v = k * 2 ^ 26 + lat
    let came := stamped (-(fsToFrac (toSigned 64 (rd (K.ethIngressLatFs port) s))))
    let left := stamped (fsToFrac (toSigned 64 (rd (K.ethEgressLatFs port) s)))
    let takes := ptpTakes d port m.number m.transport s = true
    let p2p := rd (K.ptpDelayMech d) s = 1
    let slave := isSlave d s = true
    let sends := (m.kind = 0 ∨ m.kind = 3 → m.twoStep = (rd (K.ptpOneStep d) s == 0)) ∧
      (m.kind = 0 → rd (K.ptpPortState d) s = 6) ∧ (m.kind = 1 → ¬ p2p ∧ slave) ∧ (m.kind = 2 ∨ m.kind = 3 → p2p)
    let keeps := fun (c : Instr) (at_ : Int → Prop) (f : Int → Ptp) => Reaches c s (fun t => counted t ∧
      (∃ v, at_ v ∧ ptp d t = f v) ∧ (∀ e, e ≠ d.val → ptp e t = ptp e s) ∧ ObjsBut [K.ethPtpStamps port] s t ∧
      t = { s with objs := t.objs, ptps := t.ptps, free := s.free + 1 })
    let x := ptp d s
    (takes →
      (m.kind = 0 → m.twoStep = true → slave →
        keeps (.ptpEventRx port m) came (fun v => { x with t1 := none, t2 := some v })) ∧
      (m.kind = 0 → m.twoStep = false → slave → rd (K.tdServo d) s = 0 → Reaches (.ptpEventRx port m) s (fun t => counted t ∧
        (∃ v, came v ∧ ptp d t = { x with t1 := some (m.origin : Int), t2 := some v } ∧
          rd (K.tdOffsetFromMaster d) t = ofSigned 64 (fracToFs (v - m.origin -
            fsToFrac (toSigned 64 (rd (K.tdMeanPathDelay d) s)) - fsToFrac (toSigned 64 (rd (K.ethAsymFs port) s))))) ∧
        ObjsBut [K.ethPtpStamps port, K.tdOffsetFromMaster d, K.tdMeanPathDelay d] s t ∧
        t = { s with objs := t.objs, ptps := t.ptps, free := s.free + 1 })) ∧
      (m.kind = 3 → m.twoStep = true → p2p →
        keeps (.ptpEventRx port m) came (fun v => { x with p2 := some (m.origin : Int), p4 := some v })) ∧
      (∀ a, m.kind = 3 → m.twoStep = false → p2p → x.p1 = some a → Reaches (.ptpEventRx port m) s (fun t => counted t ∧
        (∃ v, came v ∧ rd (K.tdMeanPathDelay d) t = ofSigned 64 (fracToFs ((v - a - m.origin) / 2))) ∧
        ptp d t = { x with p1 := none, p2 := none, p4 := none } ∧
        ObjsBut [K.ethPtpStamps port, K.tdMeanPathDelay d] s t ∧
        t = { s with objs := t.objs, ptps := t.ptps, free := s.free + 1 })) ∧
      ((m.kind = 1 ∧ ¬ p2p ∧ rd (K.ptpPortState d) s = 6) ∨ (m.kind = 2 ∧ p2p) →
        keeps (.ptpEventRx port m) came (fun v => { x with frame := some (m.kind.val, v) })) ∧
      ((m.kind = 0 ∧ ¬ slave) ∨ (m.kind = 1 ∧ (p2p ∨ rd (K.ptpPortState d) s ≠ 6)) ∨ (m.kind = 2 ∧ ¬ p2p) ∨
          (m.kind = 3 ∧ (¬ p2p ∨ (m.twoStep = false ∧ x.p1 = none))) →
        keeps (.ptpEventRx port m) came (fun _ => x)) ∧
      (sends → m.kind = 1 → keeps (.ptpEventTx port m) left (fun v => { x with t3 := some v })) ∧
      (sends → m.kind = 2 → keeps (.ptpEventTx port m) left (fun v => { x with p1 := some v, p2 := none, p4 := none })) ∧
      (sends → m.kind = 0 ∨ m.kind = 3 → keeps (.ptpEventTx port m) left (fun v => { x with frame := some (m.kind.val, v) })) ∧
      (¬ sends → exec (.ptpEventTx port m) s = .next s)) ∧
    (¬ takes → exec (.ptpEventRx port m) s = .next s ∧ exec (.ptpEventTx port m) s = .next s)) ∧
  (∀ (port : Fin 4) (d : Fin 2) (number : BitVec 8) (transport : Fin 3) (s : State),
    let takes := ptpTakes d port number transport s = true
    (takes ↔ rd (K.ptpEnable d) s = 1 ∧ rd (K.ptpPort d) s = port ∧ rd (K.tdEnable d) s = 1 ∧
      fenced (0x28 + d) s = false ∧ fenced (0x24 + port) s = false ∧ rd (K.ethLink port) s = 1 ∧
      rd (K.ptpDomainNumber d) s = number.toNat ∧ rd (K.ptpTransport d) s = transport) ∧
    (∀ b : PtpBody, ¬ takes → exec (.ptpGeneralRx port d ⟨number, transport, b⟩) s = .next s) ∧
    exec (.ptpGeneralRx port d ⟨number, transport, .other⟩) s = .next s ∧
    (∀ a : Announce, takes → (∀ b, (ptp d s).best = some b → b.sender = a.sender ∨ announceBetter a b = true) →
      Reaches (.ptpGeneralRx port d ⟨number, transport, .announce a⟩) s (fun t =>
        (ptp d t = { ptp d s with best := some a } ∧ ∀ e, e ≠ d.val → ptp e t = ptp e s) ∧
        (OnlyObjs [] { s with ptps := t.ptps, free := t.free } t ∨
          if rd (K.ptpSlaveOnly d) s = 1 ∨ announceRank a < ownRank d s then
            isSlave d t = true ∧ rd (K.ptpUtcOffset d) t = a.utc.toNat ∧
            (a.sender.length = 10 → blob (List.replicate 10 0) (K.ptpParent d) t = a.sender) ∧
            t.flt.active.contains (200 + 2 * d.val) = false ∧ ObjsBut [K.ptpPortState d, K.ptpUtcOffset d] s t ∧
            t = { s with objs := t.objs, blobs := t.blobs, ptps := t.ptps, free := t.free
                         flt := { s.flt with active := t.flt.active } }
          else rd (K.ptpPortState d) t = 6 ∧ ObjsBut [K.ptpPortState d] s t ∧
            t = { s with objs := t.objs, blobs := t.blobs, ptps := t.ptps, free := t.free }))) ∧
    (∀ t4 : Nat, takes → isSlave d s = true → rd (K.ptpDelayMech d) s = 0 →
      ∀ a b c, (ptp d s).t1 = some a → (ptp d s).t2 = some b → (ptp d s).t3 = some c →
      Reaches (.ptpGeneralRx port d ⟨number, transport, .delayResp t4⟩) s (fun t =>
        rd (K.tdMeanPathDelay d) t = ofSigned 64 (fracToFs (((b - a) + (t4 - c)) / 2)) ∧
        ptp d t = { ptp d s with t3 := none } ∧ ObjsBut [K.tdMeanPathDelay d] s t ∧ t = { s with objs := t.objs, ptps := t.ptps })) ∧
    (∀ t3 : Nat, takes → ∀ a b c, (ptp d s).p1 = some a → (ptp d s).p2 = some b → (ptp d s).p4 = some c →
      Reaches (.ptpGeneralRx port d ⟨number, transport, .pdelayRespFollowUp t3⟩) s (fun t =>
        rd (K.tdMeanPathDelay d) t = ofSigned 64 (fracToFs (((c - a) - (t3 - b)) / 2)) ∧
        ptp d t = { ptp d s with p1 := none, p2 := none, p4 := none } ∧ ObjsBut [K.tdMeanPathDelay d] s t ∧
        t = { s with objs := t.objs, ptps := t.ptps }))) ∧
  (∀ (d : Fin 2) (s : State),
    (rd (K.ptpEnable d) s = 1 → isSlave d s = true → fenced (0x28 + d) s = false → Reaches (.announceReceiptTimeout d) s (fun t =>
      ∃ u, t = raiseFault (200 + 2 * d) u ∧ rd (K.ptpPortState d) u = (if rd (K.ptpSlaveOnly d) s = 1 then 4 else 6) ∧
        ptp d u = { ptp d s with best := none } ∧ (∀ e, e ≠ d.val → ptp e u = ptp e s) ∧
        OnlyObjs [K.ptpPortState d] { s with ptps := u.ptps } u)) ∧
    (isSlave d s = false → exec (.announceReceiptTimeout d) s = .next s))

/-! ### The Relay ring (13) -/

/-- R300, R301, R305, R306, R303, R312: training and DOWN, and what a host sends: the message joins a trained ring's
queue of 8 as this chip's own, or is counted as not sent. -/
def Obligations.RingTrainsAndSends : Prop :=
  (let down := fun (s t : State) => t.rly = { s.rly with txq := [], fwd := [none, none, none], held := [false, false, false] }
   let cmd := K.rlyCmd
   HostDoes (.relayTrain ·) opWrite cmd [1] 1 false
     (fun _ s => rd K.rlyState s ≠ 4 ∧ rd K.rlyLeader s = 1 ∧ rd K.rlyEnable s = 1 ∧
       ∀ g, g < 16 → ¬ (runState g s = 2 ∧ rd (K.runStartSrc g) s = 0x30))
     (fun x s t => rd K.rlyState t = 1 ∧ rd K.rlyTrainFail t = 0 ∧ down s t ∧ ObjsBut [K.rlyState, K.rlyTrainFail] s t ∧
       HostFrame x s t ∧ t = { s with objs := t.objs, rly := t.rly, sessions := t.sessions, baton := t.baton }) ∧
   HostRefuses (.relayTrain ·) opWrite cmd [1] 1 false Code.state
     (fun _ s => rd K.rlyState s = 4 ∨ rd K.rlyLeader s ≠ 1 ∨ rd K.rlyEnable s ≠ 1 ∨
       ∃ g, g < 16 ∧ runState g s = 2 ∧ rd (K.runStartSrc g) s = 0x30) ∧
   HostDoes (.relayDown ·) opWrite cmd [2] 1 false (fun _ s => rd K.rlyState s ≠ 4)
     (fun x s t => rd K.rlyState t = 0 ∧ down s t ∧ ObjsBut [K.rlyState] s t ∧ HostFrame x s t ∧
       t = { s with objs := t.objs, rly := t.rly, sessions := t.sessions, baton := t.baton }) ∧
   HostRefuses (.relayDown ·) opWrite cmd [2] 1 false Code.state (fun _ s => rd K.rlyState s = 4)) ∧
  (∀ (code : Fin 7) (position members hopFs offsetFs rtt count chOp : Nat) (s : State),
    let c : Instr := .relayTrainComplete code position members hopFs offsetFs rtt count chOp
    let lead := rd K.rlyLeader s = 1
    let first := (count + 15) / 16 * 16
    let n := min 32 (max (if lead then 1 else 2) members)
    (rd K.rlyEnable s = 1 → rd K.rlyState s ≠ 4 → code = 0 → (lead → rd K.rlyState s = 1) → rtt ≤ 2560 →
      count < 2 ^ 64 → chOp < 2 ^ 16 → hopFs < 2 ^ 64 → offsetFs < 2 ^ 64 → Reaches c s (fun t =>
        rd K.rlyState t = 2 ∧ rd K.rlyTrainFail t = 0 ∧
        rd K.rlyPosition t = (if lead then 0 else max 1 (min (n - 1) position)) ∧
        rd K.rlyMembers t = n ∧ rd K.rlyHopFs t = hopFs ∧ rd K.rlyOffsetFs t = (if lead then 0 else offsetFs) ∧
        rd K.rlyRtt t = rtt ∧ rd K.rlyLat t = 2 * rtt + 64 ∧ rd K.rlyPoisonCount t = 0 ∧
        rd K.rlyChOp t = (if lead then rd K.rlyChOp s else chOp) ∧ ringCount t = count ∧
        t.rly = { base := t.rly.base, txAt := first, rxDue := first, tx := s.rly.tx, rx := s.rly.rx } ∧
        ObjsBut [K.rlyState, K.rlyTrainFail, K.rlyPosition, K.rlyMembers, K.rlyHopFs, K.rlyOffsetFs, K.rlyRtt, K.rlyLat,
          K.rlyPoisonCount, K.rlyChOp] s t ∧
        t = { s with objs := t.objs, rly := t.rly, flt := { s.flt with active := s.flt.active.filter (· != 205) } })) ∧
    (rd K.rlyEnable s = 1 → rd K.rlyState s ≠ 4 → code ≠ 0 → Reaches c s (fun t =>
        rd K.rlyState t = 3 ∧ rd K.rlyTrainFail t = code ∧ rd K.rlyPosition t = 0xFF ∧
        t.rly = { s.rly with txq := [], fwd := [none, none, none], held := [false, false, false] } ∧
        ObjsBut [K.rlyState, K.rlyTrainFail, K.rlyPosition] s t ∧ t = { s with objs := t.objs, rly := t.rly })) ∧
    (rd K.rlyEnable s = 0 ∨ rd K.rlyState s = 4 ∨ (code = 0 ∧ ((lead ∧ rd K.rlyState s ≠ 1) ∨ 2560 < rtt)) →
      exec c s = .next s)) ∧
  (∀ p : Bytes,
    let sends := fun (c : Req → Instr) (key : Nat) (ok : Prop) (m : Msg) =>
      HostDoes c opWrite key p 1 false (fun _ s => ok ∧ rd K.rlyState s = 2 ∧ s.rly.txq.length < 8)
        (fun x s t => t.rly = { s.rly with txq := s.rly.txq ++ [{ m with origin := rd K.rlyPosition s }] } ∧
          HostFrame x s t ∧ t = { s with rly := t.rly, sessions := t.sessions, baton := t.baton }) ∧
      HostDoes c opWrite key p 1 false (fun _ s => ok ∧ rd K.rlyState s = 2 ∧ 8 ≤ s.rly.txq.length)
        (fun x s t => HostSets K.rlyTxDropped (min (2 ^ 32 - 1) (rd K.rlyTxDropped s + 1)) x s t) ∧
      HostRefuses c opWrite key p 1 false Code.state (fun _ s => ok ∧ rd K.rlyState s = 4)
    (p.length = 4 →
      sends (.rlyStartSend · p) K.rlyStartSend True { kind := 1, origin := 0, s := 0, chips := leNat p, groups := 0, entry := 0 } ∧
      sends (.rlyEventSend · p) K.rlyEventSend True { kind := 3, origin := 0, s := 0, chips := leNat p, groups := 0, entry := 0 }) ∧
    (p.length = 8 →
      sends (.rlyJumpSend · p) K.rlyJumpSend (leAt 6 1 p < 16)
        { kind := 2, origin := 0, s := 0, chips := leAt 0 4 p, groups := leAt 4 2 p, entry := leAt 6 1 p } ∧
      HostRefuses (.rlyJumpSend · p) opWrite K.rlyJumpSend p 1 false Code.range (fun _ _ => 16 ≤ leAt 6 1 p)))

/-- R299, R300, R302, R303, R307, R308: frames that leave and arrive: a lane block carries its content scrambled under a CRC
and is read back by a receiver that has the block before; own messages go into slots that reached the chip empty, a slot of
the chip's own origin is emptied, a bad or missing frame is a link fault with a poison count, POISON takes the ring down, and
a frame of type 2 takes a chip that does not lead into training. The zero seed of a lane's first block is the model's choice
(log 63). -/
def Obligations.RingFramesTravel : Prop :=
  (∀ (before : Option LaneBlock) (v : Nat), v < 2 ^ 107 →
    let b := (mkBlock before v).bits
    let h := match before with | some x => x.bits | none => 0
    let sent := fun i => if i < 123 then b.getLsbD i else h.getLsbD (i - 123)
    b.getLsbD 123 = true ∧ b.getLsbD 124 = false ∧ blockGood before (mkBlock before v) = true ∧
    contentOf before (mkBlock before v) = v ∧
    ∀ i, i < 123 → b.getLsbD i = xor ((BitVec.ofNat 107 v ++ crc16 (BitVec.ofNat 107 v)).getLsbD i) (xor (sent (i + 39)) (sent (i + 58)))) ∧
  (∀ (n acc c : Nat) (s : State), c < 16 →
    let at_ := ringInstant n s
    let own := fun g => g < 16 ∧ rd (K.rlyMatchCh g) s = c ∧ fencedAt at_ g s = false
    let met := fun g => ∃ b, matchAt at_ (leader g s) s = some b ∧ ∃ o, b.oks.find? (fun o => decide (o.1 ≤ at_)) = some o ∧ o.2 = true
    (combineFlags n acc s).testBit c = true ↔
      if (rd K.rlyChOp s).testBit c then acc.testBit c = true ∨ ∃ g, own g ∧ met g
      else acc.testBit c = true ∧ ∀ g, own g → met g) ∧
  (∀ s : State, rd K.rlyEnable s = 1 → rd K.rlyState s = 2 →
    let c := s.rly.txAt
    let u : State := { s with now := max s.now (ringInstant c s) }
    let due := s.rly.txq.filter (fun m => m.after ≤ c)
    let acc := if rd K.rlyLeader s = 1 then neutralFlags s else s.rly.round.2
    let fsamp := if rd K.rlyLeader s = 1 then c else s.rly.round.1
    let poison := match s.rly.poison with | some p => 2 ^ 104 + p % 2 ^ 24 * 2 ^ 80 | none => 0
    let empty := s.rly.fwd = [none, none, none] ∧ s.rly.held = [false, false, false]
    let put := fun i v => mkBlock (laneBefore s.rly.tx i) v
    s.rly.fwd.length = 3 → s.rly.held.length = 3 →
    Reaches .relayFrameSend s (fun t => ∃ (f : RelayFrame) (slots : List (Option Msg)), t.rly.tx = some f ∧
      slots.length = 3 ∧ (∀ i, i < 3 → ∀ m, s.rly.fwd[i]? = some (some m) → slots[i]? = some (some m)) ∧
      (∀ i, i < 3 → s.rly.fwd[i]? = some none → s.rly.held[i]? = some true → slots[i]? = some none) ∧
      (empty → slots = (List.range 3).map (fun i => (due[i]?).map (fun m => { m with s := c }))) ∧
      (∀ i, i < 3 → [f.lane1, f.lane2, f.lane3][i]? = some (put (i + 1) (slotWord (slots.getD i none)))) ∧
      f.lane0 = put 0 (2 ^ 105 + poison + fsamp % 2 ^ 24 * 2 ^ 56 + combineFlags fsamp acc u % 2 ^ 16 * 2 ^ 40 +
        s.rly.result.1 % 2 ^ 24 * 2 ^ 16 + s.rly.result.2 % 2 ^ 16) ∧
      (empty → t.rly.landing = s.rly.landing ++ (due.take 3).map (fun m => { m with s := c }) ∧
        (due = s.rly.txq → t.rly.txq = s.rly.txq.drop 3)) ∧
      t.rly.fwd = [none, none, none] ∧ t.rly.held = [false, false, false] ∧ t.rly.txAt = c + 16 ∧
      t = { u with rly := { s.rly with
        txq := t.rly.txq, landing := t.rly.landing, fwd := t.rly.fwd, held := t.rly.held, txAt := t.rly.txAt, tx := t.rly.tx } })) ∧
  (∀ s : State, rd K.rlyEnable s = 1 → rd K.rlyState s ≠ 2 → (rd K.rlyState s = 4 → s.rly.poison.isSome) →
    let c := if s.rly.poison.isSome then s.rly.txAt else (ringCount s + 15) / 16 * 16
    let train := rd K.rlyState s = 1
    let poison := match s.rly.poison with | some p => if train then 0 else 2 ^ 104 + p % 2 ^ 24 * 2 ^ 80 | none => 0
    let put := fun i v => mkBlock (laneBefore s.rly.tx i) v
    s.rly.fwd = [none, none, none] → s.rly.held = [false, false, false] → s.rly.txq = [] → Reaches .relayFrameSend s (fun t =>
      (∃ r, r < 2 ^ 40 ∧ t.rly.tx = some { lane0 := put 0 ((if train then 2 ^ 106 else 0) + poison + r),
                                           lane1 := put 1 0, lane2 := put 2 0, lane3 := put 3 0 }) ∧
      t = { s with now := max s.now (ringInstant c s), rly := { s.rly with txAt := c + 16, tx := t.rly.tx } })) ∧
  (∀ s : State, rd K.rlyEnable s = 0 ∨ (rd K.rlyState s = 4 ∧ s.rly.poison = none) → exec .relayFrameSend s = .next s) ∧
  (∀ (f : RelayFrame) (s : State), rd K.rlyEnable s = 1 →
    let up := rd K.rlyState s = 2
    let expected := up ∨ (rd K.rlyState s = 0 ∧ s.rly.poison.isSome)
    let u : State := { s with
      now := if expected then max s.now (ringInstant (s.rly.rxDue + (rd K.rlyHopFs s + 624999) / 625000) s) else s.now
      rly := { s.rly with rx := some f } }
    let v := fun i b => contentOf (laneBefore s.rly.rx i) b
    let a := v 0 f.lane0
    let words := [v 1 f.lane1, v 2 f.lane2, v 3 f.lane3]
    let good := blockGood (laneBefore s.rly.rx 0) f.lane0 = true ∧ blockGood (laneBefore s.rly.rx 1) f.lane1 = true ∧
      blockGood (laneBefore s.rly.rx 2) f.lane2 = true ∧ blockGood (laneBefore s.rly.rx 3) f.lane3 = true ∧ a / 2 ^ 105 ≠ 3 ∧
      ∀ v ∈ words, v / 2 ^ 104 ≤ 4 ∧ slotBad v = false
    let trains := a / 2 ^ 105 = 2 ∧ rd K.rlyLeader s ≠ 1
    let slots := words.map (fun v => readSlot v u)
    let others := slots.map (fun m => m.filter (fun m => m.origin ≠ rd K.rlyPosition s))
    let worse := fun (c : Nat) => match s.rly.poison with | some q => min q c | none => c
    (rd K.rlyLeader s ≤ 1 → good → up → ¬ trains → a.testBit 104 = false → Reaches (.relayFrameReceive f) s (fun t =>
      t.rly.fwd = others ∧ t.rly.held = slots.map (fun m => m.any (fun m => m.origin = rd K.rlyPosition s)) ∧
      t.rly.landing = s.rly.landing ++ others.filterMap id ∧ t.rly.rxDue = s.rly.rxDue + 16 ∧
      (rd K.rlyLeader s = 1 → t.rly.result = (wholeCount (a / 2 ^ 56) u, a / 2 ^ 40 % 2 ^ 16) ∧ t.rly.round = s.rly.round) ∧
      (rd K.rlyLeader s ≠ 1 → t.rly.result = (wholeCount (a / 2 ^ 16) u, a % 2 ^ 16) ∧
        t.rly.round = (wholeCount (a / 2 ^ 56) u, a / 2 ^ 40 % 2 ^ 16)) ∧
      t = { u with rly := { u.rly with
        fwd := t.rly.fwd, held := t.rly.held, landing := t.rly.landing, rxDue := t.rly.rxDue, result := t.rly.result
        round := t.rly.round, results := t.rly.results } })) ∧
    (rd K.rlyLeader s ≤ 1 → good → trains → rd K.rlyState s ≠ 1 → rd K.rlyState s ≠ 4 → Reaches (.relayFrameReceive f) s (fun t =>
      rd K.rlyState t = 1 ∧ rd K.rlyTrainFail t = 0 ∧ t.rly.txq = [] ∧ ObjsBut [K.rlyState, K.rlyTrainFail] s t ∧
      t = { u with objs := t.objs, rly := { u.rly with
        txq := [], fwd := [none, none, none], held := [false, false, false], rxDue := t.rly.rxDue } })) ∧
    (good → rd K.rlyState s = 1 → exec (.relayFrameReceive f) s = .next u) ∧
    (rd K.rlyLeader s ≤ 1 → good → ¬ trains → a.testBit 104 = true → rd K.rlyState s ≠ 1 → rd K.rlyState s ≠ 4 →
      (rd K.rlyState s = 0 → s.rly.poison = none) → Reaches (.relayFrameReceive f) s (fun t => ∃ w, t = raiseFault 205 w ∧
      rd K.rlyState w = 0 ∧ w.rly.poison = some (worse (wholeCount (a / 2 ^ 80) u)) ∧ w.rly.txq = [] ∧
      w.rly.fwd = [none, none, none] ∧ ObjsBut [K.rlyState, K.rlyPoisonCount] s w ∧
      w = { u with objs := w.objs, rly := w.rly })) ∧
    (¬ good → expected → Reaches (.relayFrameReceive f) s (fun t => ∃ w, t = raiseFault 204 w ∧
      rd K.rlyCrcErrs w = min (2 ^ 32 - 1) (rd K.rlyCrcErrs s + 1) ∧
      rd K.rlyPoisonCount w = worse s.rly.rxDue % 2 ^ 24 ∧ ObjsBut [K.rlyCrcErrs, K.rlyPoisonCount] s w ∧
      w = { u with
        objs := w.objs
        rly := { u.rly with poison := some (worse s.rly.rxDue), fwd := [none, none, none], held := [false, false, false]
                            rxDue := s.rly.rxDue + 16 } })) ∧
    (¬ good → ¬ expected → Reaches (.relayFrameReceive f) s (fun t =>
      rd K.rlyCrcErrs t = min (2 ^ 32 - 1) (rd K.rlyCrcErrs s + 1) ∧ OnlyObjs [K.rlyCrcErrs] u t))) ∧
  (∀ (f : RelayFrame) (s : State), rd K.rlyEnable s = 0 → exec (.relayFrameReceive f) s = .next s) ∧
  (∀ s : State, rd K.rlyEnable s = 1 → rd K.rlyState s = 2 ∨ (rd K.rlyState s = 0 ∧ s.rly.poison.isSome) →
    let due := s.rly.rxDue + (rd K.rlyHopFs s + 624999) / 625000 + 32
    let worse := fun (c : Nat) => match s.rly.poison with | some q => min q c | none => c
    (due ≤ ringCount s → Reaches .relayFrameMissing s (fun t => ∃ w, t = raiseFault 204 w ∧
      rd K.rlyPoisonCount w = worse s.rly.rxDue % 2 ^ 24 ∧ ObjsBut [K.rlyPoisonCount] s w ∧
      w = { s with
        objs := w.objs, rly := { s.rly with poison := some (worse s.rly.rxDue), rxDue := s.rly.rxDue + 16 } })) ∧
    (ringCount s < due → exec .relayFrameMissing s = .next s))

/-- R301, R303, R304, R305, R306, R309, R310: what lands, at its origin count plus RLY_LAT, and only before the poison
count: starts, ring events, jump requests, fails and the results of flag rounds. -/
def Obligations.RingMessagesLand : Prop :=
  (∀ (m : Msg) (s : State), firstMsg s.rly.landing = some m →
    let cmd := fun k => if k = 1 then Instr.relayStart else if k = 2 then .relayJump else if k = 3 then .relayEvent else .relayFail
    let r := { s.rly with landing := s.rly.landing.erase m }
    let at_ := ringInstant (m.s + rd K.rlyLat s) s
    let now := max s.now at_
    let clean := (s.rly.poison = none ∧ rd K.rlyState s = 2) ∨ ∃ p, s.rly.poison = some p ∧ m.s < p
    let named := m.chips.testBit (rd K.rlyPosition s)
    let reach := nextSeqclk (at_ + 16 * 1024)
    let hears := fun l => filling l s = true ∨ busyState (runState l s) = true
    (m.kind ∈ [1, 2, 3, 4] → ¬ clean → exec (cmd m.kind) s = .next { s with rly := r }) ∧
    (∀ k, k ∈ [1, 2, 3, 4] → k ≠ m.kind → exec (cmd k) s = .next s) ∧
    (clean → m.kind ∈ [1, 2, 3] → named = false → exec (cmd m.kind) s = .next { s with now, rly := r }) ∧
    (clean → m.kind = 1 → named = true →
      let starts := fun l => l < 16 ∧ leader l s = l ∧ startable l at_ s = true ∧ rd (K.runStartSrc l) s = 0x30
      Reaches .relayStart s (fun t =>
        (∀ g, g < 16 → runState g t = if starts (leader g s) then 3 else runState g s) ∧
        (∀ l, seq l t = if starts l then { seq l s with startAt := some (at_ + rd (K.runStartDelay l) s * 1024) }
          else seq l s) ∧ ObjsBut ((List.range 16).map K.runState) s t ∧
        t = { s with now, objs := t.objs, rly := r, seqs := t.seqs })) ∧
    (clean → m.kind = 3 → named = true → Reaches .relayEvent s (fun t =>
      (∀ l, l < 16 → leader l s = l → hears l →
        (waitArmed l 0x21 s = false → seq l t = { seq l s with events := ((0x21, reach) :: (seq l s).events).take 32 }) ∧
        (waitArmed l 0x21 s = true → ∃ b ∈ (seq l s).blks, b.isMatch = false ∧ b.source = 0x21 ∧
          seq l t = { seq l s with blks := (seq l s).blks.map (fun x => if x.id == b.id then { x with event := some reach } else x) })) ∧
      (∀ l, ¬ (l < 16 ∧ leader l s = l ∧ hears l) → seq l t = seq l s) ∧
      t = { s with now, rly := r, seqs := t.seqs })) ∧
    (∀ g, clean → m.kind = 2 → named = true → g < 16 → leadersOf (bitsOf m.groups 16) s = [g] →
      (hears g → Reaches .relayJump s (fun t =>
        (∃ l1 l2, (seq g s).jumps = l1 ++ l2 ∧ (seq g t).jumps = l1 ++ ⟨reach, m.entry, .ring⟩ :: l2) ∧
        seq g t = { seq g s with jumps := (seq g t).jumps } ∧ SeqsBut [g] s t ∧ t = { s with now, rly := r, seqs := t.seqs })) ∧
      (¬ hears g → Reaches .relayJump s (fun t =>
        rd (K.jtDiscarded g) t = min (2 ^ 32 - 1) (rd (K.jtDiscarded g) s + 1) ∧ ObjsBut [K.jtDiscarded g] s t ∧
        t = { s with now, objs := t.objs, rly := r }))) ∧
    (clean → m.kind = 4 → Reaches .relayFail s (fun t => ∃ u, t = post (rd K.rlyFailTask s) u ∧
      rd K.rlyFailsRx u = min (2 ^ 32 - 1) (rd K.rlyFailsRx s + 1) ∧
      rd K.rlyFailLast u = (m.s + rd K.rlyLat s) % 2 ^ 24 * 2 ^ 40 + m.origin * 2 ^ 35 + m.chips * 2 ^ 31 + m.groups * 2 ^ 25 ∧
      (rd K.rlyFailTask s = 0xFFFF → t = u) ∧
      ObjsBut [K.rlyFailsRx, K.rlyFailLast] s u ∧ u = { s with now, objs := u.objs, rly := r }))) ∧
  (∀ (count res : Nat) (rest : List (Nat × Nat)) (s : State), s.rly.results = (count, res) :: rest →
    let clean := (s.rly.poison = none ∧ rd K.rlyState s = 2) ∨ ∃ p, s.rly.poison = some p ∧ count < p
    let at_ := ringInstant (count + rd K.rlyLat s) s
    (rd K.rlyState s = 2 → clean → Reaches .flagResult s (fun t => rd K.rlyResult t = res ∧
      (∀ l, l < 16 → leader l s = l → seq l t = { seq l s with blks := (seq l s).blks.map (fun b =>
        if b.isMatch = true ∧ b.decided = false ∧ b.rly = true ∧ b.flagAt = none ∧ rd (K.rlyMatchCh l) s < 16 ∧
            res.testBit (rd (K.rlyMatchCh l) s) = true ∧ (∃ a, b.began = some a ∧ a ≤ ringInstant count s) then
          { b with flagAt := some at_ } else b) }) ∧
      (∀ l, ¬ (l < 16 ∧ leader l s = l) → seq l t = seq l s) ∧ ObjsBut [K.rlyResult] s t ∧
      t = { s with now := max s.now at_, objs := t.objs, rly := { s.rly with results := rest }, seqs := t.seqs })) ∧
    (rd K.rlyState s ≠ 2 ∨ ¬ clean → exec .flagResult s = .next { s with rly := { s.rly with results := rest } })) ∧
  (∀ s : State, s.rly.landing = [] → ∀ c ∈ [Instr.relayStart, .relayJump, .relayEvent, .relayFail], exec c s = .next s)

/-! ### Mixed-signal ports (14) -/

/-- R313, R314, R315, R316, R322: enabling a direction, and its way from CLOCK to UP; SYSREF edges, which align the LEMC or are
checked against its boundaries, and the first boundary after an instant; lost locks and a lost DEVCLK. -/
def Obligations.LinksComeUp : Prop :=
  (let frame := fun (keys : List Nat) (x : Session) (s t : State) => ObjsBut keys s t ∧ HostFrame x s t ∧
     t = { s with objs := t.objs, sessions := t.sessions, baton := t.baton }
   HostDoes (.jtxEnWrite · [1]) opWrite K.jtxEn [1] 1 false
     (fun _ s => rd K.jtxState s ≠ 5 ∧ rd K.jtxEn s = 0 ∧ linkOk K.jtxParams s = true)
     (fun x s t => rd K.jtxEn t = 1 ∧ rd K.jtxState t = 1 ∧ frame [K.jtxEn, K.jtxState] x s t) ∧
   HostRefuses (.jtxEnWrite · [1]) opWrite K.jtxEn [1] 1 false Code.refused
     (fun _ s => rd K.jtxState s ≠ 5 ∧ rd K.jtxEn s = 0 ∧ linkOk K.jtxParams s = false) ∧
   HostDoes (.jtxEnWrite · [0]) opWrite K.jtxEn [0] 1 false
     (fun _ s => rd K.jtxState s ≠ 5 ∧ ∀ r ∈ s.dram.reqs, r.port ≠ 2)
     (fun x s t => rd K.jtxEn t = 0 ∧ rd K.jtxState t = 0 ∧ rd K.jtxPlay t = 0 ∧
       t.jtx = { phase := s.jtx.phase, ftwNew := s.jtx.ftwNew, resetAt := s.jtx.resetAt, lanes := s.jtx.lanes } ∧ ObjsBut [K.jtxEn, K.jtxState, K.jtxPlay] s t ∧
       HostFrame x s t ∧ t = { s with objs := t.objs, jtx := t.jtx, sessions := t.sessions, baton := t.baton }) ∧
   HostRefuses (.jtxEnWrite · [0]) opWrite K.jtxEn [0] 1 false Code.state (fun _ s => rd K.jtxState s = 5) ∧
   HostDoes (.jrxEnWrite · [1]) opWrite K.jrxEn [1] 1 false
     (fun _ s => rd K.jrxState s ≠ 5 ∧ rd K.jrxEn s = 0 ∧ linkOk K.jrxParams s = true ∧ rxRegionOk s = true)
     (fun x s t => rd K.jrxEn t = 1 ∧ rd K.jrxState t = 1 ∧ rd K.jrxWr t = 0 ∧ frame [K.jrxEn, K.jrxState, K.jrxWr] x s t) ∧
   HostRefuses (.jrxEnWrite · [1]) opWrite K.jrxEn [1] 1 false Code.refused
     (fun _ s => rd K.jrxState s ≠ 5 ∧ rd K.jrxEn s = 0 ∧ (linkOk K.jrxParams s = false ∨ rxRegionOk s = false)) ∧
   HostDoes (.jrxEnWrite · [0]) opWrite K.jrxEn [0] 1 false (fun _ s => rd K.jrxState s ≠ 5)
     (fun x s t => rd K.jrxEn t = 0 ∧ rd K.jrxState t = 0 ∧ ObjsBut [K.jrxEn, K.jrxState] s t ∧ HostFrame x s t ∧
       t = { s with objs := t.objs, jrx := { ended := s.jrx.ended, stopAt := s.jrx.stopAt }, sessions := t.sessions, baton := t.baton })) ∧
  (∀ (hz : Nat) (s : State), 50000000 ≤ hz → hz ≤ 800000000 →
    let inRange := fun k => 6000000000 ≤ hz * linkParam k 4 s ∧ hz * linkParam k 4 s ≤ 16500000000
    let flt := { s.flt with active := s.flt.active.filter (· != 210) }
    Reaches (.linkClockReady .tx hz) s (fun t => rd K.jesdDevclkHz t = hz ∧
      rd K.jtxState t = (if rd K.jtxState s = 1 ∧ inRange K.jtxParams then 2 else rd K.jtxState s) ∧
      ObjsBut [K.jesdDevclkHz, K.jtxState] s t ∧ t = { s with objs := t.objs, flt }) ∧
    Reaches (.linkClockReady .rx hz) s (fun t => rd K.jesdDevclkHz t = hz ∧
      rd K.jrxState t = (if rd K.jrxState s = 1 ∧ inRange K.jrxParams then 2 else rd K.jrxState s) ∧
      ObjsBut [K.jesdDevclkHz, K.jrxState] s t ∧ t = { s with objs := t.objs, flt })) ∧
  (∀ (edge on : Nat) (s : State),
    let at_ := max s.now on
    let tx := rd K.jtxState s
    let rx := rd K.jrxState s
    let c : Instr := .sysrefEdge edge on
    let onGrid := fun (k : Nat) (l : Option Lemc) => ∀ x, l = some x →
      ((edge : Int) - x.edge) * linkParam k 4 s % max 1 (linkParam k 3 s * 2112 : Nat) = 0
    let txIn := tx = 4 → onGrid K.jtxParams s.jtx.lemc
    let rxIn := rx = 3 ∨ rx = 4 → onGrid K.jrxParams s.jrx.lemc
    let new : Option Lemc := some { edge, seen := edge, on := at_ }
    let see := fun (l : Option Lemc) => l.map (fun x => ({ x with seen := edge, on := at_ } : Lemc))
    let u : State := { s with now := at_, jtx := { s.jtx with lemc := see s.jtx.lemc }, jrx := { s.jrx with lemc := see s.jrx.lemc } }
    let counted := fun (t : State) => rd K.jesdSysrefMisalign t = min (2 ^ 32 - 1) (rd K.jesdSysrefMisalign s + 1)
    (tx = 2 → (rx = 2 → Reaches c s (fun t => rd K.jtxState t = 4 ∧ rd K.jrxState t = 3 ∧
        ObjsBut [K.jtxState, K.jrxState] s t ∧
        t = { u with objs := t.objs, jtx := { s.jtx with lemc := new }, jrx := { s.jrx with lemc := new } })) ∧
      (rx < 2 ∨ rx = 5 → Reaches c s (fun t => rd K.jtxState t = 4 ∧ ObjsBut [K.jtxState] s t ∧
        t = { u with objs := t.objs, jtx := { s.jtx with lemc := new } }))) ∧
    (tx ≠ 2 → rx ≠ 2 → txIn → rxIn → exec c s = .next u) ∧
    (tx ≠ 2 → rx ≠ 2 → ¬ (txIn ∧ rxIn) →
      (rd K.jesdSysrefMode s = 1 → Reaches c s (fun t => ∃ w, t = raiseFault 208 w ∧ counted w ∧
        OnlyObjs [K.jesdSysrefMisalign] u w)) ∧
      (rd K.jesdSysrefMode s = 2 → Reaches c s (fun t => counted t ∧ OnlyObjs [K.jesdSysrefMisalign] u t)) ∧
      (rd K.jesdSysrefMode s = 0 → Reaches c s (fun t => counted t ∧ rd K.jtxState t = tx ∧
        rd K.jrxState t = (if rxIn then rx else 3) ∧
        t.jtx = (if txIn then u.jtx else
          { s.jtx with lemc := new, zeros := t.jtx.zeros, origin := at_, sent := 0, frame := [] }) ∧
        t.jrx = (if rxIn then u.jrx else { s.jrx with lemc := new }) ∧
        ObjsBut [K.jesdSysrefMisalign, K.jrxState] s t ∧
        t = { u with free := t.free, objs := t.objs, jtx := t.jtx, jrx := t.jrx })))) ∧
  (∀ (k a : Nat) (x : Lemc) (s : State), 0 < laneRate k s → 0 < linkParam k 3 s →
    let rate : Int := laneRate k s
    let bits : Int := (linkParam k 3 s * 2112 : Nat)
    let second : Int := 1600000000 * 1024
    let off := fun (n : Int) => (((x.edge : Int) - x.seen) * linkParam k 4 s + n * bits) * second
    ∃ n : Int, ((a : Int) - x.on) * rate ≤ off n ∧ off (n - 1) < ((a : Int) - x.on) * rate ∧
      off n ≤ ((lemcAfter k (some x) a s : Int) - x.on) * rate ∧ ((lemcAfter k (some x) a s : Int) - x.on) * rate < off n + rate) ∧
  (∀ s : State,
    (rd K.jrxState s = 3 → Reaches .rxLaneLock s (fun t => rd K.jrxState t = 4 ∧ OnlyObjs [K.jrxState] s t)) ∧
    (rd K.jrxState s ≠ 3 → exec .rxLaneLock s = .next s) ∧
    (rd K.jrxState s = 4 → Reaches .rxLinkLost s (fun t => ∃ u, t = raiseFault 209 u ∧ rd K.jrxState u = 3 ∧
      rd K.jrxGaps u = min (2 ^ 32 - 1) (rd K.jrxGaps s + 1) ∧ OnlyObjs [K.jrxState, K.jrxGaps] s u)) ∧
    (rd K.jrxState s ≠ 4 → exec .rxLinkLost s = .next s) ∧
    Reaches .devclkLost s (fun t => ∃ u, t = raiseFault 210 u ∧ rd K.jesdDevclkHz u = 0 ∧ OnlyObjs [K.jesdDevclkHz] s u))

/-- R313, R314, R318, R319, R320, R321: arming, starting and stopping a source; the samples of an image in play and what ends
it, on the lanes with their polarity; the NCO's tuning word, and its cos and sin at the quarter turns. How a frame's samples
stand on the lanes is presumed (log 33).
R209, R316, R322, R323, R324: starting and stopping receive capture, and where samples go: they are packed in arrival
order, the earlier in the lower bits, and each unit that they fill is written. -/
def Obligations.SourcesAndReceiver : Prop :=
  ((let quiet := fun (s : State) => ∀ r ∈ s.dram.reqs, r.port ≠ 2
     let kept := fun (s : State) => { s.jtx with
       arming := false, imgs := [], asked := 0, header := false, closed := false, buffer := [], pos := 0, startAt := none
       resync := false, out := [], origin := 0, sent := 0 }
     let emits := fun (vals : List Int) (s : State) (j : Jtx) =>
       if (j.frame ++ [vals]).length < linkParam K.jtxParams 2 s then { j with out := vals, frame := j.frame ++ [vals] }
       else { j with out := vals, frame := [], lanes := frameLanes (j.frame ++ [vals]) s }
     let page := fun (s : State) => 4096 * rd K.jtxFirstPage s
     let ready := fun (s : State) => rd K.jtxEn s = 1 ∧ rd K.jtxState s ≠ 5 ∧ rd K.jtxPlay s = 0 ∧ s.jtx.arming = false
     HostDoes (.jtxArm ·) opWrite K.jtxCmd [1] 1 false (fun _ s => ready s ∧ quiet s ∧ mapped (page s) 64 s = true)
       (fun x s t => rd K.jtxErr t = 0 ∧ rd K.jtxPlay t = 0 ∧ t.jtx = { kept s with arming := true, header := true } ∧
         t.dram = { s.dram with reqs := s.dram.reqs ++
           [{ port := 2, addr := page s, write := false, owner := .header (rd K.jtxFirstPage s), at0 := s.now }] } ∧
         ObjsBut [K.jtxErr, K.jtxPlay] s t ∧ HostFrame x s t ∧
         t = { s with objs := t.objs, jtx := t.jtx, dram := t.dram, sessions := t.sessions, baton := t.baton }) ∧
     HostRefuses (.jtxArm ·) opWrite K.jtxCmd [1] 1 false Code.state (fun _ s => ¬ ready s) ∧
     HostDoes (.jtxStart ·) opWrite K.jtxCmd [2] 1 false (fun _ s => rd K.jtxPlay s = 1)
       (fun x s t => t = { s with
           jtx := { s.jtx with startAt := some (s.now + rd K.jtxStartDelay s * 1024) }
           sessions := t.sessions, baton := t.baton } ∧ HostFrame x s t) ∧
     HostRefuses (.jtxStart ·) opWrite K.jtxCmd [2] 1 false Code.state (fun _ s => rd K.jtxPlay s ≠ 1) ∧
     HostDoes (.jtxStop ·) opWrite K.jtxCmd [3] 1 false (fun _ s => quiet s)
       (fun x s t => rd K.jtxPlay t = 0 ∧ t.jtx = kept s ∧ ObjsBut [K.jtxPlay] s t ∧ HostFrame x s t ∧
         t = { s with objs := t.objs, jtx := t.jtx, sessions := t.sessions, baton := t.baton }) ∧
     (∀ s : State,
       let n := min 8192 (chainEnd s)
       let full := s.jtx.imgs ≠ [] ∧ (s.jtx.closed = true ∨ n = 8192) ∧ s.jtx.buffer.length = n
       (s.jtx.arming = true → full → Reaches .jtxArmComplete s (fun t => rd K.jtxPlay t = 1 ∧ ObjsBut [K.jtxPlay] s t ∧
         t = { s with objs := t.objs, jtx := { s.jtx with arming := false } })) ∧
       (s.jtx.arming = false ∨ ¬ full → exec .jtxArmComplete s = .next s)) ∧
     (∀ s : State,
       let silence := List.replicate (linkParam K.jtxParams 1 s) (0 : Int)
       let mute := exec .sourceSample s = .next { s with jtx := emits silence s s.jtx }
       let due := max s.now (sampleAt s)
       (rd K.jtxState s = 5 → (rd K.jesdDevclkHz s ≠ 0 → mute) ∧ (rd K.jesdDevclkHz s = 0 → exec .sourceSample s = .next s)) ∧
       (rd K.jtxState s = 4 → rd K.jtxPlay s ≠ 2 → (rd K.jtxPlay s = 1 → ∀ a, s.jtx.startAt = some a → s.now < a) → mute) ∧
       (rd K.jtxState s < 4 → exec .sourceSample s = .next s) ∧
       (∀ (i : SrcImg) (rest : List SrcImg) (v : Nat → Nat), rd K.jtxState s = 4 → dropPlayed s.jtx.pos s.jtx.imgs = i :: rest →
         let stop := (i.first + i.bursts) * 32
         let muted := s.jtx.zeros ≠ 0
         let held := s.jtx.closed = true ∧ chainEnd s ≤ s.jtx.asked ∧ 0 < i.chans ∧
           s.jtx.pos + i.chans ≤ stop ∧ ∀ c, c < i.chans → sourceVal (s.jtx.pos + c) s = some (v c)
         let mix := fun (p m : Nat) => (toSigned 16 (v (2 * m)) * ncoCos p - toSigned 16 (v (2 * m + 1)) * ncoSin p + 2 ^ 16) / 2 ^ 17
         let leaves := fun (p : Nat) (reset : Prop) [Decidable reset] (frame : List (List Int)) (t : State) =>
           (i.nco = false → t.jtx.out = (List.range i.chans).map (fun c => if muted then 0 else toSigned 16 (v c)) ∧
             rd K.jtxSat t = min (2 ^ 32 - 1) (rd K.jtxSat s)) ∧
           (i.nco = true → i.chans % 2 = 0 →
             t.jtx.out = (List.range (i.chans / 2)).map (fun m => if muted then 0 else max (-32768) (min 32767 (mix p m))) ∧
             rd K.jtxSat t = min (2 ^ 32 - 1) (rd K.jtxSat s + if muted then 0 else
               ((List.range (i.chans / 2)).filter (fun m => decide (mix p m < -32768 ∨ 32767 < mix p m))).length)) ∧
           t.jtx.phase = (p + rd K.jtxNcoFtw t) % 2 ^ 48 ∧ t.jtx.resync = false ∧ t.jtx.pos = s.jtx.pos + i.chans ∧
           t.jtx.resetAt = (if reset then some t.now else s.jtx.resetAt) ∧ t.jtx.zeros = s.jtx.zeros - 1 ∧ t.jtx.imgs = i :: rest ∧
           t.jtx.frame = (emits t.jtx.out s { s.jtx with frame }).frame ∧ t.jtx.lanes = (emits t.jtx.out s { s.jtx with frame }).lanes ∧
           t.jtx.buffer = s.jtx.buffer.filter (fun x => decide ((s.jtx.pos + i.chans) / 32 ≤ x.1))
         let timed := fun (t : State) => ∃ r, r < 3 ∧ rd K.jtxSegTime t = actTime (t.now / 1024 + r - 1) t
         (rd K.jtxPlay s = 2 →
           (s.jtx.pos = stop → rest = [] → s.jtx.closed = true → quiet s → Reaches .sourceSample s (fun t => rd K.jtxPlay t = 0 ∧
             t.jtx = emits silence s (kept s) ∧ ObjsBut [K.jtxPlay] s t ∧
             t = { s with now := due, objs := t.objs, jtx := t.jtx })) ∧
           ((s.jtx.pos = stop ∧ s.jtx.closed = false) ∨ (s.jtx.pos ≠ stop ∧ ∃ c, c < i.chans ∧ sourceVal (s.jtx.pos + c) s = none) →
             Reaches .sourceSample s (fun t =>
               ∃ u w, u = raiseFault 213 w ∧ rd K.jtxUnderruns w = min (2 ^ 32 - 1) (rd K.jtxUnderruns s + 1) ∧
                 OnlyObjs [K.jtxUnderruns] { s with now := due, jtx := { s.jtx with imgs := i :: rest } } w ∧
                 rd K.jtxPlay t = 0 ∧ t.jtx = emits silence s (kept s) ∧
                 ObjsBut [K.jtxPlay] u t ∧ t = { u with objs := t.objs, jtx := t.jtx, dram := t.dram })) ∧
           (i.first * 32 < s.jtx.pos → held → Reaches .sourceSample s (fun t =>
             leaves (if s.jtx.resync = true then rd K.jtxNcoPhase0 s * 2 ^ 32 else s.jtx.phase) (s.jtx.resync = true) s.jtx.frame t ∧
             t.jtx.sent = s.jtx.sent + 1 ∧ t.jtx.origin = s.jtx.origin ∧ ObjsBut [K.jtxSat] s t ∧
             t = { s with now := due, objs := t.objs, jtx := t.jtx })) ∧
           (s.jtx.pos = i.first * 32 → held → (rd K.jtxGroup s ≠ 0xFF ∨ s.jtx.ftwNew = none) → Reaches .sourceSample s (fun t =>
             leaves (rd K.jtxNcoPhase0 s * 2 ^ 32) True s.jtx.frame t ∧ timed t ∧
             t.jtx.sent = s.jtx.sent + 1 ∧ t.jtx.origin = s.jtx.origin ∧ ObjsBut [K.jtxSat, K.jtxSegTime] s t ∧
             t = { s with now := due, free := t.free, objs := t.objs, jtx := t.jtx })) ∧
           (∀ f a, s.jtx.pos = i.first * 32 → held → rd K.jtxGroup s = 0xFF → s.jtx.ftwNew = some (f, a) → f < 2 ^ 48 →
             Reaches .sourceSample s (fun t => rd K.jtxNcoFtw t = f ∧ rd K.jtxNcoPending t = 0 ∧ t.jtx.ftwNew = none ∧
               t.jtx.phase = (rd K.jtxNcoPhase0 s * 2 ^ 32 + f) % 2 ^ 48 ∧ timed t))) ∧
         (∀ a, rd K.jtxPlay s = 1 → s.jtx.startAt = some a → a ≤ s.now → s.jtx.pos = i.first * 32 → held →
           (rd K.jtxGroup s ≠ 0xFF ∨ s.jtx.ftwNew = none) → Reaches .sourceSample s (fun t =>
             rd K.jtxPlay t = 2 ∧ leaves (rd K.jtxNcoPhase0 s * 2 ^ 32) True [] t ∧ t.jtx.sent = 1 ∧ t.jtx.startAt = none ∧
             t.jtx.origin = lemcAfter K.jtxParams s.jtx.lemc a s ∧ t.now = max s.now t.jtx.origin ∧ timed t ∧
             ObjsBut [K.jtxPlay, K.jtxSat, K.jtxSegTime] s t ∧
             t = { s with now := t.now, free := t.free, objs := t.objs, jtx := t.jtx })))) ∧
     (∀ (frame : List (List Int)) (i : Nat) (s : State), i < linkParam K.jtxParams 0 s →
       let f := 2 * linkParam K.jtxParams 1 s * frame.length / linkParam K.jtxParams 0 s
       let octets := ((frameOctets frame (linkParam K.jtxParams 1 s)).drop (i * f)).take f
       (frameLanes frame s)[i]? = some (if (rd K.jtxPol s).testBit i then octets.map (255 - ·) else octets)) ∧
     (ncoCos 0 = 131071 ∧ ncoSin 0 = 0 ∧ ncoCos (2 ^ 46) = 0 ∧ ncoSin (2 ^ 46) = 131071 ∧ ncoCos (2 ^ 47) = -131071 ∧
       ncoSin (2 ^ 47) = 0 ∧ ncoCos (3 * 2 ^ 46) = 0 ∧ ncoSin (3 * 2 ^ 46) = -131071 ∧
       (ncoCos (2 ^ 45) = 92681 ∨ ncoCos (2 ^ 45) = 92682) ∧ (ncoSin (2 ^ 45) = 92681 ∨ ncoSin (2 ^ 45) = 92682))) ∧
    (∀ p : Bytes, p.length = 8 → leNat p < 2 ^ 48 →
      let v := leNat p
      let sets := fun (ftw pending : Nat) (new : Option (Nat × Nat)) (x : Session) (s t : State) =>
        rd K.jtxNcoFtw t = ftw ∧ rd K.jtxNcoPending t = pending ∧ ObjsBut [K.jtxNcoFtw, K.jtxNcoPending] s t ∧ HostFrame x s t ∧
        t = { s with objs := t.objs, jtx := { s.jtx with ftwNew := new }, sessions := t.sessions, baton := t.baton }
      HostDoes (.jtxNcoFtwWrite · false p) opWrite K.jtxNcoFtw p 1 true (fun _ s => rd K.jtxPlay s = 0) (sets v 0 none) ∧
      HostDoes (.jtxNcoFtwWrite · false p) opWrite K.jtxNcoFtw p 1 true (fun _ s => rd K.jtxPlay s ≠ 0 ∧ v ≠ rd K.jtxNcoFtw s)
        (fun x s t => sets (rd K.jtxNcoFtw s) 1 (some (v, match s.jtx.ftwNew with | some w => w.2 | none => s.now)) x s t) ∧
      HostDoes (.jtxNcoFtwWrite · false p) opWrite K.jtxNcoFtw p 1 true (fun _ s => rd K.jtxPlay s ≠ 0 ∧ v = rd K.jtxNcoFtw s)
        (sets v 0 none)) ∧
    (∀ p : Bytes, p.length = 8 →
      let fs := sampleRate K.jtxParams
      let v := fun s => (2 * (leNat p * 2 ^ 48 * (fs s).2) + 1000 * (fs s).1) / (2 * (1000 * (fs s).1))
      HostDoes (.jtxNcoFtwWrite · true p) opWrite K.jtxNcoFreqHz p 1 false
        (fun _ s => rd K.jtxPlay s = 0 ∧ (fs s).1 ≠ 0 ∧ v s < 2 ^ 48)
        (fun x s t => rd K.jtxNcoFtw t = v s ∧ rd K.jtxNcoPending t = 0 ∧ ObjsBut [K.jtxNcoFtw, K.jtxNcoPending] s t ∧
          HostFrame x s t ∧
          t = { s with objs := t.objs, jtx := { s.jtx with ftwNew := none }, sessions := t.sessions, baton := t.baton }))) ∧
  (HostDoes (.jrxStart ·) opWrite K.jrxCmd [1] 1 false
      (fun _ s => rd K.jrxEn s = 1 ∧ rd K.jrxState s ≠ 5 ∧ ∀ x, s.jrx.stopAt = some x → x.1 ≠ sysCycle s)
      (fun x s t => rd K.jrxWr t = 0 ∧ ObjsBut [K.jrxWr] s t ∧ HostFrame x s t ∧
        t = { s with
          objs := t.objs
          jrx := { s.jrx with capturing := true, fresh := true, recorded := 0, part := [], base := 0 }
          sessions := t.sessions, baton := t.baton }) ∧
    HostDoes (.jrxStart ·) opWrite K.jrxCmd [1] 1 false
      (fun _ s => rd K.jrxEn s = 1 ∧ rd K.jrxState s ≠ 5 ∧ ∃ x, s.jrx.stopAt = some x ∧ x.1 = sysCycle s)
      (fun x s t => HostObjs [] x s t) ∧
    HostRefuses (.jrxStart ·) opWrite K.jrxCmd [1] 1 false Code.state (fun _ s => rd K.jrxEn s ≠ 1 ∨ rd K.jrxState s = 5) ∧
    HostDoes (.jrxStop ·) opWrite K.jrxCmd [2] 1 false (fun _ _ => True)
      (fun x s t => t = { s with
          jrx := { s.jrx with
            capturing := false
            stopAt := some (sysCycle s, s.jrx.capturing || decide (s.jrx.stopAt = some (sysCycle s, true))) }
          sessions := t.sessions, baton := t.baton } ∧ HostFrame x s t) ∧
    (∀ (vals : List (BitVec 16)) (errs : Nat) (s : State),
      let c : Instr := .rxSample vals errs
      let m := linkParam K.jrxParams 1 s
      let u := rd K.jrxUnit s
      let place := rd K.jrxBase s + rd K.jrxWr s
      let w := rd K.jrxWr s + 1
      let n := rd K.jrxLen s
      let crc := fun (t : State) => rd K.jrxCrcErrs t = min (2 ^ 32 - 1) (rd K.jrxCrcErrs s + errs)
      let owner := if rd K.jrxDest s = 0 then u else 0x10 + u
      let ring := rd K.jrxMode s = 0
      let size := if rd K.jrxDest s = 0 then 8 else 2
      let come := s.jrx.part ++ vals.map (·.toNat)
      let goes := rd K.jrxState s = 4 ∧ vals.length = m ∧ fenced owner s = false ∧ s.jrx.base ≤ s.now
      let starts := fun (t : State) => rd K.jrxStartTime t = (if s.jrx.fresh = true then
        actAt (lemcBefore K.jrxParams s.jrx.lemc s.now s) s else rd K.jrxStartTime s)
      (rd K.jrxState s ≠ 4 ∨ vals.length ≠ m → exec c s = .next s) ∧
      (rd K.jrxState s = 4 → vals.length = m → (captures m s = false ∨ fenced owner s = true ∨ s.now < s.jrx.base) →
        Reaches c s (fun t => crc t ∧ OnlyObjs [K.jrxCrcErrs] s t)) ∧
      (goes → s.jrx.capturing = true → (ring ∨ 0 < rd K.jrxRecUnits s) → come.length < size → Reaches c s (fun t =>
        crc t ∧ starts t ∧ ObjsBut [K.jrxCrcErrs, K.jrxStartTime] s t ∧
        t = { s with objs := t.objs, jrx := { s.jrx with fresh := false, part := come } })) ∧
      (goes → s.jrx.capturing = true → (ring ∨ 0 < rd K.jrxRecUnits s) → size ≤ come.length → come.length < 2 * size →
        let unit := packUnit (come.take size)
        let last := ¬ ring ∧ min (rd K.jrxRecUnits s) n ≤ s.jrx.recorded + 1
        let posts := (ring ∧ (w = n / 2 ∨ n ≤ w)) ∨ last
        Reaches c s (fun t => ∃ v r,
          (posts → t = { post (rd K.jrxTask s) v with jrx := { v.jrx with part := r } }) ∧
          (¬ posts → t = { v with jrx := { v.jrx with part := r } }) ∧ (¬ last → r = come.drop size) ∧ (last → r = []) ∧
          crc v ∧ rd K.jrxWr v = (if ring ∧ n ≤ w then 0 else w) ∧ starts v ∧
          v.jrx = { s.jrx with
            fresh := false, recorded := if ring then s.jrx.recorded else s.jrx.recorded + 1
            capturing := if last then false else true, part := [] } ∧
          ObjsBut [K.jrxCrcErrs, K.jrxWr, K.jrxStartTime] s v ∧
          (rd K.jrxDest s = 0 → v = { s with objs := v.objs, jrx := v.jrx, grps := v.grps } ∧ GrpsBut [u] s v ∧
            grp u v = { grp u s with capMem := (grp u v).capMem } ∧
            ∀ a, Tab.get 0 a (grp u v).capMem = if a = place then unit else Tab.get 0 a (grp u s).capMem) ∧
          (rd K.jrxDest s ≠ 0 → v = { s with objs := v.objs, jrx := v.jrx, pes := v.pes } ∧
            (∀ m, m ≠ u → pe m v = pe m s) ∧ pe u v = { pe u s with xm := (pe u v).xm, stores := (pe u v).stores } ∧
            ∀ a, (pe u v).memWord 0 a = if a = place then BitVec.ofNat 32 unit else (pe u s).memWord 0 a))) ∧
      (goes → s.jrx.capturing = true → rd K.jrxDest s ≠ 0 → ring → s.jrx.part = [] → m % 2 = 0 → 0 < m →
        (rd K.jrxWr s + m / 2 < n / 2 ∨ (n / 2 ≤ rd K.jrxWr s ∧ rd K.jrxWr s + m / 2 < n)) → Reaches c s (fun t =>
          rd K.jrxWr t = rd K.jrxWr s + m / 2 ∧
          (∀ i, i < m / 2 → (pe u t).memWord 0 (place + i) = ((vals.getD (2 * i + 1) 0 : BitVec 16) ++ (vals.getD (2 * i) 0 : BitVec 16) : BitVec 32)) ∧
          ∀ a, (a < place ∨ place + m / 2 ≤ a) → (pe u t).memWord 0 a = (pe u s).memWord 0 a)) ∧
      (s.jrx.capturing = false → s.jrx.stopAt = some (sysCycle s, true) → goes → endsRecord m s = true →
        exec c s = exec c { s with jrx := { s.jrx with capturing := true, stopAt := none } })) ∧
    (∀ (a b c d e f g h : Nat), packUnit [a, b] = a + 2 ^ 16 * b ∧
      packUnit [a, b, c, d, e, f, g, h] = packUnit [a, b] + 2 ^ 32 * packUnit [c, d] + 2 ^ 64 * packUnit [e, f] + 2 ^ 96 * packUnit [g, h]))

/-! ### Calibration (15) -/

/-- R327, R328, R329, R330, R331, R332, R333, R335, R337, R340, R426: the setting of a delay line, a measured slot, a reading
of a sensor, a move of a live correction, and a lag that lasts. -/
def Obligations.CalibrationRuns : Prop :=
  (∀ (x : CalPath) (sum : Int), (lineSetting x sum).1 = sum % 1024 / 32 ∧
    (lineSetting x sum).1 * x.step + (lineSetting x sum).2 = sum % 1024 ∧ (x.step = 32 → (lineSetting x sum).2 = sum % 32)) ∧
  (∀ (slot : Fin 264) (found : List (Option (Int × Nat))) (s : State), slot.val = s.cal.slot → 9 ≤ rd K.startStep s →
    let n := slot.val
    let at_ := fun p => (found[p]?).join
    let held := 256 ≤ n ∧ rd (K.sysCalHold (n - 256)) s = 1
    let base := fun p => interpolated (factory n p s) (reading n s)
    let r := fun p v => if held then (calPath n p s).r else (calPath n p s).r - v
    let goes := jumps n s = true ∧ ¬ held
    let c := fun p v => if goes then base p + r p v else (calPath n p s).c
    let near := fun p v => (base p + r p v - c p v).natAbs ≤ 2
    let row := fun p => if (calPath n p s).await = true then 0 else (calPath n p s).good
    let set := fun p => lineSetting (calPath n p s) (target n p s)
    let turns := fun (t : State) => t.cal.slot = (n + 1) % 264 ∧ t.cal.slots = s.cal.slots + 1 ∧
      rd K.calRotations t = if n = 263 then (rd K.calRotations s + 1) % 2 ^ 64 else rd K.calRotations s
    let open_ := n < 256 → fenced (n / 16) s = false
    let due := max s.now (s.cal.startAt + s.cal.slots * (60600 * 1024))
    (¬ open_ → Reaches (.calSlot slot found) s (fun t => turns t ∧ ObjsBut [K.calRotations] s t ∧
      t = { s with
        now := due, objs := t.objs, cal := { s.cal with slot := t.cal.slot, slots := t.cal.slots, undo := none } })) ∧
    (open_ → (∀ p, p < pathsOf n → (∀ v k, at_ p = some (v, k) → targetOk (base p + r p v) = true) ∧
        (at_ p = none → (calPath n p s).invalid ≠ 2)) → Reaches (.calSlot slot found) s (fun t => turns t ∧
      (∀ p, p < pathsOf n → calPath n p t = match at_ p with
        | some (v, k) => { calPath n p s with
            r := r p v, c := c p v, invalid := 0, rangeBad := false, step := k, shadow := set p
            was := if goes ∧ (calPath n p s).c ≠ base p + r p v then some (due, (calPath n p s).c) else (calPath n p s).was
            await := !decide (near p v), good := if near p v then row p + 1 else row p
            conv := (calPath n p s).conv || (decide (near p v) && decide (1 ≤ row p)) }
        | none => { calPath n p s with good := 0, await := false, invalid := (calPath n p s).invalid + 1, shadow := set p }) ∧
      (∀ m p, p < 6 → m ≠ n → calPath m p t = calPath m p s) ∧
      (n < 256 → (grp (n / 16) t).converged = groupConverged (n / 16) t) ∧
      (∀ g, grp g t = { grp g s with converged := (grp g t).converged }) ∧
      ObjsBut ([K.calRotations, K.calConvergeMs] ++ (List.range 16).map K.cgService) s t ∧
      t.cal.sensed = s.cal.sensed ∧ t.cal.undo = some (n, (List.range (pathsOf n)).map (fun p => calPath n p s)) ∧
      t = { s with now := due, objs := t.objs, cal := t.cal, grps := t.grps })) ∧
    (open_ → n < 256 → found = [none] → (calPath n 0 s).invalid = 2 →
      (∀ p, 0 < p → p < pathsOf n → (calPath n p s).invalid ≠ 2) → Reaches (.calSlot slot found) s (fun t => ∃ u w,
      u = raiseFault (269 + 16 * (n / 16)) w ∧ rd (K.calGrpCause (n / 16)) w = 3 ∧
      ObjsBut [K.calRotations, K.calGrpCause (n / 16)] s w ∧ w = { s with now := due, objs := w.objs, cal := w.cal } ∧
      t = { u with objs := t.objs, cal := t.cal, grps := t.grps } ∧
      ObjsBut (K.calConvergeMs :: (List.range 16).map K.cgService) u t))) ∧
  (∀ (g : Fin 16) (v : Int) (s : State), -32768 ≤ v → v ≤ 32767 → 4 ≤ rd K.startStep s →
    let at_ := fun m => if m = g.val then v else toSigned 16 (rd (K.thsTemp m) s)
    let sensed := fun (u : State) =>
      toSigned 16 (rd (K.thsTemp g) u) = v ∧ toSigned 16 (rd (K.calGrpTemp g) u) = v ∧
      toSigned 16 (rd (K.thsMax g) u) =
        (if s.cal.sensed.contains g.val = true then max v (toSigned 16 (rd (K.thsMax g) s)) else v) ∧
      u.cal.sensed.contains g.val = true ∧ u.cal.slot = s.cal.slot ∧ u.cal.slots = s.cal.slots ∧
      (∀ n ∈ slotsOf g, ∀ p, p < pathsOf n →
        let x := calPath n p s
        let goes := jumps n s = true ∧ calHeld n s = false
        let y := { x with
          rangeBad := false, c := if goes then target n p u else x.c
          was := if goes ∧ x.c ≠ target n p u then some (s.now, x.c) else x.was }
        calPath n p u = if x.await = true ∧ (target n p u - y.c).natAbs ≤ 2 then
          { y with await := false, good := x.good + 1, conv := x.conv || decide (1 ≤ x.good) } else y) ∧
      (∀ n p, p < 6 → n ∉ slotsOf g → calPath n p u = calPath n p s) ∧
      (∀ m, grp m u = { grp m s with converged := (grp m u).converged }) ∧
      ObjsBut ([K.thsTemp g, K.calGrpTemp g, K.thsMax g, K.calConvergeMs] ++ (List.range 16).map K.cgService) s u ∧
      u = { s with objs := u.objs, cal := u.cal, grps := u.grps }
    (∀ n ∈ slotsOf g, ∀ p, p < pathsOf n → targetOk (interpolated (factory n p s) v + (calPath n p s).r) = true) →
    ((∀ m, m < 16 → at_ m < 824) → rd K.startFail s ≠ 5 → Reaches (.tempReading g v) s (fun t => ∃ u, sensed u ∧
      t = endFault 17 (endFault 16 u))) ∧
    ((∃ m, m < 16 ∧ 840 ≤ at_ m) → (∀ m, m < 16 → at_ m < 880) → rd K.startFail s ≠ 5 → Reaches (.tempReading g v) s (fun t =>
      ∃ u, sensed u ∧ t = endFault 17 (raiseFault 16 u))) ∧
    ((∃ m, m < 16 ∧ 920 ≤ at_ m) → (8 ≤ rd K.startStep s → Reaches (.tempReading g v) s (fun t =>
        ∃ u, sensed u ∧ t = raiseFault 17 (raiseFault 16 u))) ∧
      (rd K.startStep s < 8 → rd K.startFail s = 0 → s.flt.active.contains 17 = false → Reaches (.tempReading g v) s (fun t =>
        rd K.startFail t = 5 ∧ t.flt.sticky.testBit 17 = true ∧ ∃ u w, sensed u ∧ w = raiseFault 16 u ∧
        t.flt.active = 17 :: w.flt.active ∧ ObjsBut [K.startFail, K.fltIntPending] w t ∧
        t = { w with objs := t.objs, flt := t.flt })))) ∧
  (∀ (slot : Fin 264) (p : Fin 6) (s : State), p.val < pathsOf slot → calHeld slot s = false → targetOk (target slot p s) = true →
    let x := calPath slot p s
    let goal := target slot p s
    let only := fun (c : Int) (moved : Option Nat) (t : State) =>
      let y := { x with c, moved, was := some (s.now, x.c) }
      calPath slot p t = (if x.await = true ∧ (goal - c).natAbs ≤ 2 then
        { y with await := false, good := x.good + 1, conv := x.conv || decide (1 ≤ x.good) } else y) ∧
      (∀ n q, q < 6 → (n, q) ≠ (slot.val, p.val) → calPath n q t = calPath n q s) ∧
      (∀ q, q < pathsOf slot → Tab.find (6 * slot + q) t.cal.lagAt =
        if (target slot q t - (calPath slot q t).c).natAbs ≤ 8 then none
        else some ((Tab.find (6 * slot + q) s.cal.lagAt).getD s.now)) ∧
      t.cal.lagging = (if stalled slot t = true then s.cal.lagging else s.cal.lagging.filter (· != slot.val)) ∧
      (∀ g, grp g t = { grp g s with converged := (grp g t).converged }) ∧
      ObjsBut (K.calConvergeMs :: (List.range 16).map K.cgService) s t ∧
      t = { s with
        objs := t.objs, grps := t.grps
        cal := { s.cal with
          paths := t.cal.paths, lagging := t.cal.lagging, lagAt := t.cal.lagAt, single := t.cal.single } }
    (jumps slot s = true → goal ≠ x.c → Reaches (.calMove slot p) s (only goal x.moved)) ∧
    (jumps slot s = false → goal ≠ x.c → atCycleStart slot s = true → pathQuiet slot p s = true → (∀ m, x.moved = some m → m + 65536 ≤ s.now) →
      Reaches (.calMove slot p) s (only (if x.c < goal then x.c + 1 else x.c - 1) (some s.now))) ∧
    (jumps slot s = false → (atCycleStart slot s = false ∨ pathQuiet slot p s = false ∨ ∃ m, x.moved = some m ∧ s.now < m + 65536) →
      exec (.calMove slot p) s = .next s)) ∧
  (∀ (slot : Fin 264) (p : Fin 6) (s : State), calHeld slot s = true → exec (.calMove slot p) s = .next s) ∧
  (∀ (n : Fin 256) (s : State),
    let lags := fun p a => p < pathsOf n ∧ Tab.find (6 * n + p) s.cal.lagAt = some a
    (∀ p a, lags p a → (∀ q b, lags q b → a ≤ b) → s.cal.lagging.contains n.val = false →
      (mode (n / 16) s = 2 → n.val % 2 = 0) → fenced (n / 16) s = false →
      Reaches (.calStall n) s (fun t => ∃ u, t = raiseFault (267 + 16 * (n / 16)) u ∧ rd (K.calGrpCause (n / 16)) u = 1 ∧
        ObjsBut [K.calGrpCause (n / 16)] s u ∧
        u = { s with
          now := max s.now (a + rd K.calStallMs s * 1600000 * 1024 + 1), objs := u.objs
          cal := { s.cal with lagging := n.val :: s.cal.lagging } })) ∧
    ((s.cal.lagging.contains n.val = true ∨ fenced (n / 16) s = true ∨ (mode (n / 16) s = 2 ∧ n.val % 2 = 1) ∨ ∀ p a, ¬ lags p a) →
      exec (.calStall n) s = .next s))

/-- R338, R339, R340: SYS_CAL_REC is read in pass only, and written with SYS_MODE 0; a record that fails a check changes
nothing but SYS_CAL_REC_ERR. A hold undoes the moves of its own instant (R341), and after it is cleared, moves resume one tap
at a time until every path stands at its target. That a write is refused under a hold is the model's choice (log 31). -/
def Obligations.SystemRecords : Prop :=
  ∀ k : Fin 8,
    let slot := 256 + k.val
    HostDoes (.sysCalRecRead · k) opRead (K.sysCalRec k) [] 0 false (fun _ s => slotStatus slot s = 1)
      (fun x s t =>
        let b := leBytes 4 0x4B544341 ++ [1, BitVec.ofNat 8 k.val] ++ leBytes 2 0 ++ leBytes 4 s.otp.uidTag ++
          leBytes 2 (rd (K.calGrpTemp 0) s) ++ leBytes 2 0 ++ leBytes 2 (ofSigned 16 (calPath slot 0 s).r) ++
          leBytes 2 (ofSigned 16 (calPath slot 1 s).r) ++ leBytes 8 0
        Receives x (b ++ leBytes 4 (crc32c b)) t ∧ HostObjs [] x s t) ∧
    HostRefuses (.sysCalRecRead · k) opRead (K.sysCalRec k) [] 0 false Code.state (fun _ s => slotStatus slot s ≠ 1) ∧
    (∀ b : Bytes, b.length = 32 →
      let key := K.sysCalRec k
      let wr_ : Req → Instr := fun r => .sysCalRecWrite r k b
      let residual := fun p => toSigned 16 (leAt (16 + 2 * p) 2 b)
      let aim := fun p s => interpolated (factory slot p s) (reading slot s) + residual p
      let laid := leAt 0 4 b = 0x4B544341 ∧ leAt 4 1 b = 1 ∧ leAt 5 1 b = k.val ∧ leAt 6 2 b = 0 ∧ leAt 14 2 b = 0 ∧ leAt 20 8 b = 0
      let crc := leAt 28 4 b = crc32c (b.take 28)
      let own := fun s => leAt 8 4 b = s.otp.uidTag
      let fits := fun s => targetOk (aim 0 s) = true ∧ targetOk (aim 1 s) = true
      let err := fun (n : Nat) (pre : State → Prop) =>
        ∀ (r : Req) (x : Session) (s : State), Admitted r opWrite key b x s → indexExists key s = true → 1 ≤ x.role →
          x.expert = true → rd (K.sysMode k) s = 0 → rd (K.sysCalHold k) s = 0 → pre s → Reaches (wr_ r) s (fun t => Answers r opWrite Code.range t ∧
            rd (K.sysCalRecErr k) t = n ∧ HostObjs [K.sysCalRecErr k] x s t)
      HostRefuses wr_ opWrite key b 1 true Code.state (fun _ s => rd (K.sysMode k) s ≠ 0 ∨ rd (K.sysCalHold k) s ≠ 0) ∧
      err 1 (fun _ => ¬ laid) ∧ err 2 (fun _ => laid ∧ ¬ crc) ∧ err 3 (fun s => laid ∧ crc ∧ ¬ own s) ∧
      err 4 (fun s => laid ∧ crc ∧ own s ∧ ¬ fits s) ∧
      HostDoes wr_ opWrite key b 1 true (fun _ s => rd (K.sysMode k) s = 0 ∧ rd (K.sysCalHold k) s = 0 ∧ laid ∧ crc ∧ own s ∧ fits s)
        (fun x s t =>
          (∀ p, p < 2 → calPath slot p t = { calPath slot p s with
            r := residual p, c := aim p s, conv := true, good := 2, invalid := 0, rangeBad := false, await := false }) ∧
          (∀ n p, p < 6 → n ≠ slot → calPath n p t = calPath n p s) ∧ HostFrame x s t ∧
          (∀ p, p < 2 → Tab.find (6 * slot + p) t.cal.lagAt = none) ∧
          t = { s with
            cal := { s.cal with
              paths := t.cal.paths, lagging := t.cal.lagging, lagAt := t.cal.lagAt, single := t.cal.single }
            sessions := t.sessions, baton := t.baton })) ∧
    (∀ v : Byte, v.toNat ≤ 1 → HostDoes (.write · (BitVec.ofNat 16 (0xB200 + k)) 4 [v]) opWrite (K.sysCalHold k) [v] 1 false
      (fun _ _ => True) (fun x s t => rd (K.sysCalHold k) t = v.toNat ∧ ObjsBut [K.sysCalHold k] s t ∧ HostFrame x s t ∧
        (v = 0 → rd (K.sysCalHold k) s ≠ 1 → t.cal = s.cal) ∧
        (∀ p, p < 2 → calPath slot p t = match (calPath slot p s).was with
          | some (m, c) => if v = 1 ∧ m = s.now then { calPath slot p s with c, was := none } else calPath slot p s
          | none => calPath slot p s) ∧ (∀ n p, p < 6 → n ≠ slot → calPath n p t = calPath n p s) ∧
        (v = 0 → rd (K.sysCalHold k) s = 1 → (∃ p, p < 2 ∧ target slot p s ≠ (calPath slot p s).c) →
          jumps slot t = false) ∧
        t = { s with
          objs := t.objs
          cal := { s.cal with
            paths := t.cal.paths, lagging := t.cal.lagging, lagAt := t.cal.lagAt, single := t.cal.single }
          sessions := t.sessions, baton := t.baton }))

/-! ### Faults (16) -/

/-- R343, R344, R345, R352, R353, R355, R356, R421: what the report of a source sets, the end of a condition, and the board
fault inputs. -/
def Obligations.FaultsAreCollected : Prop :=
  (∀ (id : BitVec 9) (f : FaultSrc) (s : State), faultSrc id.toNat = some f →
    let n := id.toNat
    let cls := faultClass n f s
    let ether := 192 ≤ n ∧ n ≤ 199 ∧ n % 2 = 0
    (4 < n → n ≠ 20 → 8 ≤ rd K.startStep s → ¬ ether → cls ≠ 0 → suppressed n s = false → (n = 42 → usedSlots s = []) →
      (256 ≤ n → n % 16 = 0 → (seq (leader ((n - 256) / 16) s) s).live = false) →
      s.flt.active.contains n = false → Reaches (.faultReport id) s (fun t =>
        (∀ i, t.flt.sticky.testBit i = (s.flt.sticky.testBit i || decide (i = n))) ∧
        (∀ i, (rd K.fltIntPending t).testBit i = ((rd K.fltIntPending s).testBit i || decide (i = cls - 1))) ∧
        t.flt.active = (if f.level = true then n :: s.flt.active else s.flt.active) ∧
        t.flt.cDue = (if cls = 1 ∧ s.flt.window = false then true else s.flt.cDue) ∧
        t.flt.pendF = (if cls = 3 then true else s.flt.pendF) ∧
        t.flt.pendU = (if cls ≠ 1 ∧ cls ≠ 3 then s.flt.pendU ++ [n] else s.flt.pendU) ∧
        t.flt.window = s.flt.window ∧ t.flt.covered = s.flt.covered ∧
        ObjsBut [K.fltIntPending] s t ∧ t = { s with objs := t.objs, flt := t.flt })) ∧
    (4 < n → n ≠ 20 → 8 ≤ rd K.startStep s → ¬ ether → (cls = 0 ∨ suppressed n s = true ∨ s.flt.active.contains n = true) →
      exec (.faultReport id) s = .next s) ∧
    (n = 42 → 8 ≤ rd K.startStep s → usedSlots s ≠ [] → s.flt.active.contains 42 = false → Reaches (.faultReport id) s (fun t =>
      ∃ j, j ∈ usedSlots s ∧ t.flt.sticky.testBit 42 = true ∧ ∀ q,
        (rqueue q t).items = (rqueue q s).items.filter (fun i => !i.slot.any (fun k => slotAddr k s / 64 == slotAddr j s / 64)))) ∧
    (∀ g, g < 16 → n = 256 + 16 * g → leader g s = g → 8 ≤ rd K.startStep s → suppressed n s = false → runState g s = 3 →
      (seq g s).live = true → (seq g s).stopped = none → (seq g s).dead = none → 0 < (seq g s).played →
      s.flt.active.contains n = false → Reaches (.faultReport id) s (fun t =>
        (seq g t).stopped = some .underrun ∧ t.flt.sticky.testBit n = true ∧
        rd (K.runUnderruns g) t = min (2 ^ 32 - 1) (rd (K.runUnderruns g) s + 1))) ∧
    (n ≤ 4 → 3 ≤ rd K.startStep s → rd K.startStep s < 8 → s.flt.active.contains n = false → Reaches (.faultReport id) s (fun t =>
      rd K.startStep t = (if 1 ≤ rd K.startFail s ∧ rd K.startFail s ≤ 3 then rd K.startStep s else 2) ∧
      t.flt.sticky.testBit n = true ∧ t.flt.active = n :: s.flt.active ∧
      (n = 0 → ∀ m, m < 264 → (chan m t).den.level = false ∧ (chan m t).sched = []) ∧
      ObjsBut [K.startStep, K.clkStatus, K.fltIntPending] s t ∧
      t = { s with objs := t.objs, flt := t.flt, chans := if n = 0 then t.chans else s.chans })) ∧
    (8 ≤ n ∧ n ≤ 14 → 3 ≤ rd K.startStep s → rd K.startStep s < 8 → s.flt.active.contains n = false →
      Reaches (.faultReport id) s (fun t => rd K.startFail t = (if rd K.startFail s = 0 then 5 else rd K.startFail s) ∧
        t.flt.sticky.testBit n = true ∧ t.flt.active = n :: s.flt.active ∧ ObjsBut [K.startFail, K.fltIntPending] s t ∧
        t = { s with objs := t.objs, flt := t.flt })) ∧
    (n = 20 → 8 ≤ rd K.startStep s → Reaches (.faultReport id) s (fun t => rd K.secState t = 2 ∧
      (rd K.secSelftestResult t).testBit 31 = true ∧ t.flt.sticky.testBit 20 = true ∧ t.flt.pendF = true ∧
      ObjsBut [K.secState, K.secSelftestResult, K.fltIntPending] s t ∧
      t = { s with objs := t.objs, flt := t.flt, free := s.free + 1 })) ∧
    (ether → rd (K.ethLink ((n - 192) / 2)) s = 1 → s.flt.active.contains n = false → Reaches (.faultReport id) s (fun t =>
      ∃ u, t = raiseFault n u ∧ rd (K.ethLink ((n - 192) / 2)) u = 0 ∧ OnlyObjs [K.ethLink ((n - 192) / 2)] s u)) ∧
    (4 < n → n ≠ 16 → n ≠ 17 → ¬ (28 ≤ n ∧ n ≤ 31) → rd K.startFail s ≠ 5 →
      exec (.faultConditionEnd id) s = .next { s with flt := { s.flt with active := s.flt.active.filter (· != n) } }) ∧
    (8 ≤ n ∧ n ≤ 14 → rd K.startFail s = 5 → (∀ m ∈ s.flt.active, m ≠ n → ¬ (8 ≤ m ∧ m ≤ 14 ∨ m = 17)) →
      Reaches (.faultConditionEnd id) s (fun t => rd K.startFail t = 0 ∧ ObjsBut [K.startFail] s t ∧
        t = { s with objs := t.objs, flt := { s.flt with active := s.flt.active.filter (· != n) } }))) ∧
  (∀ (i : Fin 4) (cycle : Nat) (s : State),
    let x := fltin i s
    let at_ := max cycle s.time.sys
    let n := 28 + i.val
    let set := fun (y : FltIn) (u : State) => fltin i u = y ∧ ∀ j, j ≠ i.val → fltin j u = fltin j s
    (x.active = true → exec (.fltinActivation i cycle) s = .next s) ∧
    (x.active = false → (∀ e, x.ended = some e → e + 8 ≤ at_) → Reaches (.fltinActivation i cycle) s (fun t =>
      ∃ u, t = raiseFault n u ∧ set { x with active := true } u ∧ rd (K.fltinLevel i) u = 1 ∧
        ObjsBut [K.fltinLevel i] s u ∧ u = { s with objs := u.objs, fltins := u.fltins })) ∧
    (∀ e, x.active = false → x.ended = some e → at_ < e + 8 → Reaches (.fltinActivation i cycle) s (fun t =>
      set { x with active := true } t ∧ rd (K.fltinLevel i) t = 1 ∧
      rd (K.fltinOverruns i) t = min (2 ^ 16 - 1) (rd (K.fltinOverruns i) s + 1) ∧
      ObjsBut [K.fltinLevel i, K.fltinOverruns i] s t ∧
      t = { s with
        objs := t.objs, fltins := t.fltins
        flt := if rd (K.fltinClass i) s = 0 then s.flt else { s.flt with active := n :: s.flt.active } })) ∧
    (x.active = true → rd K.startFail s ≠ 5 → Reaches (.faultConditionEnd (BitVec.ofNat 9 n)) s (fun t =>
      set { active := false, ended := some s.time.sys } t ∧ rd (K.fltinLevel i) t = 0 ∧ ObjsBut [K.fltinLevel i] s t ∧
      t = { s with
        objs := t.objs, fltins := t.fltins, flt := { s.flt with active := s.flt.active.filter (· != n) } })))

/-- R347, R349, R350, R351, R352: a reaction opens a window and fences its units, or the whole chip; the window's end and
a class C fault are notified. -/
def Obligations.ReactionsFence : Prop :=
  (∀ s : State,
    let at_ := if s.flt.window = true then s.flt.windowAt else s.now
    let opens := fun (k : Nat) (t : State) => t.flt.pendU = [] ∧ t.flt.pendF = false ∧ t.flt.window = true ∧
      t.flt.windowAt = at_ ∧
      rd K.fltReact t = 0x80 + if s.flt.window = true ∧ rd K.fltReact s % 4 = 3 then 3 else k
    (s.flt.pendU = [] → s.flt.pendF = false → exec .reactionStart s = .next s) ∧
    (s.flt.pendU ≠ [] → s.flt.pendF = false → rd K.fltFatal s = 0 → (∀ n ∈ s.flt.pendU, n ≠ 41 ∧ reactUnits n s = []) →
      Reaches .reactionStart s (fun t => opens 2 t ∧ ObjsBut [K.fltReact] s t ∧
        t = { s with objs := t.objs, flt := { s.flt with pendU := [], window := true, windowAt := at_ } })) ∧
    (∀ g : Fin 16, s.flt.pendU = [262 + 16 * g.val] → s.flt.pendF = false → rd K.fltFatal s = 0 → fenced g s = false →
      leader (leader g s) s = leader g s → Reaches .reactionStart s (fun t => opens 2 t ∧
        (∀ m ∈ members g s, runState m t = 6 ∧ fenced m t = true) ∧ (seq (leader g s) t).queue = [] ∧
        (∀ m, m < 16 → m ∉ members g s → runState m t = runState m s) ∧ t.dram.mem = s.dram.mem ∧ t.sessions = s.sessions)) ∧
    (s.flt.pendU = [204] → s.flt.pendF = false → rd K.fltFatal s = 0 → fenced 0x2A s = false → Reaches .reactionStart s (fun t =>
      opens 2 t ∧ rd K.rlyState t = 4 ∧ fenced 0x2A t = true ∧ ObjsBut [K.fltReact, K.fltFenced, K.rlyState] s t ∧
      t = { s with
        objs := t.objs, flt := { s.flt with pendU := [], window := true, windowAt := at_ }
        rly := { s.rly with txq := [], fwd := [none, none, none], held := [false, false, false] } })) ∧
    (∀ p : Fin 4, s.flt.pendU = [193 + 2 * p.val] → s.flt.pendF = false → rd K.fltFatal s = 0 → fenced (0x24 + p) s = false →
      ((∃ i, i < 4 ∧ i ≠ p.val ∧ fenced (0x24 + i) s = false) → Reaches .reactionStart s (fun t => opens 2 t ∧
        rd (K.ethLink p) t = 2 ∧ fenced (0x24 + p) t = true ∧ (∀ x ∈ t.sessions, x.port ≠ p.val) ∧
        ObjsBut [K.fltReact, K.fltFenced, K.ethLink p] s t)) ∧
      ((∀ i, i < 4 → i ≠ p.val → fenced (0x24 + i) s = true) → Reaches .reactionStart s (fun t => opens 2 t ∧
        ObjsBut [K.fltReact] s t ∧ t = { s with objs := t.objs, flt := { s.flt with pendU := [], window := true, windowAt := at_ } }))) ∧
    (s.flt.pendF = true → s.flt.pendU = [] → rd K.fltFatal s = 0 →
      (∀ g, g < 16 → leader (leader g s) s = leader g s ∧ fenced g s = false) → Reaches .reactionStart s (fun t => opens 3 t ∧
      rd K.fltFatal t = 1 ∧ (∀ g, g < 16 → runState g t = 6 ∧ fenced g t = true) ∧ (∀ j, j < 8 → (tout j t).pulses = []) ∧
      (∀ k, k < 8 → (sysch k t).running = false ∧ chan (256 + k) t = entersSafeFrom s.now (chan (256 + k) s)) ∧
      t.dram.mem = s.dram.mem))) ∧
  (∀ s : State, (∀ x ∈ s.sessions, x.subs = []) →
    (s.flt.window = true → Reaches .reactionWindowClose s (fun t => rd K.fltReact t = 0 ∧ ObjsBut [K.fltReact] s t ∧
      t = { s with
        now := max s.now (s.flt.windowAt + 32000 * 1024), objs := t.objs, flt := { s.flt with window := false } })) ∧
    (s.flt.cDue = true → exec .classCNotify s = .next { s with flt := { s.flt with cDue := false } })) ∧
  (∀ (id : BitVec 16) (x : Session) (s : State), s.sessions = [x] → x.id = id → x.auth = false → x.pend = [] →
    (∃ u ∈ x.subs, u.key = K.fltSticky ∧ u.ptr = 0xFFFFFFFF) →
    (s.flt.window = true → Reaches .reactionWindowClose s (fun t => ∃ y n, t.sessions = [y] ∧ y.pend = [n] ∧ n.key = K.fltSticky ∧
      n.value = leBytes 64 s.flt.sticky ∧ t.flt.window = false ∧ rd K.fltReact t = 0 ∧ ObjsBut [K.fltReact] s t)) ∧
    (s.flt.cDue = true → Reaches .classCNotify s (fun t => ∃ y n, t.sessions = [y] ∧ y.pend = [n] ∧ n.key = K.fltSticky ∧
      n.value = leBytes 64 s.flt.sticky ∧ t.flt.cDue = false ∧ ObjsBut [] s t))) ∧
  (∀ s : State, (s.flt.window = false → exec .reactionWindowClose s = .next s) ∧
    (s.flt.cDue = false → exec .classCNotify s = .next s))

/-- R353, R357: sticky bits are cleared where no condition holds them; a release is refused with its code, or takes the unit
out of its fence. -/
def Obligations.FencesAreReleased : Prop :=
  (∀ p : Bytes, p.length = 64 →
    HostDoes (.fltStickyClear · p) opWrite K.fltSticky p 1 false
      (fun _ s => ∀ n ∈ s.flt.active, (leNat p).testBit n = false)
      (fun x s t => (∀ i, t.flt.sticky.testBit i = (s.flt.sticky.testBit i && !(leNat p).testBit i)) ∧ HostFrame x s t ∧
        t = { s with flt := { s.flt with sticky := t.flt.sticky }, sessions := t.sessions, baton := t.baton }) ∧
    (∀ n f, faultSrc n = some f → (leNat p).testBit n = true →
      HostDoes (.fltStickyClear · p) opWrite K.fltSticky p 1 false
        (fun _ s => s.flt.active = [n] ∧ s.flt.sticky.testBit n = true)
        (fun x s t => (∀ i, t.flt.sticky.testBit i = ((s.flt.sticky.testBit i && !(leNat p).testBit i) || decide (i = n))) ∧
          HostFrame x s t ∧ ObjsBut [K.fltIntPending] s t ∧
          t = { s with
            objs := t.objs, flt := { s.flt with sticky := t.flt.sticky }, sessions := t.sessions, baton := t.baton }))) ∧
  (∀ v : Byte,
    let u := v.toNat
    let defined := u ≤ 0x2C ∨ u = 0x3F
    let runs := fun s => ∃ g, g < 16 ∧ (busyState (runState g s) = true ∨ rd (K.runArmBusy g) s = 1)
    let dram := 0x20 ≤ u ∧ u < 0x24
    let no := fun (status code : Nat) (pre : State → Prop) =>
      ∀ (r : Req) (x : Session) (s : State), Admitted r opWrite K.fltRelease [v] x s → indexExists K.fltRelease s = true →
        1 ≤ x.role → pre s → Reaches (.fltRelease r [v]) s (fun t => Answers r opWrite status t ∧
          rd K.fltReleaseErr t = code ∧ HostObjs [K.fltReleaseErr] x s t)
    let may := fun (s : State) => fenced u s = true ∧ s.flt.window = false ∧ (rd K.fltFatal s = 0 ∨ s.flt.covered.contains u = false)
    let free := fun (keys : List Nat) (x : Session) (s t : State) =>
      (∀ i, fenced i t = (fenced i s && !decide (i = u))) ∧ ObjsBut (K.fltFenced :: keys) s t ∧ HostFrame x s t
    no Code.range 2 (fun _ => ¬ defined) ∧
    no Code.state 1 (fun s => defined ∧ fenced u s = false) ∧
    no Code.state 3 (fun s => defined ∧ fenced u s = true ∧ s.flt.window = true) ∧
    no Code.state 4 (fun s => dram ∧ fenced u s = true ∧ s.flt.window = false ∧ runs s) ∧
    no Code.state 5 (fun s => u = 0x3F ∧ fenced u s = true ∧ s.flt.window = false ∧ fatalHolds s = true) ∧
    no Code.state 6 (fun s => defined ∧ u ≠ 0x3F ∧ fenced u s = true ∧ s.flt.window = false ∧ (dram → ¬ runs s) ∧
      rd K.fltFatal s = 1 ∧ s.flt.covered.contains u = true) ∧
    HostDoes (.fltRelease · [v]) opWrite K.fltRelease [v] 1 false (fun _ s => u = 0x2A ∧ may s)
      (fun x s t => rd K.rlyState t = 0 ∧ free [K.rlyState] x s t ∧
        t = { s with
          objs := t.objs, sessions := t.sessions, baton := t.baton
          rly := { s.rly with txAt := t.rly.txAt, rxDue := t.rly.rxDue } }) ∧
    HostDoes (.fltRelease · [v]) opWrite K.fltRelease [v] 1 false (fun _ s => 0x24 ≤ u ∧ u ≤ 0x27 ∧ may s)
      (fun x s t => rd (K.ethLink (u - 0x24)) t = 0 ∧ free [K.ethLink (u - 0x24)] x s t ∧
        t = { s with objs := t.objs, sessions := t.sessions, baton := t.baton }) ∧
    HostDoes (.fltRelease · [v]) opWrite K.fltRelease [v] 1 false (fun _ s => dram ∧ may s ∧ ¬ runs s)
      (fun x s t => HostFrame x s t ∧
        t = { s with dram := { s.dram with retrain := (u - 0x20) :: s.dram.retrain.filter (· != u - 0x20) }, sessions := t.sessions, baton := t.baton }) ∧
    HostDoes (.fltRelease · [v]) opWrite K.fltRelease [v] 1 false (fun _ s => u < 16 ∧ leader u s = u ∧ may s)
      (fun _ s t => ∀ m ∈ members u s, runState m t = 0 ∧ fenced m t = false))

/-! ### Security (19) -/

/-- R401, R402, R403, R408: importing keys, loading and clearing slots, enrolling and revoking officers, revoking anchors and
raising the patch level. Whether a wrapped key opens is the algorithms' (assumption log 3).
R405: the tag of a sealed image is verified when all of it has arrived; the leader counts a use of the key slot,
or a failure with its cause. -/
def Obligations.SecurityKeysAndSeals : Prop :=
  (let run := fun (c : Req → Instr) (key : Nat) (p : Bytes) (pre : State → Prop) (post : Req → Session → State → State → Prop) =>
      ∀ (r : Req) (x : Session) (s : State), Admitted r opWrite key p x s → indexExists key s = true → 2 ≤ x.role →
        x.expert = true → pre s → Reaches (c r) s (fun t => post r x s t ∧ HostFrame x s t)
    let counted := fun (r : Req) (s t : State) => Answers r opWrite Code.refused t ∧
      rd K.secAuthFails t = min (2 ^ 32 - 1) (rd K.secAuthFails s + 1) ∧ ObjsBut [K.secAuthFails] s t ∧
      t = { s with objs := t.objs, sessions := t.sessions, baton := t.baton }
    let otp := fun (o : State → Otp) (x : Session) (s t : State) =>
      t = { s with otp := o s, sessions := t.sessions, baton := t.baton } ∧ HostFrame x s t
    let present := fun s => rd K.pwrVqpsUv s ≠ 0 ∧ s.flt.active.contains 13 = false
    (∀ (k : Fin 4) (p : Bytes), p.length = 145 → leAt 0 1 p = 1 →
      run (.secKekWrite · k p) (K.secKek k) p (fun s => rd K.secState s = 1 ∧ Tab.find k.val s.sec.keks = none) (fun r _ s t =>
        match Config.kekUnwrap s.otp.duk p with
        | none => counted r s t
        | some key => Answers r opWrite Code.ok t ∧ Tab.find k.val t.sec.keks = some (leAt 4 4 p, key) ∧
          (∀ i, i ≠ k.val → Tab.find i t.sec.keks = Tab.find i s.sec.keks) ∧
          (∀ i, (rd K.secKekState t).testBit i = ((rd K.secKekState s).testBit i || decide (i = k.val))) ∧
          ObjsBut [K.secKekState] s t ∧
          t = { s with objs := t.objs, sec := { s.sec with keks := t.sec.keks }, sessions := t.sessions, baton := t.baton }) ∧
      HostRefuses (.secKekWrite · k p) opWrite (K.secKek k) p 2 true Code.state
        (fun _ s => rd K.secState s ≠ 1 ∨ Tab.find k.val s.sec.keks ≠ none)) ∧
    (∀ (i : Fin 64) (p : Bytes), p.length = 48 → leAt 0 1 p ≤ 3 →
      run (.skLoad · i p) (K.skLoad i) p
        (fun s => rd K.secState s ≠ 2 ∧ (keySlot i s).loaded = false ∧ Tab.find (leAt 0 1 p) s.sec.keks ≠ none) (fun r _ s t =>
        match (Tab.find (leAt 0 1 p) s.sec.keks).bind (fun x => Config.segKeyUnwrap x.2 (p.drop 8)) with
        | none => counted r s t
        | some key => Answers r opWrite Code.ok t ∧ keySlot i t = { keySlot i s with loaded := true, keyId := leAt 4 4 p, key } ∧
          (∀ j, j ≠ i.val → keySlot j t = keySlot j s) ∧
          t = { s with sec := { s.sec with slots := t.sec.slots }, sessions := t.sessions, baton := t.baton }) ∧
      HostRefuses (.skLoad · i p) opWrite (K.skLoad i) p 2 true Code.state
        (fun _ s => rd K.secState s = 2 ∨ (keySlot i s).loaded = true ∨ Tab.find (leAt 0 1 p) s.sec.keks = none)) ∧
    (∀ i : Fin 64, HostDoes (.skClear · i [1]) opWrite (K.skClear i) [1] 2 true (fun _ s => rd K.secState s ≠ 2)
      (fun x s t => keySlot i t = { keySlot i s with loaded := false, keyId := 0, key := [] } ∧
        (∀ j, j ≠ i.val → keySlot j t = keySlot j s) ∧ HostFrame x s t ∧
        t = { s with sec := { s.sec with slots := t.sec.slots }, sessions := t.sessions, baton := t.baton })) ∧
    (∀ (k : Fin 4) (p : Bytes), p.length = 97 →
      let key := K.secOfficerKey k
      let free := fun s => rd K.secState s ≠ 2 ∧ present s ∧ Tab.find k.val s.otp.officers = none ∧
        s.otp.officersRevoked.testBit k = false
      HostDoes (.secOfficerKeyWrite · k p) opWrite key p 2 true (fun _ s => free s)
        (otp (fun s => { s.otp with officers := Tab.set k p s.otp.officers })) ∧
      (k.val = 0 → HostDoes (.secOfficerKeyWrite · k p) opWrite key p 1 true
        (fun _ s => free s ∧ s.otp.officers = [] ∧ s.otp.officersRevoked = 0)
        (otp (fun s => { s.otp with officers := [(0, p)] }))) ∧
      HostRefuses (.secOfficerKeyWrite · k p) opWrite key p 2 true Code.state (fun _ s => ¬ free s)) ∧
    (∀ v : Byte,
      let named := fun (t : Tab Bytes) => v.toNat &&& heldMask t
      let leaves := fun (t : Tab Bytes) (off : Nat) => named t = 0 ∨ ∃ k, (heldMask t).testBit k = true ∧ (off ||| named t).testBit k = false
      HostDoes (.secOfficerRevoke · [v]) opWrite K.secOfficerRevoke [v] 2 true
        (fun _ s => rd K.secState s ≠ 2 ∧ leaves s.otp.officers s.otp.officersRevoked)
        (otp (fun s => { s.otp with officersRevoked := s.otp.officersRevoked ||| named s.otp.officers })) ∧
      HostRefuses (.secOfficerRevoke · [v]) opWrite K.secOfficerRevoke [v] 2 true Code.refused
        (fun _ s => rd K.secState s ≠ 2 ∧ ¬ leaves s.otp.officers s.otp.officersRevoked) ∧
      HostDoes (.secAnchorRevoke · [v]) opWrite K.secAnchorRevoke [v] 3 true
        (fun _ s => rd K.secState s ≠ 2 ∧ present s ∧ leaves s.otp.anchors s.otp.anchorsRevoked)
        (otp (fun s => { s.otp with anchorsRevoked := s.otp.anchorsRevoked ||| named s.otp.anchors })) ∧
      HostRefuses (.secAnchorRevoke · [v]) opWrite K.secAnchorRevoke [v] 3 true Code.refused
        (fun _ s => rd K.secState s ≠ 2 ∧ present s ∧ ¬ leaves s.otp.anchors s.otp.anchorsRevoked) ∧
      HostDoes (.secMinLevelSet · [v]) opWrite K.secMinLevelSet [v] 2 true
        (fun _ s => rd K.secState s ≠ 2 ∧ present s ∧ rd K.mcMinLevel s < v.toNat)
        (fun x s t => rd K.mcMinLevel t = v.toNat ∧ ObjsBut [K.mcMinLevel] s t ∧ HostFrame x s t ∧
          t = { s with objs := t.objs, otp := { s.otp with minLevel := v.toNat }, sessions := t.sessions, baton := t.baton }) ∧
      HostRefuses (.secMinLevelSet · [v]) opWrite K.secMinLevelSet [v] 2 true Code.range (fun _ s => v.toNat ≤ rd K.mcMinLevel s))) ∧
  (∀ (g : Fin 16) (page : Nat) (x : Fetch) (s : State), leader g s = g → x.kind = .sealedImage page →
      (grp g s).fetches.find? (fun x =>
        (match x.kind with | .sealedImage _ => true | _ => false) && x.todo.isEmpty && x.out == 0 && !x.bad) = some x →
      let h := readHead page s
      let k := keySlot h.slot s
      let sound := sealCause h s = 0
      Reaches (.sealedTagVerify g) s (fun t =>
        keySlot h.slot t = (if sound then { k with uses := min (2 ^ 32 - 1) (k.uses + 1) }
          else { k with fails := min (2 ^ 32 - 1) (k.fails + 1) }) ∧
        rd K.secSealErr t = (if sound then rd K.secSealErr s else sealCause h s) ∧
        (∀ i, i ≠ h.slot → keySlot i t = keySlot i s) ∧ t.sessions = s.sessions ∧ t.dram.mem = s.dram.mem))

/-- R396, R397, R409, R410, R411, R412: opening as an Officer, the diagnostic load, self-tests on demand, zeroisation, and the
certified-configuration mode. -/
def Obligations.SecurityModes : Prop :=
  let calm := fun (s : State) => ∀ g, g < 16 → liveSealed g s = false
  let erased := fun (keys : List Nat) (s t : State) =>
    t.sec.keks = [] ∧ (∀ i, keySlot i t = { keySlot i s with loaded := false, keyId := 0, key := [] }) ∧
    rd K.secKekState t = 0 ∧ t.sec.drbg = s.sec.drbg + 1 ∧ (∀ y ∈ t.sessions, y.role < 2) ∧
    (∀ y ∈ s.sessions, y.role < 2 → (∀ z ∈ s.sessions, z.id = y.id → z.role < 2) → y ∈ t.sessions) ∧
    ObjsBut (K.secKekState :: keys) s t
  (∀ (r : Req) (cred : Bytes) (s : State), portOpen r.port s = true → overhead r.v6 + 236 ≤ mtu r.port s → r.ver = 1 →
    r.session = 0 → cred.length = 232 → leAt 1 3 cred = 0 → leAt 229 3 cred = 0 → s.sessions.find? (sameOpen r s) = none →
    s.sessions.length < 8 → rd K.secState s = 1 → s.otp.dukOff = false →
    Reaches (.openSession r 2 0 cred) s (fun t => if credOk 2 r.seq cred s = true then
        (∃ y, t.sessions = s.sessions ++ [y] ∧ y.role = 2 ∧ y.port = r.port.val ∧ y.h = r.seq ∧ t.sec.drbg = s.sec.drbg + 1 ∧
          ∃ f, t.baton.answer = some f ∧ f.status = Code.ok ∧ f.session = y.id)
      else t = answered r opOpen 0 Code.auth [] { s with objs := t.objs } ∧ ObjsBut [K.secAuthFails] s t ∧
        rd K.secAuthFails t = min (2 ^ 32 - 1) (rd K.secAuthFails s + 1))) ∧
  HostDoes (.zeroiseVolatile ·) opWrite K.secZeroise [1] 2 true (fun _ s => rd K.secState s ≠ 2 ∧ calm s)
    (fun _ s t => erased [] s t ∧ t = { s with objs := t.objs, sec := t.sec, sessions := t.sessions, baton := t.baton }) ∧
  HostDoes (.zeroisePermanent ·) opWrite K.secZeroise [2] 2 true
    (fun _ s => rd K.secState s ≠ 2 ∧ rd K.pwrVqpsUv s ≠ 0 ∧ s.flt.active.contains 13 = false ∧ calm s)
    (fun _ s t => erased [K.secState] s t ∧ rd K.secState t = 3 ∧
      t = { s with
        objs := t.objs, sec := t.sec, otp := { s.otp with dukOff := true }, sessions := t.sessions, baton := t.baton }) ∧
  HostRefuses (.zeroisePermanent ·) opWrite K.secZeroise [2] 2 true Code.state
    (fun _ s => rd K.secState s ≠ 2 ∧ (rd K.pwrVqpsUv s = 0 ∨ s.flt.active.contains 13 = true)) ∧
  HostDoes (.secDiagLoad · [1]) opWrite K.secDiagLoad [1] 3 true
    (fun _ s => rd K.secState s ≠ 2 ∧ rd K.secCertMode s = 0 ∧ calm s)
    (fun _ s t => erased [K.secDiagLoad] s t ∧ rd K.secDiagLoad t = 1 ∧
      t = { s with
        objs := t.objs, sec := t.sec, patch := { s.patch with diagNext := true }, sessions := t.sessions, baton := t.baton }) ∧
  HostRefuses (.secDiagLoad · [1]) opWrite K.secDiagLoad [1] 3 true Code.state
    (fun _ s => rd K.secState s = 2 ∨ rd K.secCertMode s ≠ 0) ∧
  (∀ failing : Nat,
    HostDoes (.secSelftest · [1] failing) opWrite K.secSelftest [1] 2 true
      (fun _ s => failing = 0 ∧ rd K.secState s ≠ 2 ∧ calm s) (HostSets K.secSelftestResult 0) ∧
    HostDoes (.secSelftest · [1] failing) opWrite K.secSelftest [1] 2 true
      (fun _ s => 0 < failing ∧ failing < 256 ∧ rd K.secState s ≠ 2 ∧ calm s)
      (fun x s t => rd K.secState t = 2 ∧ rd K.secSelftestResult t = 2 ^ 31 + failing ∧ t.flt.sticky.testBit 20 = true ∧
        t.flt.pendF = true ∧ ObjsBut [K.secState, K.secSelftestResult, K.fltIntPending] s t ∧ HostFrame x s t ∧
        t = { s with
          objs := t.objs, flt := { s.flt with sticky := t.flt.sticky, pendF := true }
          sessions := t.sessions, baton := t.baton }) ∧
    HostRefuses (.secSelftest · [1] failing) opWrite K.secSelftest [1] 2 true Code.state
      (fun _ s => rd K.secState s = 2 ∨ ¬ calm s)) ∧
  (let fit := fun (s : State) => rd K.secState s = 1 ∧ (rd K.mcodeVersion s).testBit 0 = true ∧ rd K.secDiagLoad s = 0 ∧
     (∀ y ∈ s.sessions, y.role ≠ 3) ∧ s.sec.keks = [] ∧ (∀ e ∈ s.sec.slots, e.2.loaded = false) ∧
     ∀ g, g < 16 → busyState (runState g s) = false
   HostDoes (.certModeEnter ·) opWrite K.secCertMode [1] 2 true (fun x s => x.role = 2 ∧ fit s) (HostSets K.secCertMode 1) ∧
   HostRefuses (.certModeEnter ·) opWrite K.secCertMode [1] 2 true Code.state (fun x s => x.role = 2 ∧ ¬ fit s) ∧
   HostRefuses (.certModeEnter ·) opWrite K.secCertMode [1] 3 true Code.rights (fun x _ => x.role = 3) ∧
   HostRefuses (.certModeLeave ·) opWrite K.secCertMode [0] 3 true Code.rights (fun x _ => x.role = 3)) ∧
  HostDoes (.certModeLeave ·) opWrite K.secCertMode [0] 2 true (fun x s => x.role = 2 ∧ rd K.secCertMode s = 1 ∧ calm s)
    (fun _ s t => erased [K.secCertMode] s t ∧ rd K.secCertMode t = 0 ∧
      t = { s with objs := t.objs, sec := t.sec, sessions := t.sessions, baton := t.baton }) ∧
  HostDoes (.certModeLeave ·) opWrite K.secCertMode [0] 2 true (fun x s => x.role = 2 ∧ rd K.secCertMode s = 0) (HostObjs [])

/-- R403, R408, R411: what OTP holds is written once: an enrolled officer key and a revocation stand through every command,
as do the fuse of a permanent zeroisation and all that manufacture programmed. -/
def Obligations.OtpOnlyGrows : Prop :=
  ∀ (c : Instr) (s t : State), exec c s = .next t →
    (∀ k p, Tab.find k s.otp.officers = some p → Tab.find k t.otp.officers = some p) ∧
    (∀ i, s.otp.officersRevoked.testBit i = true → t.otp.officersRevoked.testBit i = true) ∧
    (∀ i, s.otp.anchorsRevoked.testBit i = true → t.otp.anchorsRevoked.testBit i = true) ∧
    (s.otp.dukOff = true → t.otp.dukOff = true) ∧
    t.otp = { s.otp with
      officers := t.otp.officers, officersRevoked := t.otp.officersRevoked, anchorsRevoked := t.otp.anchorsRevoked
      dukOff := t.otp.dukOff, minLevel := t.otp.minLevel }

/-! ### Reset and start-up (20) -/

/-- R419, R420, R421, R422, R428: a reset puts every volatile state at its default and restarts start-up; what lies outside
the chip or in OTP stays; the steps of start-up end and begin. -/
def Obligations.ResetsAndStartUp : Prop :=
  let levels := (List.range 8).map K.trigLevel
  let fresh := fun (step cause : Nat) (keys : List Nat) (s t : State) =>
    rd K.startStep t = step ∧ rd K.resetCause t = cause ∧
    (∀ k, k ∉ [K.startStep, K.resetCause] ++ keys ++ levels → ¬ (0xE00020 ≤ k ∧ k ≤ 0xE00027) → rd k t = objDefault k) ∧
    (∀ k, 0xE00020 ≤ k → k ≤ 0xE00027 → rd k t = rd k s) ∧ t.sessions = [] ∧ (∀ a, memByte a t = 0) ∧
    (∀ g, grp g t = {} ∧ seq g t = {} ∧ pe g t = { pm := (pe g s).pm, xm := (pe g s).xm, ym := (pe g s).ym } ∧ keySlot g t = {} ∧ tcb g t = {} ∧ rqueue g t = {} ∧ sysch g t = {}) ∧
    (∀ i, i < 8 → trig i t = { active := trigAfterReset i s }) ∧
    (∀ n, chan n t = { cmpH := (chan n s).cmpH, cmpL := (chan n s).cmpL }) ∧ t.sec = {} ∧ t.patch = {} ∧ t.flt = {} ∧
    t.rly = {} ∧ t.time = {} ∧ t.cal = {} ∧ t.jtx = {} ∧ t.jrx = {} ∧ t.starter = {} ∧ t.blobs = [] ∧
    t.otp = s.otp ∧ t.boot = { flash := s.boot.flash, bootsel := s.boot.bootsel, density := s.boot.density } ∧
    t.jtag = s.jtag ∧ t.pending = s.pending ∧ t.free = s.free
  (∀ s : State, Reaches .porstN s (fun t => fresh 1 0 [] s t ∧ t.baton = { answer := s.baton.answer })) ∧
  (∀ s : State, (rd K.startStep s ≠ 1 → Reaches .sysrstN s (fun t => fresh 3 1 [K.clkStatus] s t ∧
      rd K.clkStatus t = rd K.clkStatus s % 4 ∧ t.baton = { answer := s.baton.answer })) ∧
    (rd K.startStep s = 1 → exec .sysrstN s = .next s)) ∧
  HostDoes (.resetCmd · [1]) opWrite K.resetCmd [1] 1 false (fun _ _ => True)
    (fun _ s t => fresh 3 2 [K.clkStatus] s t ∧ rd K.clkStatus t = rd K.clkStatus s % 4) ∧
  (∀ v : Byte, v ≠ 1 → HostRefuses (.resetCmd · [v]) opWrite K.resetCmd [v] 1 false Code.range (fun _ _ => True)) ∧
  (∀ (ok : Bool) (failing : Nat) (s : State), (rd K.startFail s = 0 ∨ rd K.startFail s = 4) →
    (rd K.startStep s < 8 → s.flt.active.any holdsStart = false) →
    let c : Instr := .startUpStepEnd ok failing
    let step := rd K.startStep s
    let no := fun n => s.flt.active.contains n = false
    (step = 1 → ok = true → Reaches c s (fun t => rd K.startStep t = 2 ∧ OnlyObjs [K.startStep] s t)) ∧
    (step = 2 → ok = true → no 3 → no 4 → Reaches c s (fun t => rd K.startStep t = 3 ∧
      rd K.clkStatus t = rd K.clkStatus s ||| 3 ∧ OnlyObjs [K.startStep, K.clkStatus] s t)) ∧
    (step = 3 → ok = true → no 0 → no 1 → no 2 → Reaches c s (fun t => rd K.startStep t = 4 ∧
      rd K.clkStatus t = rd K.clkStatus s ||| 28 ∧ OnlyObjs [K.startStep, K.clkStatus] s t)) ∧
    (step = 4 → (ok = true → Reaches c s (fun t => rd K.startStep t = 5 ∧ rd K.mcMinLevel t = s.otp.minLevel ∧
        OnlyObjs [K.startStep, K.mcMinLevel] s t)) ∧
      (ok = false → Reaches c s (fun t => rd K.startFail t = 1 ∧ OnlyObjs [K.startFail] s t))) ∧
    (step = 5 → (ok = true → Reaches c s (fun t => rd K.startStep t = 6 ∧
        rd K.secState t = (if s.otp.dukOff = true then 3 else 1) ∧ ObjsBut [K.startStep, K.secState] s t ∧
        t = { s with objs := t.objs, boot := { s.boot with loader := false } })) ∧
      (ok = false → Reaches c s (fun t => ∃ u, t = raiseFault 20 u ∧ rd K.startFail u = 2 ∧ rd K.secState u = 2 ∧
        rd K.secSelftestResult u = 2 ^ 31 + failing % 256 ∧
        OnlyObjs [K.startFail, K.secState, K.secSelftestResult] s u))) ∧
    (step = 6 → ok = true → s.boot.loader = false →
      (s.boot.bootsel = true ∨ imageValid (flashImage 0 s) s = false ∧ imageValid (flashImage 1 s) s = false) →
      Reaches c s (fun t => rd K.bootSlot t = 2 ∧ rd K.idBootSource t = 1 ∧ ObjsBut [K.bootSlot, K.idBootSource] s t ∧
        t = { s with objs := t.objs, boot := { s.boot with loader := true } })) ∧
    (step = 7 → rd K.dramReady s = 1 → imageRecords s.boot.image = [] → (∀ x ∈ s.sessions, x.id ≠ 0) → Reaches c s (fun t =>
      rd K.startStep t = 8 ∧ OnlyObjs [K.startStep] s t)) ∧
    (step = 8 → rd K.startFail s = 0 → (∃ p, p < 4 ∧ rd (K.ethLink p) s = 1) → Reaches c s (fun t =>
      rd K.startStep t = 9 ∧ ObjsBut [K.startStep] s t ∧
      t = { s with objs := t.objs, cal := { s.cal with startAt := s.now } })) ∧
    (step = 9 → (∀ g, g < 16 → fenced g s = true ∨ groupConverged g s = true) → (∀ e, e < 16 → rd (K.peEnableAtBoot e) s ≠ 1) →
      Reaches c s (fun t => rd K.startStep t = 10 ∧ ObjsBut [K.startStep, K.startMs] s t ∧
        t = { s with objs := t.objs, free := s.free + 1 })) ∧
    (10 ≤ step → exec c s = .next s)) ∧
  (∀ (ok : Bool) (failing : Nat) (s : State),
    (rd K.startFail s ≠ 0 ∧ rd K.startFail s ≠ 4) ∨ (rd K.startStep s < 8 ∧ s.flt.active.any holdsStart = true) →
    exec (.startUpStepEnd ok failing) s = .next s) ∧
  (∀ (uv : BitVec 32) (s : State), Reaches (.vqpsPresenceChange uv.toNat) s (fun t =>
    rd K.pwrVqpsUv t = uv.toNat ∧ OnlyObjs [K.pwrVqpsUv] s t))

/-- R423, R425: in the loader a boot image is staged in blocks, and checked and booted; outside it neither is accepted. -/
def Obligations.LoaderBoots : Prop :=
  (∀ (offset : BitVec 64) (data : Bytes),
    let c : Req → Instr := fun r => .bootStageWrite r offset 0 data
    let p := blockPrefix offset.toNat 0 0 ++ data
    let fits := fun (x : Session) (s : State) => data ≠ [] ∧ data.length ≤ maxData x.port x.v6 x.auth s ∧
      offset.toNat + data.length ≤ 16777216
    HostDoes c opWriteBlock K.bootStage p 1 false (fun x s => fits x s ∧ s.boot.loader = true)
      (fun x s t => (∀ i, Tab.get 0 i t.boot.stage =
          if offset.toNat ≤ i ∧ i < offset.toNat + data.length then data.getD (i - offset.toNat) 0 else Tab.get 0 i s.boot.stage) ∧
        HostFrame x s t ∧
        t = { s with boot := { s.boot with stage := t.boot.stage }, sessions := t.sessions, baton := t.baton }) ∧
    HostRefuses c opWriteBlock K.bootStage p 1 false Code.state (fun x s => fits x s ∧ s.boot.loader = false)) ∧
  (∀ (r : Req) (x : Session) (s : State), Admitted r opWrite K.bootCmd [1] x s → indexExists K.bootCmd s = true → 1 ≤ x.role →
    x.role < 2 → s.boot.loader = true →
    let b := imageFrom 0 s.boot.stage
    Reaches (.bootCmd r [1]) s (fun t => Answers r opWrite Code.ok t ∧
      if imageValid b s = true then
        rd K.bootStatus t = 2 ∧ rd K.bootSlot t = 2 ∧ rd K.startStep t = 7 ∧ rd K.bootImgSeq t = leAt 8 4 b ∧ t.sessions = [] ∧
          t.boot.loader = false ∧ t.boot.image = b ∧ t.otp = s.otp
      else rd K.bootStatus t = 3 ∧ HostObjs [K.bootStatus] x s t)) ∧
  HostRefuses (.bootCmd · [1]) opWrite K.bootCmd [1] 1 false Code.state (fun _ s => s.boot.loader = false)

/-! ### JTAG (21) -/

/-- R439, R440, R441, R445: what each instruction captures and does: a boundary instruction owns the balls while start-up has
not reached step 8 or every group is in OFF or FENCED, and acts as BYPASS otherwise. -/
def Obligations.JtagInstructions : Prop :=
  ∀ s : State,
    let allowed := rd K.startStep s < 8 ∨ ∀ g, g < 16 → runState g s = 0 ∨ runState g s = 6
    let bypass := fun (code : BitVec 8) (t : State) => t = { s with jtag := { s.jtag with ir := code, acting := false, dr := 0 } }
    let cell := fun (t : State) (i : Nat) => t.jtag.dr.testBit i
    let captured := fun (t : State) => (∀ n, n < 264 → cell t (4 * n) = (chan n s).drv.level ∧
      cell t (4 * n + 1) = (chan n s).den.level ∧ cell t (4 * n + 2) = (chan n s).cmpH ∧ cell t (4 * n + 3) = (chan n s).cmpL) ∧
      (∀ i, i < 8 → cell t (1628 + i) = trigAfterReset i s ∧ cell t (1636 + i) = toutBall i s) ∧
      (∀ i, i < 4 → cell t (1644 + i) = !(fltin i s).active) ∧ cell t 1648 = !intN s ∧ cell t 1655 = s.boot.bootsel
    (∀ (cells : BitVec 1657) (code : BitVec 8), code ∈ [0x00, 0x03, 0x04] →
      let c : Instr := if code = 0 then .extest cells else if code = 3 then .extestPulse cells else .extestTrain cells
      (allowed → Reaches c s (fun t => captured t ∧ t = { s with free := s.free + 2, jtag := { s.jtag with
          ir := code, acting := true, boundary := cells, dr := t.jtag.dr, safeHold := s.jtag.safeHold || rd K.fltFatal s == 1 } } ∧
        ∀ n, n < 264 → ballDrv n t = cells.getLsbD (4 * n) ∧
          ballDen n t = (cells.getLsbD (4 * n + 1) && !t.jtag.safeHold))) ∧
      (¬ allowed → Reaches c s (bypass code))) ∧
    (∀ cells : BitVec 1657, Reaches (.samplePreload cells) s (fun t => captured t ∧
      t = { s with free := s.free + 2, jtag := { s.jtag with ir := 1, acting := false, boundary := cells, dr := t.jtag.dr } } ∧
      ∀ n, ballDrv n t = (chan n s).drv.level)) ∧
    Reaches .idcode s (fun t => t = { s with jtag := { s.jtag with ir := 2, acting := false, dr := t.jtag.dr } } ∧
      t.jtag.dr % 2 ^ 28 = 0x92565AB ∧ (s.otp.stepping / 16 = 0 → t.jtag.dr = 0x092565AB) ∧
      (s.otp.stepping / 16 = 1 → t.jtag.dr = 0x192565AB)) ∧
    (rd K.secCertMode s = 0 → (4 ≤ rd K.startStep s ∨ (rd K.startStep s = 3 ∧ rd K.resetCause s ≠ 0)) →
      Reaches .startStat s (fun t => t = { s with jtag := { s.jtag with
        ir := 0x38, acting := false
        dr := rd K.startStep s * 2 ^ 24 + rd K.startFail s * 2 ^ 16 + rd K.secState s * 2 ^ 8 } })) ∧
    (rd K.secCertMode s = 1 → Reaches .startStat s (bypass 0x38)) ∧
    (∀ code : BitVec 8, (4 < code.toNat ∧ code ≠ 0x38 → Reaches (.bypass code) s (bypass code)) ∧
      (code.toNat ≤ 4 ∨ code = 0x38 → exec (.bypass code) s = .next s)) ∧
    exec .tapReset s = .next { s with jtag := { s.jtag with ir := 2, acting := false, safeHold := false } }

/-! ### Calibration, faults and security complete (15, 16, 19) -/

/-- R329, R331, R332, R337, R344, R355, R402, R403, R405, R408, R409, R410, R411, R412: in every state in which the spec
has it happen, each of these commands completes with its own effect: a slot is measured, a reading is taken, a live
correction moves, a lag that lasts fails; a source is reported, a board input becomes active, a condition ends; a key is
imported, loaded or cleared, an officer enrolled or revoked, an anchor revoked, the patch level raised, a sealed tag
verified; the diagnostic load, the self-tests, the two zeroisations, and the certified-configuration mode. Whether a
wrapped key opens or a tag fits is the algorithms' (assumption log 3). -/
def Obligations.CalibrationFaultAndSecurityCommandsComplete : Prop :=
  (∀ (slot : Fin 264) (found : List (Option (Int × Nat))) (s : State), slot.val = s.cal.slot → 9 ≤ rd K.startStep s →
    Reaches (.calSlot slot found) s (fun t => t.cal.slot = (slot + 1) % 264 ∧ t.cal.slots = s.cal.slots + 1 ∧
      rd K.calRotations t = if slot.val = 263 then (rd K.calRotations s + 1) % 2 ^ 64 else rd K.calRotations s)) ∧
  (∀ (g : Fin 16) (v : Int) (s : State), -32768 ≤ v → v ≤ 32767 → 4 ≤ rd K.startStep s →
    Reaches (.tempReading g v) s (fun t => toSigned 16 (rd (K.thsTemp g) t) = v ∧
      toSigned 16 (rd (K.calGrpTemp g) t) = v ∧ t.cal.slot = s.cal.slot)) ∧
  (∀ (slot : Fin 264) (p : Fin 6) (s : State), p.val < pathsOf slot → calHeld slot s = false →
    targetOk (target slot p s) = true →
    let x := calPath slot p s
    let goal := target slot p s
    (jumps slot s = true → Reaches (.calMove slot p) s (fun t => (calPath slot p t).c = goal)) ∧
    (jumps slot s = false → goal ≠ x.c → atCycleStart slot s = true → pathQuiet slot p s = true → x.moved = none →
      Reaches (.calMove slot p) s (fun t => (calPath slot p t).moved = some s.now ∧
        (calPath slot p t).c = if x.c < goal then x.c + 1 else x.c - 1))) ∧
  (∀ (n : Fin 256) (p a : Nat) (s : State), p < pathsOf n → Tab.find (6 * n + p) s.cal.lagAt = some a →
    (∀ q b, q < pathsOf n → Tab.find (6 * n + q) s.cal.lagAt = some b → a ≤ b) → s.cal.lagging.contains n.val = false →
    n.val % 2 = 0 → fenced (n / 16) s = false → Reaches (.calStall n) s (fun t => rd (K.calGrpCause (n / 16)) t = 1 ∧
      t.cal.lagging = n.val :: s.cal.lagging ∧ t.now = max s.now (a + rd K.calStallMs s * 1600000 * 1024 + 1))) ∧
  (∀ (id : BitVec 9) (f : FaultSrc) (s : State), faultSrc id.toNat = some f →
    let n := id.toNat
    (20 < n → ¬ (192 ≤ n ∧ n ≤ 199) → 8 ≤ rd K.startStep s → faultClass n f s ≠ 0 → suppressed n s = false →
      s.flt.active.contains n = false → Reaches (.faultReport id) s (fun t => t.flt.sticky.testBit n = true ∧
        (rd K.fltIntPending t).testBit (faultClass n f s - 1) = true ∧ (f.level = true → t.flt.active = n :: s.flt.active))) ∧
    (17 < n → Reaches (.faultConditionEnd id) s (fun t => t.flt.active = s.flt.active.filter (· != n)))) ∧
  (∀ (i : Fin 4) (cycle : Nat) (s : State), (fltin i s).active = false → (fltin i s).ended = none →
    Reaches (.fltinActivation i cycle) s (fun t => (fltin i t).active = true ∧ rd (K.fltinLevel i) t = 1 ∧
      rd (K.fltinOverruns i) t = rd (K.fltinOverruns i) s)) ∧
  (let open_ := fun (s : State) => rd K.secState s ≠ 2
   let programs := fun (s : State) => rd K.pwrVqpsUv s ≠ 0 ∧ s.flt.active.contains 13 = false
   let quiet := fun (s : State) => ∀ g, g < 16 → liveSealed g s = false
   let tried := fun (k : Option Bytes) (s t : State) (post : Bytes → Prop) =>
     match k with
     | some key => post key
     | none => rd K.secAuthFails t = min (2 ^ 32 - 1) (rd K.secAuthFails s + 1) ∧ t.sec = s.sec
   let erases := fun (s t : State) => t.sec.keks = [] ∧ (∀ i, (keySlot i t).loaded = false ∧ (keySlot i t).key = []) ∧
     t.sec.drbg = s.sec.drbg + 1
   (∀ (k : Fin 4) (p : Bytes) (r : Req) (x : Session) (s : State), p.length = 145 → leAt 0 1 p = 1 →
     Admitted r opWrite (K.secKek k) p x s → indexExists (K.secKek k) s = true → 2 ≤ x.role → x.expert = true →
     rd K.secState s = 1 → Tab.find k.val s.sec.keks = none → Reaches (.secKekWrite r k p) s (fun t =>
       tried (Config.kekUnwrap s.otp.duk p) s t (fun key => Answers r opWrite Code.ok t ∧
         Tab.find k.val t.sec.keks = some (leAt 4 4 p, key)))) ∧
   (∀ (i : Fin 64) (p : Bytes) (r : Req) (x : Session) (s : State), p.length = 48 → leAt 0 1 p ≤ 3 →
     Admitted r opWrite (K.skLoad i) p x s → indexExists (K.skLoad i) s = true → 2 ≤ x.role → x.expert = true →
     open_ s → (keySlot i s).loaded = false → Tab.find (leAt 0 1 p) s.sec.keks ≠ none → Reaches (.skLoad r i p) s (fun t =>
       tried ((Tab.find (leAt 0 1 p) s.sec.keks).bind (fun y => Config.segKeyUnwrap y.2 (p.drop 8))) s t (fun key =>
         Answers r opWrite Code.ok t ∧ (keySlot i t).loaded = true ∧ (keySlot i t).keyId = leAt 4 4 p ∧ (keySlot i t).key = key))) ∧
   (∀ i : Fin 64, HostDoes (.skClear · i [1]) opWrite (K.skClear i) [1] 2 true (fun _ s => open_ s)
     (fun _ _ t => (keySlot i t).loaded = false ∧ (keySlot i t).key = [])) ∧
   (∀ (k : Fin 4) (p : Bytes), p.length = 97 → HostDoes (.secOfficerKeyWrite · k p) opWrite (K.secOfficerKey k) p 2 true
     (fun _ s => open_ s ∧ programs s ∧ Tab.find k.val s.otp.officers = none ∧ s.otp.officersRevoked.testBit k = false)
     (fun _ _ t => Tab.find k.val t.otp.officers = some p)) ∧
   (∀ v : Byte,
     let named := fun (l : Tab Bytes) => v.toNat &&& heldMask l
     HostDoes (.secOfficerRevoke · [v]) opWrite K.secOfficerRevoke [v] 2 true
       (fun _ s => open_ s ∧ ∃ k, (heldMask s.otp.officers).testBit k = true ∧
         (s.otp.officersRevoked ||| named s.otp.officers).testBit k = false)
       (fun _ s t => t.otp.officersRevoked = s.otp.officersRevoked ||| named s.otp.officers) ∧
     HostDoes (.secAnchorRevoke · [v]) opWrite K.secAnchorRevoke [v] 3 true
       (fun _ s => open_ s ∧ programs s ∧ ∃ k, (heldMask s.otp.anchors).testBit k = true ∧
         (s.otp.anchorsRevoked ||| named s.otp.anchors).testBit k = false)
       (fun _ s t => t.otp.anchorsRevoked = s.otp.anchorsRevoked ||| named s.otp.anchors) ∧
     HostDoes (.secMinLevelSet · [v]) opWrite K.secMinLevelSet [v] 2 true
       (fun _ s => open_ s ∧ programs s ∧ rd K.mcMinLevel s < v.toNat)
       (fun _ _ t => rd K.mcMinLevel t = v.toNat ∧ t.otp.minLevel = v.toNat)) ∧
   (∀ (g : Fin 16) (page : Nat) (x : Fetch) (s : State), leader g s = g → x.kind = .sealedImage page →
     (grp g s).fetches.find? (fun x =>
       (match x.kind with | .sealedImage _ => true | _ => false) && x.todo.isEmpty && x.out == 0 && !x.bad) = some x →
     let n := (readHead page s).slot
     let sound := sealCause (readHead page s) s = 0
     Reaches (.sealedTagVerify g) s (fun t =>
       (keySlot n t).uses = (if sound then min (2 ^ 32 - 1) ((keySlot n s).uses + 1) else (keySlot n s).uses) ∧
       (keySlot n t).fails = (if sound then (keySlot n s).fails else min (2 ^ 32 - 1) ((keySlot n s).fails + 1)))) ∧
   HostDoes (.secDiagLoad · [1]) opWrite K.secDiagLoad [1] 3 true (fun _ s => open_ s ∧ rd K.secCertMode s = 0 ∧ quiet s)
     (fun _ s t => rd K.secDiagLoad t = 1 ∧ t.patch.diagNext = true ∧ erases s t) ∧
   HostDoes (.secSelftest · [1] 0) opWrite K.secSelftest [1] 2 true (fun _ s => open_ s ∧ quiet s)
     (fun _ s t => rd K.secSelftestResult t = 0 ∧ rd K.secState t = rd K.secState s) ∧
   HostDoes (.zeroiseVolatile ·) opWrite K.secZeroise [1] 2 true (fun _ s => open_ s ∧ quiet s) (fun _ => erases) ∧
   HostDoes (.zeroisePermanent ·) opWrite K.secZeroise [2] 2 true (fun _ s => open_ s ∧ programs s ∧ quiet s)
     (fun _ s t => erases s t ∧ t.otp.dukOff = true ∧ rd K.secState t = 3) ∧
   HostDoes (.certModeEnter ·) opWrite K.secCertMode [1] 2 true (fun x s => x.role = 2 ∧ rd K.secState s = 1 ∧
       (rd K.mcodeVersion s).testBit 0 = true ∧ rd K.secDiagLoad s = 0 ∧ (∀ y ∈ s.sessions, y.role ≠ 3) ∧ s.sec.keks = [] ∧
       (∀ e ∈ s.sec.slots, e.2.loaded = false) ∧ ∀ g, g < 16 → busyState (runState g s) = false)
     (fun _ _ t => rd K.secCertMode t = 1) ∧
   HostDoes (.certModeLeave ·) opWrite K.secCertMode [0] 2 true (fun x s => x.role = 2 ∧ rd K.secCertMode s = 1 ∧ quiet s)
     (fun _ s t => rd K.secCertMode t = 0 ∧ erases s t))
end

