-- ==== Sys2Proof/Laws/Tables.lean ====
section
/-! SUPPORT. Laws of the sparse tables and of DRAM's bytes: a read after a write, and that every memory operation keeps
the canonical form. -/
namespace Sys2Proof.Machine

/-! ### Tables -/

/-- A read of the key just set gives the value set. -/
@[simp] theorem Tab.get_set_self {α : Type} (d v : α) (k : Nat) (t : Tab α) : Tab.get d k (Tab.set k v t) = v := by
  induction t with
  | nil => simp [Tab.set, Tab.get]
  | cons h t ih =>
    obtain ⟨j, w⟩ := h
    unfold Tab.set
    split
    · simp [Tab.get]
    · split
      · simp [Tab.get]
      · rename_i h1 h2
        simp [Tab.get, h2, ih]

/-- A read of another key gives what it gave before. -/
theorem Tab.get_set_of_ne {α : Type} {j k : Nat} (h : j ≠ k) (d v : α) (t : Tab α) :
    Tab.get d j (Tab.set k v t) = Tab.get d j t := by
  induction t with
  | nil => simp [Tab.set, Tab.get, Ne.symm h]
  | cons x t ih =>
    obtain ⟨i, w⟩ := x
    unfold Tab.set
    split
    · simp [Tab.get, Ne.symm h]
    · split
      · rename_i _ e; subst e; simp [Tab.get, Ne.symm h]
      · simp only [Tab.get, ih]

/-- A read after a set, whichever the key. -/
theorem Tab.get_set {α : Type} (j k : Nat) (d v : α) (t : Tab α) :
    Tab.get d j (Tab.set k v t) = if j = k then v else Tab.get d j t := by
  by_cases h : j = k
  · subst h; simp
  · simp [h, Tab.get_set_of_ne h]

/-- The key just set is listed. -/
@[simp] theorem Tab.find_set_self {α : Type} (v : α) (k : Nat) (t : Tab α) : Tab.find k (Tab.set k v t) = some v := by
  induction t with
  | nil => simp [Tab.set, Tab.find]
  | cons h t ih =>
    obtain ⟨j, w⟩ := h
    unfold Tab.set
    split
    · simp [Tab.find]
    · split
      · simp [Tab.find]
      · rename_i h1 h2
        simp [Tab.find, h2, ih]

/-- Another key is listed as before. -/
theorem Tab.find_set_of_ne {α : Type} {j k : Nat} (h : j ≠ k) (v : α) (t : Tab α) :
    Tab.find j (Tab.set k v t) = Tab.find j t := by
  induction t with
  | nil => simp [Tab.set, Tab.find, Ne.symm h]
  | cons x t ih =>
    obtain ⟨i, w⟩ := x
    unfold Tab.set
    split
    · simp [Tab.find, Ne.symm h]
    · split
      · rename_i _ e; subst e; simp [Tab.find, Ne.symm h]
      · simp only [Tab.find, ih]

/-- An erased key reads as the default. -/
@[simp] theorem Tab.get_erase_self {α : Type} (d : α) (k : Nat) (t : Tab α) : Tab.get d k (Tab.erase k t) = d := by
  induction t with
  | nil => simp [Tab.erase, Tab.get]
  | cons x t ih =>
    obtain ⟨j, w⟩ := x
    unfold Tab.erase at ih ⊢
    by_cases h : j = k
    · subst h; simpa [List.filter_cons] using ih
    · simp [h, Tab.get, ih]

/-- Another key reads as before an erasure. -/
theorem Tab.get_erase_of_ne {α : Type} {j k : Nat} (h : j ≠ k) (d : α) (t : Tab α) :
    Tab.get d j (Tab.erase k t) = Tab.get d j t := by
  induction t with
  | nil => simp [Tab.erase, Tab.get]
  | cons x t ih =>
    obtain ⟨i, w⟩ := x
    unfold Tab.erase at ih ⊢
    by_cases e : i = k
    · subst e; simpa [List.filter_cons, Tab.get, Ne.symm h] using ih
    · simp [e, Tab.get, ih]

/-- Setting keeps the rising order of keys. -/
theorem Tab.set_sorted {α : Type} (k : Nat) (v : α) (t : Tab α) (h : t.Pairwise (fun a b => a.1 < b.1)) :
    (Tab.set k v t).Pairwise (fun a b => a.1 < b.1) ∧ ∀ x ∈ Tab.set k v t, x = (k, v) ∨ x ∈ t := by
  induction t with
  | nil => simp [Tab.set]
  | cons x t ih =>
    obtain ⟨j, w⟩ := x
    obtain ⟨h1, h2⟩ := List.pairwise_cons.mp h
    obtain ⟨i1, i2⟩ := ih h2
    unfold Tab.set
    split
    · rename_i hk
      refine ⟨List.pairwise_cons.mpr ⟨?_, h⟩, ?_⟩
      · intro y hy
        rcases List.mem_cons.mp hy with rfl | hy
        · exact hk
        · exact Nat.lt_trans hk (h1 y hy)
      · intro y hy
        simpa using hy
    · split
      · rename_i _ e
        subst e
        refine ⟨List.pairwise_cons.mpr ⟨h1, h2⟩, ?_⟩
        intro y hy
        rcases List.mem_cons.mp hy with rfl | hy
        · exact .inl rfl
        · exact .inr (List.mem_cons_of_mem _ hy)
      · rename_i n1 n2
        refine ⟨List.pairwise_cons.mpr ⟨?_, i1⟩, ?_⟩
        · intro y hy
          rcases i2 y hy with rfl | hy
          · exact Nat.lt_of_le_of_ne (Nat.le_of_not_lt n1) n2
          · exact h1 y hy
        · intro y hy
          rcases List.mem_cons.mp hy with rfl | hy
          · exact .inr (List.mem_cons_self ..)
          · rcases i2 y hy with rfl | hy
            · exact .inl rfl
            · exact .inr (List.mem_cons_of_mem _ hy)

/-! ### DRAM bytes -/

/-- The byte just written reads back. -/
@[simp] theorem Mem.read_write_self (a : Nat) (v : Byte) (m : List Host.Cell) : Mem.read a (Mem.write a v m) = v := by
  unfold Mem.read Mem.write
  split
  · rename_i h; subst h; simp
  · simp

/-- Every other byte reads as before a write. -/
theorem Mem.read_write_of_ne {a b : Nat} (h : a ≠ b) (v : Byte) (m : List Host.Cell) :
    Mem.read a (Mem.write b v m) = Mem.read a m := by
  unfold Mem.read Mem.write
  split
  · exact Tab.get_erase_of_ne h _ _
  · exact Tab.get_set_of_ne h _ _ _

/-- A write keeps the canonical form. -/
theorem Mem.wf_write (a : Nat) (v : Byte) (m : List Host.Cell) (h : Mem.wf m) : Mem.wf (Mem.write a v m) := by
  obtain ⟨hs, hn⟩ := h
  unfold Mem.write
  split
  · exact ⟨hs.filter _, fun c hc => hn c (List.mem_filter.mp hc).1⟩
  · rename_i hv
    obtain ⟨h1, h2⟩ := Tab.set_sorted a v m hs
    refine ⟨h1, fun c hc => ?_⟩
    rcases h2 c hc with rfl | hc
    · exact hv
    · exact hn c hc

/-- A write of several bytes keeps the canonical form. -/
theorem Mem.wf_writeN (a : Nat) (l : Bytes) (m : List Host.Cell) (h : Mem.wf m) : Mem.wf (Mem.writeN a l m) := by
  induction l generalizing a m with
  | nil => exact h
  | cons b t ih => exact ih (a + 1) _ (Mem.wf_write a b m h)

/-- A byte outside those written reads as before. -/
theorem Mem.read_writeN_out (x a : Nat) (l : Bytes) (m : List Host.Cell) (h : x < a ∨ a + l.length ≤ x) :
    Mem.read x (Mem.writeN a l m) = Mem.read x m := by
  induction l generalizing a m with
  | nil => rfl
  | cons b t ih =>
    simp only [List.length_cons] at h
    rw [Mem.writeN, ih (a + 1) _ (by omega), Mem.read_write_of_ne (by omega)]

/-- A byte among those written reads as written. -/
theorem Mem.read_writeN_in (i a : Nat) (l : Bytes) (m : List Host.Cell) (h : i < l.length) :
    Mem.read (a + i) (Mem.writeN a l m) = l[i] := by
  induction l generalizing i a m with
  | nil => simp at h
  | cons b t ih =>
    cases i with
    | zero => rw [Mem.writeN, Nat.add_zero, Mem.read_writeN_out a (a + 1) t _ (by omega)]; simp
    | succ i =>
      have := ih i (a + 1) (Mem.write a b m) (by simpa using h)
      rw [Mem.writeN, show a + (i + 1) = a + 1 + i by omega, this]; simp

/-- The bytes just written read back as a string. -/
theorem Mem.readN_writeN (a : Nat) (l : Bytes) (m : List Host.Cell) : Mem.readN a l.length (Mem.writeN a l m) = l := by
  induction l generalizing a m with
  | nil => rfl
  | cons b t ih =>
    rw [List.length_cons, Mem.readN, Mem.writeN, Mem.read_writeN_out a (a + 1) t _ (by omega), ih]; simp

/-- Empty memory has the canonical form. -/
theorem Mem.wf_nil : Mem.wf [] := ⟨List.Pairwise.nil, fun _ h => by simp at h⟩

end Sys2Proof.Machine
end

