-- ==== Sys2Proof/Laws/Gate.lean ====
section
/-! SUPPORT. What the gate does with an admitted request, once for every command that a request carries. -/
namespace Sys2Proof.Laws
open Sys2Proof Sys2Proof.Machine

/-- The sessions as a request finds them: its own one has received it. -/
def touched (r : Req) (x : Session) (s : State) : State :=
  modSession x.id (fun y => { y with last := s.time.sys })
    (if x.auth then modSession x.id (takeCtr r.ctr.toNat) s else s)

/-- The gate executes an admitted request. -/
theorem request_admitted {r : Req} {op key : Nat} {p : Bytes} {x : Session} {s : State} (h : Admitted r op key p x s)
    (body : Body) : request r op key p body s = executeReq r op key p.length x body (touched r x s) := by
  obtain ⟨h1, h2, h3, h4, h5, h6, h7, h8, h9⟩ := h
  have h7' : ¬ (seqDiff r x < -63 ∨ 64 < seqDiff r x) := by omega
  have h9' : (if seqDiff r x ≤ 0 then recordOf r.seq x else none) = none := by
    rcases h9 with h9 | h9
    · rw [if_neg (by omega)]
    · rw [h9]; split <;> rfl
  simp only [request, h1, Nat.not_lt.mpr h2, h3, h4, h6, Bool.not_true, ne_eq, not_true_eq_false, ↓reduceIte,
    Bool.false_eq_true]
  rw [if_neg h7', h9']
  rfl

/-- A session carried through another change of what every request moves. -/
theorem carries_refl (x : Session) : Carries x x := rfl

theorem carries_trans {x y z : Session} (h : Carries x y) (g : Carries y z) : Carries x z := by
  unfold Carries at *; rw [g, h]

theorem find_mapped {f : Session → Session} (hf : ∀ y, (f y).id = y.id) (i j : BitVec 16) :
    ∀ l : List Session, (l.map (fun x => if x.id == i then f x else x)).find? (fun x => x.id == j) =
      (l.find? (fun x => x.id == j)).map (fun x => if x.id == i then f x else x)
  | [] => rfl
  | a :: t => by
    have hid : (if a.id == i then f a else a).id = a.id := by split <;> simp [hf]
    rw [List.map_cons, List.find?_cons, List.find?_cons, hid, find_mapped hf i j t]
    cases a.id == j <;> rfl

theorem session_modSession_self {i : BitVec 16} {f : Session → Session} {s : State}
    (hf : ∀ y, (f y).id = y.id) : session i (modSession i f s) = (session i s).map f := by
  unfold session modSession
  rw [find_mapped hf]
  cases h : s.sessions.find? (fun x => x.id == i) with
  | none => rfl
  | some y =>
    have := List.find?_some h
    simp only [Option.map_some, this, if_true]

theorem session_modSession_ne {i j : BitVec 16} {f : Session → Session} {s : State} (hf : ∀ y, (f y).id = y.id)
    (h : j ≠ i) : session j (modSession i f s) = session j s := by
  unfold session modSession
  rw [find_mapped hf]
  cases hs : s.sessions.find? (fun x => x.id == j) with
  | none => rfl
  | some y =>
    have hy : y.id = j := by simpa using List.find?_some hs
    simp [hy, h]

/-- The frame of a request over a state transformer that changes one session in what every request moves. -/
theorem hostFrame_modSession {x : Session} {f : Session → Session} {s t : State} (hf : ∀ y, Carries y (f y))
    (h : HostFrame x s t) : HostFrame x s (modSession x.id f t) := by
  have hid : ∀ y, (f y).id = y.id := fun y => by rw [hf y]
  obtain ⟨hb, ho, y, hy, hc⟩ := h
  refine ⟨hb, fun i hi => (session_modSession_ne hid hi).trans (ho i hi), f y, ?_, carries_trans hc (hf y)⟩
  rw [session_modSession_self hid, hy]; rfl

/-- The frame of a request over the sending of its answer. -/
theorem hostFrame_answerPlain {x : Session} {r : Req} {op key st : Nat} {d : Bytes} {s t : State} (h : HostFrame x s t) :
    HostFrame x s (answerPlain r op key st d t) := by
  obtain ⟨hb, ho, hy⟩ := h
  exact ⟨by simp only [answerPlain]; rw [hb], ho, hy⟩

/-- The session of an admitted request as its body finds it. -/
theorem hostFrame_touched {r : Req} {x : Session} {s : State} (h : session x.id s = some x) :
    HostFrame x s (touched r x s) := by
  have h0 : HostFrame x s s := ⟨rfl, fun _ _ => rfl, x, h, rfl⟩
  unfold touched
  apply hostFrame_modSession (f := fun y => { y with last := s.time.sys }) (fun y => rfl)
  split
  · exact hostFrame_modSession (f := takeCtr r.ctr.toNat) (fun y => rfl) h0
  · exact h0

/-- What an executed request leaves, over what its body leaves. -/
theorem executeReq_frame {r : Req} {op key len : Nat} {x : Session} {body : Body} {s u : State} {st : Nat} {d : Bytes}
    (hb : body x s = ⟨st, d, u⟩) (hn : st ≠ Code.busy) :
    let t := executeReq r op key len x body s
    Answers r op st t ∧ t = { u with sessions := t.sessions, baton := t.baton } ∧
      ∀ s0, HostFrame x s0 u → HostFrame x s0 t := by
  simp only [executeReq, hb, hn, if_false]
  have hid : ∀ y, Carries y (record r op key len st d y) := fun y => rfl
  refine ⟨?_, ?_, ?_⟩
  · simp only [answer]; split <;> exact ⟨_, rfl, rfl, rfl, rfl, rfl⟩
  · simp only [answer]; split <;> rfl
  · intro s0 h
    have h1 := hostFrame_modSession (f := record r op key len st d) hid h
    simp only [answer]
    split
    · exact hostFrame_answerPlain (hostFrame_modSession (f := fun y => { y with ctrTx := y.ctrTx + 1 }) (fun y => rfl) h1)
    · exact hostFrame_answerPlain h1

end Sys2Proof.Laws
end

