-- ==== Sys2Proof/Laws/State.lean ====
section
/-! SUPPORT. Laws of State: what each named update leaves as it was, one lemma for each accessor, and what the updated
instance reads as. Later proofs cite these and unfold no record update. -/
namespace Sys2Proof.Machine
variable (s : State)

/-! ### An update of one kind leaves every other kind as it was -/

@[simp] theorem blob_wr (d : Bytes) (j : Nat) (k v : Nat) : blob d j (wr k v s) = blob d j s := rfl
@[simp] theorem grp_wr (j : Nat) (k v : Nat) : grp j (wr k v s) = grp j s := rfl
@[simp] theorem chan_wr (j : Nat) (k v : Nat) : chan j (wr k v s) = chan j s := rfl
@[simp] theorem sysch_wr (j : Nat) (k v : Nat) : sysch j (wr k v s) = sysch j s := rfl
@[simp] theorem seq_wr (j : Nat) (k v : Nat) : seq j (wr k v s) = seq j s := rfl
@[simp] theorem trig_wr (j : Nat) (k v : Nat) : trig j (wr k v s) = trig j s := rfl
@[simp] theorem tout_wr (j : Nat) (k v : Nat) : tout j (wr k v s) = tout j s := rfl
@[simp] theorem pe_wr (j : Nat) (k v : Nat) : pe j (wr k v s) = pe j s := rfl
@[simp] theorem tcb_wr (j : Nat) (k v : Nat) : tcb j (wr k v s) = tcb j s := rfl
@[simp] theorem rqueue_wr (j : Nat) (k v : Nat) : rqueue j (wr k v s) = rqueue j s := rfl
@[simp] theorem timer_wr (j : Nat) (k v : Nat) : timer j (wr k v s) = timer j s := rfl
@[simp] theorem ptp_wr (j : Nat) (k v : Nat) : ptp j (wr k v s) = ptp j s := rfl
@[simp] theorem fltin_wr (j : Nat) (k v : Nat) : fltin j (wr k v s) = fltin j s := rfl
@[simp] theorem keySlot_wr (j : Nat) (k v : Nat) : keySlot j (wr k v s) = keySlot j s := rfl
@[simp] theorem tset_wr (m j : Nat) (k v : Nat) : tset m j (wr k v s) = tset m j s := rfl
@[simp] theorem tsPeriodOf_wr (h j : Nat) (k v : Nat) : tsPeriodOf h j (wr k v s) = tsPeriodOf h j s := rfl
@[simp] theorem session_wr (x : BitVec 16) (k v : Nat) : session x (wr k v s) = session x s := rfl
@[simp] theorem memByte_wr (a : Nat) (k v : Nat) : memByte a (wr k v s) = memByte a s := rfl
@[simp] theorem now_wr (k v : Nat) : State.now (wr k v s) = State.now s := rfl
@[simp] theorem free_wr (k v : Nat) : State.free (wr k v s) = State.free s := rfl
@[simp] theorem pending_wr (k v : Nat) : State.pending (wr k v s) = State.pending s := rfl

@[simp] theorem rd_modGrp (j : Nat) (k : Nat) (f : Grp → Grp) : rd j (modGrp k f s) = rd j s := rfl
@[simp] theorem blob_modGrp (d : Bytes) (j : Nat) (k : Nat) (f : Grp → Grp) : blob d j (modGrp k f s) = blob d j s := rfl
@[simp] theorem chan_modGrp (j : Nat) (k : Nat) (f : Grp → Grp) : chan j (modGrp k f s) = chan j s := rfl
@[simp] theorem sysch_modGrp (j : Nat) (k : Nat) (f : Grp → Grp) : sysch j (modGrp k f s) = sysch j s := rfl
@[simp] theorem seq_modGrp (j : Nat) (k : Nat) (f : Grp → Grp) : seq j (modGrp k f s) = seq j s := rfl
@[simp] theorem trig_modGrp (j : Nat) (k : Nat) (f : Grp → Grp) : trig j (modGrp k f s) = trig j s := rfl
@[simp] theorem tout_modGrp (j : Nat) (k : Nat) (f : Grp → Grp) : tout j (modGrp k f s) = tout j s := rfl
@[simp] theorem pe_modGrp (j : Nat) (k : Nat) (f : Grp → Grp) : pe j (modGrp k f s) = pe j s := rfl
@[simp] theorem tcb_modGrp (j : Nat) (k : Nat) (f : Grp → Grp) : tcb j (modGrp k f s) = tcb j s := rfl
@[simp] theorem rqueue_modGrp (j : Nat) (k : Nat) (f : Grp → Grp) : rqueue j (modGrp k f s) = rqueue j s := rfl
@[simp] theorem timer_modGrp (j : Nat) (k : Nat) (f : Grp → Grp) : timer j (modGrp k f s) = timer j s := rfl
@[simp] theorem ptp_modGrp (j : Nat) (k : Nat) (f : Grp → Grp) : ptp j (modGrp k f s) = ptp j s := rfl
@[simp] theorem fltin_modGrp (j : Nat) (k : Nat) (f : Grp → Grp) : fltin j (modGrp k f s) = fltin j s := rfl
@[simp] theorem keySlot_modGrp (j : Nat) (k : Nat) (f : Grp → Grp) : keySlot j (modGrp k f s) = keySlot j s := rfl
@[simp] theorem tset_modGrp (m j : Nat) (k : Nat) (f : Grp → Grp) : tset m j (modGrp k f s) = tset m j s := rfl
@[simp] theorem tsPeriodOf_modGrp (h j : Nat) (k : Nat) (f : Grp → Grp) : tsPeriodOf h j (modGrp k f s) = tsPeriodOf h j s := rfl
@[simp] theorem session_modGrp (x : BitVec 16) (k : Nat) (f : Grp → Grp) : session x (modGrp k f s) = session x s := rfl
@[simp] theorem memByte_modGrp (a : Nat) (k : Nat) (f : Grp → Grp) : memByte a (modGrp k f s) = memByte a s := rfl
@[simp] theorem now_modGrp (k : Nat) (f : Grp → Grp) : State.now (modGrp k f s) = State.now s := rfl
@[simp] theorem free_modGrp (k : Nat) (f : Grp → Grp) : State.free (modGrp k f s) = State.free s := rfl
@[simp] theorem pending_modGrp (k : Nat) (f : Grp → Grp) : State.pending (modGrp k f s) = State.pending s := rfl

@[simp] theorem rd_modChan (j : Nat) (k : Nat) (f : Chan → Chan) : rd j (modChan k f s) = rd j s := rfl
@[simp] theorem blob_modChan (d : Bytes) (j : Nat) (k : Nat) (f : Chan → Chan) : blob d j (modChan k f s) = blob d j s := rfl
@[simp] theorem grp_modChan (j : Nat) (k : Nat) (f : Chan → Chan) : grp j (modChan k f s) = grp j s := rfl
@[simp] theorem sysch_modChan (j : Nat) (k : Nat) (f : Chan → Chan) : sysch j (modChan k f s) = sysch j s := rfl
@[simp] theorem seq_modChan (j : Nat) (k : Nat) (f : Chan → Chan) : seq j (modChan k f s) = seq j s := rfl
@[simp] theorem trig_modChan (j : Nat) (k : Nat) (f : Chan → Chan) : trig j (modChan k f s) = trig j s := rfl
@[simp] theorem tout_modChan (j : Nat) (k : Nat) (f : Chan → Chan) : tout j (modChan k f s) = tout j s := rfl
@[simp] theorem pe_modChan (j : Nat) (k : Nat) (f : Chan → Chan) : pe j (modChan k f s) = pe j s := rfl
@[simp] theorem tcb_modChan (j : Nat) (k : Nat) (f : Chan → Chan) : tcb j (modChan k f s) = tcb j s := rfl
@[simp] theorem rqueue_modChan (j : Nat) (k : Nat) (f : Chan → Chan) : rqueue j (modChan k f s) = rqueue j s := rfl
@[simp] theorem timer_modChan (j : Nat) (k : Nat) (f : Chan → Chan) : timer j (modChan k f s) = timer j s := rfl
@[simp] theorem ptp_modChan (j : Nat) (k : Nat) (f : Chan → Chan) : ptp j (modChan k f s) = ptp j s := rfl
@[simp] theorem fltin_modChan (j : Nat) (k : Nat) (f : Chan → Chan) : fltin j (modChan k f s) = fltin j s := rfl
@[simp] theorem keySlot_modChan (j : Nat) (k : Nat) (f : Chan → Chan) : keySlot j (modChan k f s) = keySlot j s := rfl
@[simp] theorem tset_modChan (m j : Nat) (k : Nat) (f : Chan → Chan) : tset m j (modChan k f s) = tset m j s := rfl
@[simp] theorem tsPeriodOf_modChan (h j : Nat) (k : Nat) (f : Chan → Chan) : tsPeriodOf h j (modChan k f s) = tsPeriodOf h j s := rfl
@[simp] theorem session_modChan (x : BitVec 16) (k : Nat) (f : Chan → Chan) : session x (modChan k f s) = session x s := rfl
@[simp] theorem memByte_modChan (a : Nat) (k : Nat) (f : Chan → Chan) : memByte a (modChan k f s) = memByte a s := rfl
@[simp] theorem now_modChan (k : Nat) (f : Chan → Chan) : State.now (modChan k f s) = State.now s := rfl
@[simp] theorem free_modChan (k : Nat) (f : Chan → Chan) : State.free (modChan k f s) = State.free s := rfl
@[simp] theorem pending_modChan (k : Nat) (f : Chan → Chan) : State.pending (modChan k f s) = State.pending s := rfl

@[simp] theorem rd_modSysch (j : Nat) (k : Nat) (f : SysChain → SysChain) : rd j (modSysch k f s) = rd j s := rfl
@[simp] theorem blob_modSysch (d : Bytes) (j : Nat) (k : Nat) (f : SysChain → SysChain) : blob d j (modSysch k f s) = blob d j s := rfl
@[simp] theorem grp_modSysch (j : Nat) (k : Nat) (f : SysChain → SysChain) : grp j (modSysch k f s) = grp j s := rfl
@[simp] theorem chan_modSysch (j : Nat) (k : Nat) (f : SysChain → SysChain) : chan j (modSysch k f s) = chan j s := rfl
@[simp] theorem seq_modSysch (j : Nat) (k : Nat) (f : SysChain → SysChain) : seq j (modSysch k f s) = seq j s := rfl
@[simp] theorem trig_modSysch (j : Nat) (k : Nat) (f : SysChain → SysChain) : trig j (modSysch k f s) = trig j s := rfl
@[simp] theorem tout_modSysch (j : Nat) (k : Nat) (f : SysChain → SysChain) : tout j (modSysch k f s) = tout j s := rfl
@[simp] theorem pe_modSysch (j : Nat) (k : Nat) (f : SysChain → SysChain) : pe j (modSysch k f s) = pe j s := rfl
@[simp] theorem tcb_modSysch (j : Nat) (k : Nat) (f : SysChain → SysChain) : tcb j (modSysch k f s) = tcb j s := rfl
@[simp] theorem rqueue_modSysch (j : Nat) (k : Nat) (f : SysChain → SysChain) : rqueue j (modSysch k f s) = rqueue j s := rfl
@[simp] theorem timer_modSysch (j : Nat) (k : Nat) (f : SysChain → SysChain) : timer j (modSysch k f s) = timer j s := rfl
@[simp] theorem ptp_modSysch (j : Nat) (k : Nat) (f : SysChain → SysChain) : ptp j (modSysch k f s) = ptp j s := rfl
@[simp] theorem fltin_modSysch (j : Nat) (k : Nat) (f : SysChain → SysChain) : fltin j (modSysch k f s) = fltin j s := rfl
@[simp] theorem keySlot_modSysch (j : Nat) (k : Nat) (f : SysChain → SysChain) : keySlot j (modSysch k f s) = keySlot j s := rfl
@[simp] theorem tset_modSysch (m j : Nat) (k : Nat) (f : SysChain → SysChain) : tset m j (modSysch k f s) = tset m j s := rfl
@[simp] theorem tsPeriodOf_modSysch (h j : Nat) (k : Nat) (f : SysChain → SysChain) : tsPeriodOf h j (modSysch k f s) = tsPeriodOf h j s := rfl
@[simp] theorem session_modSysch (x : BitVec 16) (k : Nat) (f : SysChain → SysChain) : session x (modSysch k f s) = session x s := rfl
@[simp] theorem memByte_modSysch (a : Nat) (k : Nat) (f : SysChain → SysChain) : memByte a (modSysch k f s) = memByte a s := rfl
@[simp] theorem now_modSysch (k : Nat) (f : SysChain → SysChain) : State.now (modSysch k f s) = State.now s := rfl
@[simp] theorem free_modSysch (k : Nat) (f : SysChain → SysChain) : State.free (modSysch k f s) = State.free s := rfl
@[simp] theorem pending_modSysch (k : Nat) (f : SysChain → SysChain) : State.pending (modSysch k f s) = State.pending s := rfl

@[simp] theorem rd_modSeq (j : Nat) (k : Nat) (f : Seq → Seq) : rd j (modSeq k f s) = rd j s := rfl
@[simp] theorem blob_modSeq (d : Bytes) (j : Nat) (k : Nat) (f : Seq → Seq) : blob d j (modSeq k f s) = blob d j s := rfl
@[simp] theorem grp_modSeq (j : Nat) (k : Nat) (f : Seq → Seq) : grp j (modSeq k f s) = grp j s := rfl
@[simp] theorem chan_modSeq (j : Nat) (k : Nat) (f : Seq → Seq) : chan j (modSeq k f s) = chan j s := rfl
@[simp] theorem sysch_modSeq (j : Nat) (k : Nat) (f : Seq → Seq) : sysch j (modSeq k f s) = sysch j s := rfl
@[simp] theorem trig_modSeq (j : Nat) (k : Nat) (f : Seq → Seq) : trig j (modSeq k f s) = trig j s := rfl
@[simp] theorem tout_modSeq (j : Nat) (k : Nat) (f : Seq → Seq) : tout j (modSeq k f s) = tout j s := rfl
@[simp] theorem pe_modSeq (j : Nat) (k : Nat) (f : Seq → Seq) : pe j (modSeq k f s) = pe j s := rfl
@[simp] theorem tcb_modSeq (j : Nat) (k : Nat) (f : Seq → Seq) : tcb j (modSeq k f s) = tcb j s := rfl
@[simp] theorem rqueue_modSeq (j : Nat) (k : Nat) (f : Seq → Seq) : rqueue j (modSeq k f s) = rqueue j s := rfl
@[simp] theorem timer_modSeq (j : Nat) (k : Nat) (f : Seq → Seq) : timer j (modSeq k f s) = timer j s := rfl
@[simp] theorem ptp_modSeq (j : Nat) (k : Nat) (f : Seq → Seq) : ptp j (modSeq k f s) = ptp j s := rfl
@[simp] theorem fltin_modSeq (j : Nat) (k : Nat) (f : Seq → Seq) : fltin j (modSeq k f s) = fltin j s := rfl
@[simp] theorem keySlot_modSeq (j : Nat) (k : Nat) (f : Seq → Seq) : keySlot j (modSeq k f s) = keySlot j s := rfl
@[simp] theorem tset_modSeq (m j : Nat) (k : Nat) (f : Seq → Seq) : tset m j (modSeq k f s) = tset m j s := rfl
@[simp] theorem tsPeriodOf_modSeq (h j : Nat) (k : Nat) (f : Seq → Seq) : tsPeriodOf h j (modSeq k f s) = tsPeriodOf h j s := rfl
@[simp] theorem session_modSeq (x : BitVec 16) (k : Nat) (f : Seq → Seq) : session x (modSeq k f s) = session x s := rfl
@[simp] theorem memByte_modSeq (a : Nat) (k : Nat) (f : Seq → Seq) : memByte a (modSeq k f s) = memByte a s := rfl
@[simp] theorem now_modSeq (k : Nat) (f : Seq → Seq) : State.now (modSeq k f s) = State.now s := rfl
@[simp] theorem free_modSeq (k : Nat) (f : Seq → Seq) : State.free (modSeq k f s) = State.free s := rfl
@[simp] theorem pending_modSeq (k : Nat) (f : Seq → Seq) : State.pending (modSeq k f s) = State.pending s := rfl

@[simp] theorem rd_modTrig (j : Nat) (k : Nat) (f : Trig → Trig) : rd j (modTrig k f s) = rd j s := rfl
@[simp] theorem blob_modTrig (d : Bytes) (j : Nat) (k : Nat) (f : Trig → Trig) : blob d j (modTrig k f s) = blob d j s := rfl
@[simp] theorem grp_modTrig (j : Nat) (k : Nat) (f : Trig → Trig) : grp j (modTrig k f s) = grp j s := rfl
@[simp] theorem chan_modTrig (j : Nat) (k : Nat) (f : Trig → Trig) : chan j (modTrig k f s) = chan j s := rfl
@[simp] theorem sysch_modTrig (j : Nat) (k : Nat) (f : Trig → Trig) : sysch j (modTrig k f s) = sysch j s := rfl
@[simp] theorem seq_modTrig (j : Nat) (k : Nat) (f : Trig → Trig) : seq j (modTrig k f s) = seq j s := rfl
@[simp] theorem tout_modTrig (j : Nat) (k : Nat) (f : Trig → Trig) : tout j (modTrig k f s) = tout j s := rfl
@[simp] theorem pe_modTrig (j : Nat) (k : Nat) (f : Trig → Trig) : pe j (modTrig k f s) = pe j s := rfl
@[simp] theorem tcb_modTrig (j : Nat) (k : Nat) (f : Trig → Trig) : tcb j (modTrig k f s) = tcb j s := rfl
@[simp] theorem rqueue_modTrig (j : Nat) (k : Nat) (f : Trig → Trig) : rqueue j (modTrig k f s) = rqueue j s := rfl
@[simp] theorem timer_modTrig (j : Nat) (k : Nat) (f : Trig → Trig) : timer j (modTrig k f s) = timer j s := rfl
@[simp] theorem ptp_modTrig (j : Nat) (k : Nat) (f : Trig → Trig) : ptp j (modTrig k f s) = ptp j s := rfl
@[simp] theorem fltin_modTrig (j : Nat) (k : Nat) (f : Trig → Trig) : fltin j (modTrig k f s) = fltin j s := rfl
@[simp] theorem keySlot_modTrig (j : Nat) (k : Nat) (f : Trig → Trig) : keySlot j (modTrig k f s) = keySlot j s := rfl
@[simp] theorem tset_modTrig (m j : Nat) (k : Nat) (f : Trig → Trig) : tset m j (modTrig k f s) = tset m j s := rfl
@[simp] theorem tsPeriodOf_modTrig (h j : Nat) (k : Nat) (f : Trig → Trig) : tsPeriodOf h j (modTrig k f s) = tsPeriodOf h j s := rfl
@[simp] theorem session_modTrig (x : BitVec 16) (k : Nat) (f : Trig → Trig) : session x (modTrig k f s) = session x s := rfl
@[simp] theorem memByte_modTrig (a : Nat) (k : Nat) (f : Trig → Trig) : memByte a (modTrig k f s) = memByte a s := rfl
@[simp] theorem now_modTrig (k : Nat) (f : Trig → Trig) : State.now (modTrig k f s) = State.now s := rfl
@[simp] theorem free_modTrig (k : Nat) (f : Trig → Trig) : State.free (modTrig k f s) = State.free s := rfl
@[simp] theorem pending_modTrig (k : Nat) (f : Trig → Trig) : State.pending (modTrig k f s) = State.pending s := rfl

@[simp] theorem rd_modTout (j : Nat) (k : Nat) (f : Tout → Tout) : rd j (modTout k f s) = rd j s := rfl
@[simp] theorem blob_modTout (d : Bytes) (j : Nat) (k : Nat) (f : Tout → Tout) : blob d j (modTout k f s) = blob d j s := rfl
@[simp] theorem grp_modTout (j : Nat) (k : Nat) (f : Tout → Tout) : grp j (modTout k f s) = grp j s := rfl
@[simp] theorem chan_modTout (j : Nat) (k : Nat) (f : Tout → Tout) : chan j (modTout k f s) = chan j s := rfl
@[simp] theorem sysch_modTout (j : Nat) (k : Nat) (f : Tout → Tout) : sysch j (modTout k f s) = sysch j s := rfl
@[simp] theorem seq_modTout (j : Nat) (k : Nat) (f : Tout → Tout) : seq j (modTout k f s) = seq j s := rfl
@[simp] theorem trig_modTout (j : Nat) (k : Nat) (f : Tout → Tout) : trig j (modTout k f s) = trig j s := rfl
@[simp] theorem pe_modTout (j : Nat) (k : Nat) (f : Tout → Tout) : pe j (modTout k f s) = pe j s := rfl
@[simp] theorem tcb_modTout (j : Nat) (k : Nat) (f : Tout → Tout) : tcb j (modTout k f s) = tcb j s := rfl
@[simp] theorem rqueue_modTout (j : Nat) (k : Nat) (f : Tout → Tout) : rqueue j (modTout k f s) = rqueue j s := rfl
@[simp] theorem timer_modTout (j : Nat) (k : Nat) (f : Tout → Tout) : timer j (modTout k f s) = timer j s := rfl
@[simp] theorem ptp_modTout (j : Nat) (k : Nat) (f : Tout → Tout) : ptp j (modTout k f s) = ptp j s := rfl
@[simp] theorem fltin_modTout (j : Nat) (k : Nat) (f : Tout → Tout) : fltin j (modTout k f s) = fltin j s := rfl
@[simp] theorem keySlot_modTout (j : Nat) (k : Nat) (f : Tout → Tout) : keySlot j (modTout k f s) = keySlot j s := rfl
@[simp] theorem tset_modTout (m j : Nat) (k : Nat) (f : Tout → Tout) : tset m j (modTout k f s) = tset m j s := rfl
@[simp] theorem tsPeriodOf_modTout (h j : Nat) (k : Nat) (f : Tout → Tout) : tsPeriodOf h j (modTout k f s) = tsPeriodOf h j s := rfl
@[simp] theorem session_modTout (x : BitVec 16) (k : Nat) (f : Tout → Tout) : session x (modTout k f s) = session x s := rfl
@[simp] theorem memByte_modTout (a : Nat) (k : Nat) (f : Tout → Tout) : memByte a (modTout k f s) = memByte a s := rfl
@[simp] theorem now_modTout (k : Nat) (f : Tout → Tout) : State.now (modTout k f s) = State.now s := rfl
@[simp] theorem free_modTout (k : Nat) (f : Tout → Tout) : State.free (modTout k f s) = State.free s := rfl
@[simp] theorem pending_modTout (k : Nat) (f : Tout → Tout) : State.pending (modTout k f s) = State.pending s := rfl

@[simp] theorem rd_modPe (j : Nat) (k : Nat) (f : Pe → Pe) : rd j (modPe k f s) = rd j s := rfl
@[simp] theorem blob_modPe (d : Bytes) (j : Nat) (k : Nat) (f : Pe → Pe) : blob d j (modPe k f s) = blob d j s := rfl
@[simp] theorem grp_modPe (j : Nat) (k : Nat) (f : Pe → Pe) : grp j (modPe k f s) = grp j s := rfl
@[simp] theorem chan_modPe (j : Nat) (k : Nat) (f : Pe → Pe) : chan j (modPe k f s) = chan j s := rfl
@[simp] theorem sysch_modPe (j : Nat) (k : Nat) (f : Pe → Pe) : sysch j (modPe k f s) = sysch j s := rfl
@[simp] theorem seq_modPe (j : Nat) (k : Nat) (f : Pe → Pe) : seq j (modPe k f s) = seq j s := rfl
@[simp] theorem trig_modPe (j : Nat) (k : Nat) (f : Pe → Pe) : trig j (modPe k f s) = trig j s := rfl
@[simp] theorem tout_modPe (j : Nat) (k : Nat) (f : Pe → Pe) : tout j (modPe k f s) = tout j s := rfl
@[simp] theorem tcb_modPe (j : Nat) (k : Nat) (f : Pe → Pe) : tcb j (modPe k f s) = tcb j s := rfl
@[simp] theorem rqueue_modPe (j : Nat) (k : Nat) (f : Pe → Pe) : rqueue j (modPe k f s) = rqueue j s := rfl
@[simp] theorem timer_modPe (j : Nat) (k : Nat) (f : Pe → Pe) : timer j (modPe k f s) = timer j s := rfl
@[simp] theorem ptp_modPe (j : Nat) (k : Nat) (f : Pe → Pe) : ptp j (modPe k f s) = ptp j s := rfl
@[simp] theorem fltin_modPe (j : Nat) (k : Nat) (f : Pe → Pe) : fltin j (modPe k f s) = fltin j s := rfl
@[simp] theorem keySlot_modPe (j : Nat) (k : Nat) (f : Pe → Pe) : keySlot j (modPe k f s) = keySlot j s := rfl
@[simp] theorem tset_modPe (m j : Nat) (k : Nat) (f : Pe → Pe) : tset m j (modPe k f s) = tset m j s := rfl
@[simp] theorem tsPeriodOf_modPe (h j : Nat) (k : Nat) (f : Pe → Pe) : tsPeriodOf h j (modPe k f s) = tsPeriodOf h j s := rfl
@[simp] theorem session_modPe (x : BitVec 16) (k : Nat) (f : Pe → Pe) : session x (modPe k f s) = session x s := rfl
@[simp] theorem memByte_modPe (a : Nat) (k : Nat) (f : Pe → Pe) : memByte a (modPe k f s) = memByte a s := rfl
@[simp] theorem now_modPe (k : Nat) (f : Pe → Pe) : State.now (modPe k f s) = State.now s := rfl
@[simp] theorem free_modPe (k : Nat) (f : Pe → Pe) : State.free (modPe k f s) = State.free s := rfl
@[simp] theorem pending_modPe (k : Nat) (f : Pe → Pe) : State.pending (modPe k f s) = State.pending s := rfl

@[simp] theorem rd_modTcb (j : Nat) (k : Nat) (f : Tcb → Tcb) : rd j (modTcb k f s) = rd j s := rfl
@[simp] theorem blob_modTcb (d : Bytes) (j : Nat) (k : Nat) (f : Tcb → Tcb) : blob d j (modTcb k f s) = blob d j s := rfl
@[simp] theorem grp_modTcb (j : Nat) (k : Nat) (f : Tcb → Tcb) : grp j (modTcb k f s) = grp j s := rfl
@[simp] theorem chan_modTcb (j : Nat) (k : Nat) (f : Tcb → Tcb) : chan j (modTcb k f s) = chan j s := rfl
@[simp] theorem sysch_modTcb (j : Nat) (k : Nat) (f : Tcb → Tcb) : sysch j (modTcb k f s) = sysch j s := rfl
@[simp] theorem seq_modTcb (j : Nat) (k : Nat) (f : Tcb → Tcb) : seq j (modTcb k f s) = seq j s := rfl
@[simp] theorem trig_modTcb (j : Nat) (k : Nat) (f : Tcb → Tcb) : trig j (modTcb k f s) = trig j s := rfl
@[simp] theorem tout_modTcb (j : Nat) (k : Nat) (f : Tcb → Tcb) : tout j (modTcb k f s) = tout j s := rfl
@[simp] theorem pe_modTcb (j : Nat) (k : Nat) (f : Tcb → Tcb) : pe j (modTcb k f s) = pe j s := rfl
@[simp] theorem rqueue_modTcb (j : Nat) (k : Nat) (f : Tcb → Tcb) : rqueue j (modTcb k f s) = rqueue j s := rfl
@[simp] theorem timer_modTcb (j : Nat) (k : Nat) (f : Tcb → Tcb) : timer j (modTcb k f s) = timer j s := rfl
@[simp] theorem ptp_modTcb (j : Nat) (k : Nat) (f : Tcb → Tcb) : ptp j (modTcb k f s) = ptp j s := rfl
@[simp] theorem fltin_modTcb (j : Nat) (k : Nat) (f : Tcb → Tcb) : fltin j (modTcb k f s) = fltin j s := rfl
@[simp] theorem keySlot_modTcb (j : Nat) (k : Nat) (f : Tcb → Tcb) : keySlot j (modTcb k f s) = keySlot j s := rfl
@[simp] theorem tset_modTcb (m j : Nat) (k : Nat) (f : Tcb → Tcb) : tset m j (modTcb k f s) = tset m j s := rfl
@[simp] theorem tsPeriodOf_modTcb (h j : Nat) (k : Nat) (f : Tcb → Tcb) : tsPeriodOf h j (modTcb k f s) = tsPeriodOf h j s := rfl
@[simp] theorem session_modTcb (x : BitVec 16) (k : Nat) (f : Tcb → Tcb) : session x (modTcb k f s) = session x s := rfl
@[simp] theorem memByte_modTcb (a : Nat) (k : Nat) (f : Tcb → Tcb) : memByte a (modTcb k f s) = memByte a s := rfl
@[simp] theorem now_modTcb (k : Nat) (f : Tcb → Tcb) : State.now (modTcb k f s) = State.now s := rfl
@[simp] theorem free_modTcb (k : Nat) (f : Tcb → Tcb) : State.free (modTcb k f s) = State.free s := rfl
@[simp] theorem pending_modTcb (k : Nat) (f : Tcb → Tcb) : State.pending (modTcb k f s) = State.pending s := rfl

@[simp] theorem rd_modQueue (j : Nat) (k : Nat) (f : RQueue → RQueue) : rd j (modQueue k f s) = rd j s := rfl
@[simp] theorem blob_modQueue (d : Bytes) (j : Nat) (k : Nat) (f : RQueue → RQueue) : blob d j (modQueue k f s) = blob d j s := rfl
@[simp] theorem grp_modQueue (j : Nat) (k : Nat) (f : RQueue → RQueue) : grp j (modQueue k f s) = grp j s := rfl
@[simp] theorem chan_modQueue (j : Nat) (k : Nat) (f : RQueue → RQueue) : chan j (modQueue k f s) = chan j s := rfl
@[simp] theorem sysch_modQueue (j : Nat) (k : Nat) (f : RQueue → RQueue) : sysch j (modQueue k f s) = sysch j s := rfl
@[simp] theorem seq_modQueue (j : Nat) (k : Nat) (f : RQueue → RQueue) : seq j (modQueue k f s) = seq j s := rfl
@[simp] theorem trig_modQueue (j : Nat) (k : Nat) (f : RQueue → RQueue) : trig j (modQueue k f s) = trig j s := rfl
@[simp] theorem tout_modQueue (j : Nat) (k : Nat) (f : RQueue → RQueue) : tout j (modQueue k f s) = tout j s := rfl
@[simp] theorem pe_modQueue (j : Nat) (k : Nat) (f : RQueue → RQueue) : pe j (modQueue k f s) = pe j s := rfl
@[simp] theorem tcb_modQueue (j : Nat) (k : Nat) (f : RQueue → RQueue) : tcb j (modQueue k f s) = tcb j s := rfl
@[simp] theorem timer_modQueue (j : Nat) (k : Nat) (f : RQueue → RQueue) : timer j (modQueue k f s) = timer j s := rfl
@[simp] theorem ptp_modQueue (j : Nat) (k : Nat) (f : RQueue → RQueue) : ptp j (modQueue k f s) = ptp j s := rfl
@[simp] theorem fltin_modQueue (j : Nat) (k : Nat) (f : RQueue → RQueue) : fltin j (modQueue k f s) = fltin j s := rfl
@[simp] theorem keySlot_modQueue (j : Nat) (k : Nat) (f : RQueue → RQueue) : keySlot j (modQueue k f s) = keySlot j s := rfl
@[simp] theorem tset_modQueue (m j : Nat) (k : Nat) (f : RQueue → RQueue) : tset m j (modQueue k f s) = tset m j s := rfl
@[simp] theorem tsPeriodOf_modQueue (h j : Nat) (k : Nat) (f : RQueue → RQueue) : tsPeriodOf h j (modQueue k f s) = tsPeriodOf h j s := rfl
@[simp] theorem session_modQueue (x : BitVec 16) (k : Nat) (f : RQueue → RQueue) : session x (modQueue k f s) = session x s := rfl
@[simp] theorem memByte_modQueue (a : Nat) (k : Nat) (f : RQueue → RQueue) : memByte a (modQueue k f s) = memByte a s := rfl
@[simp] theorem now_modQueue (k : Nat) (f : RQueue → RQueue) : State.now (modQueue k f s) = State.now s := rfl
@[simp] theorem free_modQueue (k : Nat) (f : RQueue → RQueue) : State.free (modQueue k f s) = State.free s := rfl
@[simp] theorem pending_modQueue (k : Nat) (f : RQueue → RQueue) : State.pending (modQueue k f s) = State.pending s := rfl

@[simp] theorem rd_modTimer (j : Nat) (k : Nat) (f : TimerSt → TimerSt) : rd j (modTimer k f s) = rd j s := rfl
@[simp] theorem blob_modTimer (d : Bytes) (j : Nat) (k : Nat) (f : TimerSt → TimerSt) : blob d j (modTimer k f s) = blob d j s := rfl
@[simp] theorem grp_modTimer (j : Nat) (k : Nat) (f : TimerSt → TimerSt) : grp j (modTimer k f s) = grp j s := rfl
@[simp] theorem chan_modTimer (j : Nat) (k : Nat) (f : TimerSt → TimerSt) : chan j (modTimer k f s) = chan j s := rfl
@[simp] theorem sysch_modTimer (j : Nat) (k : Nat) (f : TimerSt → TimerSt) : sysch j (modTimer k f s) = sysch j s := rfl
@[simp] theorem seq_modTimer (j : Nat) (k : Nat) (f : TimerSt → TimerSt) : seq j (modTimer k f s) = seq j s := rfl
@[simp] theorem trig_modTimer (j : Nat) (k : Nat) (f : TimerSt → TimerSt) : trig j (modTimer k f s) = trig j s := rfl
@[simp] theorem tout_modTimer (j : Nat) (k : Nat) (f : TimerSt → TimerSt) : tout j (modTimer k f s) = tout j s := rfl
@[simp] theorem pe_modTimer (j : Nat) (k : Nat) (f : TimerSt → TimerSt) : pe j (modTimer k f s) = pe j s := rfl
@[simp] theorem tcb_modTimer (j : Nat) (k : Nat) (f : TimerSt → TimerSt) : tcb j (modTimer k f s) = tcb j s := rfl
@[simp] theorem rqueue_modTimer (j : Nat) (k : Nat) (f : TimerSt → TimerSt) : rqueue j (modTimer k f s) = rqueue j s := rfl
@[simp] theorem ptp_modTimer (j : Nat) (k : Nat) (f : TimerSt → TimerSt) : ptp j (modTimer k f s) = ptp j s := rfl
@[simp] theorem fltin_modTimer (j : Nat) (k : Nat) (f : TimerSt → TimerSt) : fltin j (modTimer k f s) = fltin j s := rfl
@[simp] theorem keySlot_modTimer (j : Nat) (k : Nat) (f : TimerSt → TimerSt) : keySlot j (modTimer k f s) = keySlot j s := rfl
@[simp] theorem tset_modTimer (m j : Nat) (k : Nat) (f : TimerSt → TimerSt) : tset m j (modTimer k f s) = tset m j s := rfl
@[simp] theorem tsPeriodOf_modTimer (h j : Nat) (k : Nat) (f : TimerSt → TimerSt) : tsPeriodOf h j (modTimer k f s) = tsPeriodOf h j s := rfl
@[simp] theorem session_modTimer (x : BitVec 16) (k : Nat) (f : TimerSt → TimerSt) : session x (modTimer k f s) = session x s := rfl
@[simp] theorem memByte_modTimer (a : Nat) (k : Nat) (f : TimerSt → TimerSt) : memByte a (modTimer k f s) = memByte a s := rfl
@[simp] theorem now_modTimer (k : Nat) (f : TimerSt → TimerSt) : State.now (modTimer k f s) = State.now s := rfl
@[simp] theorem free_modTimer (k : Nat) (f : TimerSt → TimerSt) : State.free (modTimer k f s) = State.free s := rfl
@[simp] theorem pending_modTimer (k : Nat) (f : TimerSt → TimerSt) : State.pending (modTimer k f s) = State.pending s := rfl

@[simp] theorem rd_modPtp (j : Nat) (k : Nat) (f : Ptp → Ptp) : rd j (modPtp k f s) = rd j s := rfl
@[simp] theorem blob_modPtp (d : Bytes) (j : Nat) (k : Nat) (f : Ptp → Ptp) : blob d j (modPtp k f s) = blob d j s := rfl
@[simp] theorem grp_modPtp (j : Nat) (k : Nat) (f : Ptp → Ptp) : grp j (modPtp k f s) = grp j s := rfl
@[simp] theorem chan_modPtp (j : Nat) (k : Nat) (f : Ptp → Ptp) : chan j (modPtp k f s) = chan j s := rfl
@[simp] theorem sysch_modPtp (j : Nat) (k : Nat) (f : Ptp → Ptp) : sysch j (modPtp k f s) = sysch j s := rfl
@[simp] theorem seq_modPtp (j : Nat) (k : Nat) (f : Ptp → Ptp) : seq j (modPtp k f s) = seq j s := rfl
@[simp] theorem trig_modPtp (j : Nat) (k : Nat) (f : Ptp → Ptp) : trig j (modPtp k f s) = trig j s := rfl
@[simp] theorem tout_modPtp (j : Nat) (k : Nat) (f : Ptp → Ptp) : tout j (modPtp k f s) = tout j s := rfl
@[simp] theorem pe_modPtp (j : Nat) (k : Nat) (f : Ptp → Ptp) : pe j (modPtp k f s) = pe j s := rfl
@[simp] theorem tcb_modPtp (j : Nat) (k : Nat) (f : Ptp → Ptp) : tcb j (modPtp k f s) = tcb j s := rfl
@[simp] theorem rqueue_modPtp (j : Nat) (k : Nat) (f : Ptp → Ptp) : rqueue j (modPtp k f s) = rqueue j s := rfl
@[simp] theorem timer_modPtp (j : Nat) (k : Nat) (f : Ptp → Ptp) : timer j (modPtp k f s) = timer j s := rfl
@[simp] theorem fltin_modPtp (j : Nat) (k : Nat) (f : Ptp → Ptp) : fltin j (modPtp k f s) = fltin j s := rfl
@[simp] theorem keySlot_modPtp (j : Nat) (k : Nat) (f : Ptp → Ptp) : keySlot j (modPtp k f s) = keySlot j s := rfl
@[simp] theorem tset_modPtp (m j : Nat) (k : Nat) (f : Ptp → Ptp) : tset m j (modPtp k f s) = tset m j s := rfl
@[simp] theorem tsPeriodOf_modPtp (h j : Nat) (k : Nat) (f : Ptp → Ptp) : tsPeriodOf h j (modPtp k f s) = tsPeriodOf h j s := rfl
@[simp] theorem session_modPtp (x : BitVec 16) (k : Nat) (f : Ptp → Ptp) : session x (modPtp k f s) = session x s := rfl
@[simp] theorem memByte_modPtp (a : Nat) (k : Nat) (f : Ptp → Ptp) : memByte a (modPtp k f s) = memByte a s := rfl
@[simp] theorem now_modPtp (k : Nat) (f : Ptp → Ptp) : State.now (modPtp k f s) = State.now s := rfl
@[simp] theorem free_modPtp (k : Nat) (f : Ptp → Ptp) : State.free (modPtp k f s) = State.free s := rfl
@[simp] theorem pending_modPtp (k : Nat) (f : Ptp → Ptp) : State.pending (modPtp k f s) = State.pending s := rfl

@[simp] theorem rd_modFltin (j : Nat) (k : Nat) (f : FltIn → FltIn) : rd j (modFltin k f s) = rd j s := rfl
@[simp] theorem blob_modFltin (d : Bytes) (j : Nat) (k : Nat) (f : FltIn → FltIn) : blob d j (modFltin k f s) = blob d j s := rfl
@[simp] theorem grp_modFltin (j : Nat) (k : Nat) (f : FltIn → FltIn) : grp j (modFltin k f s) = grp j s := rfl
@[simp] theorem chan_modFltin (j : Nat) (k : Nat) (f : FltIn → FltIn) : chan j (modFltin k f s) = chan j s := rfl
@[simp] theorem sysch_modFltin (j : Nat) (k : Nat) (f : FltIn → FltIn) : sysch j (modFltin k f s) = sysch j s := rfl
@[simp] theorem seq_modFltin (j : Nat) (k : Nat) (f : FltIn → FltIn) : seq j (modFltin k f s) = seq j s := rfl
@[simp] theorem trig_modFltin (j : Nat) (k : Nat) (f : FltIn → FltIn) : trig j (modFltin k f s) = trig j s := rfl
@[simp] theorem tout_modFltin (j : Nat) (k : Nat) (f : FltIn → FltIn) : tout j (modFltin k f s) = tout j s := rfl
@[simp] theorem pe_modFltin (j : Nat) (k : Nat) (f : FltIn → FltIn) : pe j (modFltin k f s) = pe j s := rfl
@[simp] theorem tcb_modFltin (j : Nat) (k : Nat) (f : FltIn → FltIn) : tcb j (modFltin k f s) = tcb j s := rfl
@[simp] theorem rqueue_modFltin (j : Nat) (k : Nat) (f : FltIn → FltIn) : rqueue j (modFltin k f s) = rqueue j s := rfl
@[simp] theorem timer_modFltin (j : Nat) (k : Nat) (f : FltIn → FltIn) : timer j (modFltin k f s) = timer j s := rfl
@[simp] theorem ptp_modFltin (j : Nat) (k : Nat) (f : FltIn → FltIn) : ptp j (modFltin k f s) = ptp j s := rfl
@[simp] theorem keySlot_modFltin (j : Nat) (k : Nat) (f : FltIn → FltIn) : keySlot j (modFltin k f s) = keySlot j s := rfl
@[simp] theorem tset_modFltin (m j : Nat) (k : Nat) (f : FltIn → FltIn) : tset m j (modFltin k f s) = tset m j s := rfl
@[simp] theorem tsPeriodOf_modFltin (h j : Nat) (k : Nat) (f : FltIn → FltIn) : tsPeriodOf h j (modFltin k f s) = tsPeriodOf h j s := rfl
@[simp] theorem session_modFltin (x : BitVec 16) (k : Nat) (f : FltIn → FltIn) : session x (modFltin k f s) = session x s := rfl
@[simp] theorem memByte_modFltin (a : Nat) (k : Nat) (f : FltIn → FltIn) : memByte a (modFltin k f s) = memByte a s := rfl
@[simp] theorem now_modFltin (k : Nat) (f : FltIn → FltIn) : State.now (modFltin k f s) = State.now s := rfl
@[simp] theorem free_modFltin (k : Nat) (f : FltIn → FltIn) : State.free (modFltin k f s) = State.free s := rfl
@[simp] theorem pending_modFltin (k : Nat) (f : FltIn → FltIn) : State.pending (modFltin k f s) = State.pending s := rfl

@[simp] theorem rd_modSlot (j : Nat) (k : Nat) (f : KeySlot → KeySlot) : rd j (modSlot k f s) = rd j s := rfl
@[simp] theorem blob_modSlot (d : Bytes) (j : Nat) (k : Nat) (f : KeySlot → KeySlot) : blob d j (modSlot k f s) = blob d j s := rfl
@[simp] theorem grp_modSlot (j : Nat) (k : Nat) (f : KeySlot → KeySlot) : grp j (modSlot k f s) = grp j s := rfl
@[simp] theorem chan_modSlot (j : Nat) (k : Nat) (f : KeySlot → KeySlot) : chan j (modSlot k f s) = chan j s := rfl
@[simp] theorem sysch_modSlot (j : Nat) (k : Nat) (f : KeySlot → KeySlot) : sysch j (modSlot k f s) = sysch j s := rfl
@[simp] theorem seq_modSlot (j : Nat) (k : Nat) (f : KeySlot → KeySlot) : seq j (modSlot k f s) = seq j s := rfl
@[simp] theorem trig_modSlot (j : Nat) (k : Nat) (f : KeySlot → KeySlot) : trig j (modSlot k f s) = trig j s := rfl
@[simp] theorem tout_modSlot (j : Nat) (k : Nat) (f : KeySlot → KeySlot) : tout j (modSlot k f s) = tout j s := rfl
@[simp] theorem pe_modSlot (j : Nat) (k : Nat) (f : KeySlot → KeySlot) : pe j (modSlot k f s) = pe j s := rfl
@[simp] theorem tcb_modSlot (j : Nat) (k : Nat) (f : KeySlot → KeySlot) : tcb j (modSlot k f s) = tcb j s := rfl
@[simp] theorem rqueue_modSlot (j : Nat) (k : Nat) (f : KeySlot → KeySlot) : rqueue j (modSlot k f s) = rqueue j s := rfl
@[simp] theorem timer_modSlot (j : Nat) (k : Nat) (f : KeySlot → KeySlot) : timer j (modSlot k f s) = timer j s := rfl
@[simp] theorem ptp_modSlot (j : Nat) (k : Nat) (f : KeySlot → KeySlot) : ptp j (modSlot k f s) = ptp j s := rfl
@[simp] theorem fltin_modSlot (j : Nat) (k : Nat) (f : KeySlot → KeySlot) : fltin j (modSlot k f s) = fltin j s := rfl
@[simp] theorem tset_modSlot (m j : Nat) (k : Nat) (f : KeySlot → KeySlot) : tset m j (modSlot k f s) = tset m j s := rfl
@[simp] theorem tsPeriodOf_modSlot (h j : Nat) (k : Nat) (f : KeySlot → KeySlot) : tsPeriodOf h j (modSlot k f s) = tsPeriodOf h j s := rfl
@[simp] theorem session_modSlot (x : BitVec 16) (k : Nat) (f : KeySlot → KeySlot) : session x (modSlot k f s) = session x s := rfl
@[simp] theorem memByte_modSlot (a : Nat) (k : Nat) (f : KeySlot → KeySlot) : memByte a (modSlot k f s) = memByte a s := rfl
@[simp] theorem now_modSlot (k : Nat) (f : KeySlot → KeySlot) : State.now (modSlot k f s) = State.now s := rfl
@[simp] theorem free_modSlot (k : Nat) (f : KeySlot → KeySlot) : State.free (modSlot k f s) = State.free s := rfl
@[simp] theorem pending_modSlot (k : Nat) (f : KeySlot → KeySlot) : State.pending (modSlot k f s) = State.pending s := rfl

@[simp] theorem rd_setTset (j : Nat) (n k : Nat) (v : TimingSet) : rd j (setTset n k v s) = rd j s := rfl
@[simp] theorem blob_setTset (d : Bytes) (j : Nat) (n k : Nat) (v : TimingSet) : blob d j (setTset n k v s) = blob d j s := rfl
@[simp] theorem grp_setTset (j : Nat) (n k : Nat) (v : TimingSet) : grp j (setTset n k v s) = grp j s := rfl
@[simp] theorem chan_setTset (j : Nat) (n k : Nat) (v : TimingSet) : chan j (setTset n k v s) = chan j s := rfl
@[simp] theorem sysch_setTset (j : Nat) (n k : Nat) (v : TimingSet) : sysch j (setTset n k v s) = sysch j s := rfl
@[simp] theorem seq_setTset (j : Nat) (n k : Nat) (v : TimingSet) : seq j (setTset n k v s) = seq j s := rfl
@[simp] theorem trig_setTset (j : Nat) (n k : Nat) (v : TimingSet) : trig j (setTset n k v s) = trig j s := rfl
@[simp] theorem tout_setTset (j : Nat) (n k : Nat) (v : TimingSet) : tout j (setTset n k v s) = tout j s := rfl
@[simp] theorem pe_setTset (j : Nat) (n k : Nat) (v : TimingSet) : pe j (setTset n k v s) = pe j s := rfl
@[simp] theorem tcb_setTset (j : Nat) (n k : Nat) (v : TimingSet) : tcb j (setTset n k v s) = tcb j s := rfl
@[simp] theorem rqueue_setTset (j : Nat) (n k : Nat) (v : TimingSet) : rqueue j (setTset n k v s) = rqueue j s := rfl
@[simp] theorem timer_setTset (j : Nat) (n k : Nat) (v : TimingSet) : timer j (setTset n k v s) = timer j s := rfl
@[simp] theorem ptp_setTset (j : Nat) (n k : Nat) (v : TimingSet) : ptp j (setTset n k v s) = ptp j s := rfl
@[simp] theorem fltin_setTset (j : Nat) (n k : Nat) (v : TimingSet) : fltin j (setTset n k v s) = fltin j s := rfl
@[simp] theorem keySlot_setTset (j : Nat) (n k : Nat) (v : TimingSet) : keySlot j (setTset n k v s) = keySlot j s := rfl
@[simp] theorem tsPeriodOf_setTset (h j : Nat) (n k : Nat) (v : TimingSet) : tsPeriodOf h j (setTset n k v s) = tsPeriodOf h j s := rfl
@[simp] theorem session_setTset (x : BitVec 16) (n k : Nat) (v : TimingSet) : session x (setTset n k v s) = session x s := rfl
@[simp] theorem memByte_setTset (a : Nat) (n k : Nat) (v : TimingSet) : memByte a (setTset n k v s) = memByte a s := rfl
@[simp] theorem now_setTset (n k : Nat) (v : TimingSet) : State.now (setTset n k v s) = State.now s := rfl
@[simp] theorem free_setTset (n k : Nat) (v : TimingSet) : State.free (setTset n k v s) = State.free s := rfl
@[simp] theorem pending_setTset (n k : Nat) (v : TimingSet) : State.pending (setTset n k v s) = State.pending s := rfl

@[simp] theorem rd_setTsPeriod (j : Nat) (g k v : Nat) : rd j (setTsPeriod g k v s) = rd j s := rfl
@[simp] theorem blob_setTsPeriod (d : Bytes) (j : Nat) (g k v : Nat) : blob d j (setTsPeriod g k v s) = blob d j s := rfl
@[simp] theorem grp_setTsPeriod (j : Nat) (g k v : Nat) : grp j (setTsPeriod g k v s) = grp j s := rfl
@[simp] theorem chan_setTsPeriod (j : Nat) (g k v : Nat) : chan j (setTsPeriod g k v s) = chan j s := rfl
@[simp] theorem sysch_setTsPeriod (j : Nat) (g k v : Nat) : sysch j (setTsPeriod g k v s) = sysch j s := rfl
@[simp] theorem seq_setTsPeriod (j : Nat) (g k v : Nat) : seq j (setTsPeriod g k v s) = seq j s := rfl
@[simp] theorem trig_setTsPeriod (j : Nat) (g k v : Nat) : trig j (setTsPeriod g k v s) = trig j s := rfl
@[simp] theorem tout_setTsPeriod (j : Nat) (g k v : Nat) : tout j (setTsPeriod g k v s) = tout j s := rfl
@[simp] theorem pe_setTsPeriod (j : Nat) (g k v : Nat) : pe j (setTsPeriod g k v s) = pe j s := rfl
@[simp] theorem tcb_setTsPeriod (j : Nat) (g k v : Nat) : tcb j (setTsPeriod g k v s) = tcb j s := rfl
@[simp] theorem rqueue_setTsPeriod (j : Nat) (g k v : Nat) : rqueue j (setTsPeriod g k v s) = rqueue j s := rfl
@[simp] theorem timer_setTsPeriod (j : Nat) (g k v : Nat) : timer j (setTsPeriod g k v s) = timer j s := rfl
@[simp] theorem ptp_setTsPeriod (j : Nat) (g k v : Nat) : ptp j (setTsPeriod g k v s) = ptp j s := rfl
@[simp] theorem fltin_setTsPeriod (j : Nat) (g k v : Nat) : fltin j (setTsPeriod g k v s) = fltin j s := rfl
@[simp] theorem keySlot_setTsPeriod (j : Nat) (g k v : Nat) : keySlot j (setTsPeriod g k v s) = keySlot j s := rfl
@[simp] theorem tset_setTsPeriod (m j : Nat) (g k v : Nat) : tset m j (setTsPeriod g k v s) = tset m j s := rfl
@[simp] theorem session_setTsPeriod (x : BitVec 16) (g k v : Nat) : session x (setTsPeriod g k v s) = session x s := rfl
@[simp] theorem memByte_setTsPeriod (a : Nat) (g k v : Nat) : memByte a (setTsPeriod g k v s) = memByte a s := rfl
@[simp] theorem now_setTsPeriod (g k v : Nat) : State.now (setTsPeriod g k v s) = State.now s := rfl
@[simp] theorem free_setTsPeriod (g k v : Nat) : State.free (setTsPeriod g k v s) = State.free s := rfl
@[simp] theorem pending_setTsPeriod (g k v : Nat) : State.pending (setTsPeriod g k v s) = State.pending s := rfl

@[simp] theorem rd_setBlob (j : Nat) (k : Nat) (v : Bytes) : rd j (setBlob k v s) = rd j s := rfl
@[simp] theorem grp_setBlob (j : Nat) (k : Nat) (v : Bytes) : grp j (setBlob k v s) = grp j s := rfl
@[simp] theorem chan_setBlob (j : Nat) (k : Nat) (v : Bytes) : chan j (setBlob k v s) = chan j s := rfl
@[simp] theorem sysch_setBlob (j : Nat) (k : Nat) (v : Bytes) : sysch j (setBlob k v s) = sysch j s := rfl
@[simp] theorem seq_setBlob (j : Nat) (k : Nat) (v : Bytes) : seq j (setBlob k v s) = seq j s := rfl
@[simp] theorem trig_setBlob (j : Nat) (k : Nat) (v : Bytes) : trig j (setBlob k v s) = trig j s := rfl
@[simp] theorem tout_setBlob (j : Nat) (k : Nat) (v : Bytes) : tout j (setBlob k v s) = tout j s := rfl
@[simp] theorem pe_setBlob (j : Nat) (k : Nat) (v : Bytes) : pe j (setBlob k v s) = pe j s := rfl
@[simp] theorem tcb_setBlob (j : Nat) (k : Nat) (v : Bytes) : tcb j (setBlob k v s) = tcb j s := rfl
@[simp] theorem rqueue_setBlob (j : Nat) (k : Nat) (v : Bytes) : rqueue j (setBlob k v s) = rqueue j s := rfl
@[simp] theorem timer_setBlob (j : Nat) (k : Nat) (v : Bytes) : timer j (setBlob k v s) = timer j s := rfl
@[simp] theorem ptp_setBlob (j : Nat) (k : Nat) (v : Bytes) : ptp j (setBlob k v s) = ptp j s := rfl
@[simp] theorem fltin_setBlob (j : Nat) (k : Nat) (v : Bytes) : fltin j (setBlob k v s) = fltin j s := rfl
@[simp] theorem keySlot_setBlob (j : Nat) (k : Nat) (v : Bytes) : keySlot j (setBlob k v s) = keySlot j s := rfl
@[simp] theorem tset_setBlob (m j : Nat) (k : Nat) (v : Bytes) : tset m j (setBlob k v s) = tset m j s := rfl
@[simp] theorem tsPeriodOf_setBlob (h j : Nat) (k : Nat) (v : Bytes) : tsPeriodOf h j (setBlob k v s) = tsPeriodOf h j s := rfl
@[simp] theorem session_setBlob (x : BitVec 16) (k : Nat) (v : Bytes) : session x (setBlob k v s) = session x s := rfl
@[simp] theorem memByte_setBlob (a : Nat) (k : Nat) (v : Bytes) : memByte a (setBlob k v s) = memByte a s := rfl
@[simp] theorem now_setBlob (k : Nat) (v : Bytes) : State.now (setBlob k v s) = State.now s := rfl
@[simp] theorem free_setBlob (k : Nat) (v : Bytes) : State.free (setBlob k v s) = State.free s := rfl
@[simp] theorem pending_setBlob (k : Nat) (v : Bytes) : State.pending (setBlob k v s) = State.pending s := rfl

@[simp] theorem rd_modSession (j : Nat) (i : BitVec 16) (f : Session → Session) : rd j (modSession i f s) = rd j s := rfl
@[simp] theorem blob_modSession (d : Bytes) (j : Nat) (i : BitVec 16) (f : Session → Session) : blob d j (modSession i f s) = blob d j s := rfl
@[simp] theorem grp_modSession (j : Nat) (i : BitVec 16) (f : Session → Session) : grp j (modSession i f s) = grp j s := rfl
@[simp] theorem chan_modSession (j : Nat) (i : BitVec 16) (f : Session → Session) : chan j (modSession i f s) = chan j s := rfl
@[simp] theorem sysch_modSession (j : Nat) (i : BitVec 16) (f : Session → Session) : sysch j (modSession i f s) = sysch j s := rfl
@[simp] theorem seq_modSession (j : Nat) (i : BitVec 16) (f : Session → Session) : seq j (modSession i f s) = seq j s := rfl
@[simp] theorem trig_modSession (j : Nat) (i : BitVec 16) (f : Session → Session) : trig j (modSession i f s) = trig j s := rfl
@[simp] theorem tout_modSession (j : Nat) (i : BitVec 16) (f : Session → Session) : tout j (modSession i f s) = tout j s := rfl
@[simp] theorem pe_modSession (j : Nat) (i : BitVec 16) (f : Session → Session) : pe j (modSession i f s) = pe j s := rfl
@[simp] theorem tcb_modSession (j : Nat) (i : BitVec 16) (f : Session → Session) : tcb j (modSession i f s) = tcb j s := rfl
@[simp] theorem rqueue_modSession (j : Nat) (i : BitVec 16) (f : Session → Session) : rqueue j (modSession i f s) = rqueue j s := rfl
@[simp] theorem timer_modSession (j : Nat) (i : BitVec 16) (f : Session → Session) : timer j (modSession i f s) = timer j s := rfl
@[simp] theorem ptp_modSession (j : Nat) (i : BitVec 16) (f : Session → Session) : ptp j (modSession i f s) = ptp j s := rfl
@[simp] theorem fltin_modSession (j : Nat) (i : BitVec 16) (f : Session → Session) : fltin j (modSession i f s) = fltin j s := rfl
@[simp] theorem keySlot_modSession (j : Nat) (i : BitVec 16) (f : Session → Session) : keySlot j (modSession i f s) = keySlot j s := rfl
@[simp] theorem tset_modSession (m j : Nat) (i : BitVec 16) (f : Session → Session) : tset m j (modSession i f s) = tset m j s := rfl
@[simp] theorem tsPeriodOf_modSession (h j : Nat) (i : BitVec 16) (f : Session → Session) : tsPeriodOf h j (modSession i f s) = tsPeriodOf h j s := rfl
@[simp] theorem memByte_modSession (a : Nat) (i : BitVec 16) (f : Session → Session) : memByte a (modSession i f s) = memByte a s := rfl
@[simp] theorem now_modSession (i : BitVec 16) (f : Session → Session) : State.now (modSession i f s) = State.now s := rfl
@[simp] theorem free_modSession (i : BitVec 16) (f : Session → Session) : State.free (modSession i f s) = State.free s := rfl
@[simp] theorem pending_modSession (i : BitVec 16) (f : Session → Session) : State.pending (modSession i f s) = State.pending s := rfl

@[simp] theorem rd_modDram (j : Nat) (f : Dram → Dram) : rd j (modDram f s) = rd j s := rfl
@[simp] theorem blob_modDram (d : Bytes) (j : Nat) (f : Dram → Dram) : blob d j (modDram f s) = blob d j s := rfl
@[simp] theorem grp_modDram (j : Nat) (f : Dram → Dram) : grp j (modDram f s) = grp j s := rfl
@[simp] theorem chan_modDram (j : Nat) (f : Dram → Dram) : chan j (modDram f s) = chan j s := rfl
@[simp] theorem sysch_modDram (j : Nat) (f : Dram → Dram) : sysch j (modDram f s) = sysch j s := rfl
@[simp] theorem seq_modDram (j : Nat) (f : Dram → Dram) : seq j (modDram f s) = seq j s := rfl
@[simp] theorem trig_modDram (j : Nat) (f : Dram → Dram) : trig j (modDram f s) = trig j s := rfl
@[simp] theorem tout_modDram (j : Nat) (f : Dram → Dram) : tout j (modDram f s) = tout j s := rfl
@[simp] theorem pe_modDram (j : Nat) (f : Dram → Dram) : pe j (modDram f s) = pe j s := rfl
@[simp] theorem tcb_modDram (j : Nat) (f : Dram → Dram) : tcb j (modDram f s) = tcb j s := rfl
@[simp] theorem rqueue_modDram (j : Nat) (f : Dram → Dram) : rqueue j (modDram f s) = rqueue j s := rfl
@[simp] theorem timer_modDram (j : Nat) (f : Dram → Dram) : timer j (modDram f s) = timer j s := rfl
@[simp] theorem ptp_modDram (j : Nat) (f : Dram → Dram) : ptp j (modDram f s) = ptp j s := rfl
@[simp] theorem fltin_modDram (j : Nat) (f : Dram → Dram) : fltin j (modDram f s) = fltin j s := rfl
@[simp] theorem keySlot_modDram (j : Nat) (f : Dram → Dram) : keySlot j (modDram f s) = keySlot j s := rfl
@[simp] theorem tset_modDram (m j : Nat) (f : Dram → Dram) : tset m j (modDram f s) = tset m j s := rfl
@[simp] theorem tsPeriodOf_modDram (h j : Nat) (f : Dram → Dram) : tsPeriodOf h j (modDram f s) = tsPeriodOf h j s := rfl
@[simp] theorem session_modDram (x : BitVec 16) (f : Dram → Dram) : session x (modDram f s) = session x s := rfl
@[simp] theorem now_modDram (f : Dram → Dram) : State.now (modDram f s) = State.now s := rfl
@[simp] theorem free_modDram (f : Dram → Dram) : State.free (modDram f s) = State.free s := rfl
@[simp] theorem pending_modDram (f : Dram → Dram) : State.pending (modDram f s) = State.pending s := rfl

@[simp] theorem rd_toTime (j : Nat) (t : Nat) : rd j (toTime t s) = rd j s := rfl
@[simp] theorem blob_toTime (d : Bytes) (j : Nat) (t : Nat) : blob d j (toTime t s) = blob d j s := rfl
@[simp] theorem grp_toTime (j : Nat) (t : Nat) : grp j (toTime t s) = grp j s := rfl
@[simp] theorem chan_toTime (j : Nat) (t : Nat) : chan j (toTime t s) = chan j s := rfl
@[simp] theorem sysch_toTime (j : Nat) (t : Nat) : sysch j (toTime t s) = sysch j s := rfl
@[simp] theorem seq_toTime (j : Nat) (t : Nat) : seq j (toTime t s) = seq j s := rfl
@[simp] theorem trig_toTime (j : Nat) (t : Nat) : trig j (toTime t s) = trig j s := rfl
@[simp] theorem tout_toTime (j : Nat) (t : Nat) : tout j (toTime t s) = tout j s := rfl
@[simp] theorem pe_toTime (j : Nat) (t : Nat) : pe j (toTime t s) = pe j s := rfl
@[simp] theorem tcb_toTime (j : Nat) (t : Nat) : tcb j (toTime t s) = tcb j s := rfl
@[simp] theorem rqueue_toTime (j : Nat) (t : Nat) : rqueue j (toTime t s) = rqueue j s := rfl
@[simp] theorem timer_toTime (j : Nat) (t : Nat) : timer j (toTime t s) = timer j s := rfl
@[simp] theorem ptp_toTime (j : Nat) (t : Nat) : ptp j (toTime t s) = ptp j s := rfl
@[simp] theorem fltin_toTime (j : Nat) (t : Nat) : fltin j (toTime t s) = fltin j s := rfl
@[simp] theorem keySlot_toTime (j : Nat) (t : Nat) : keySlot j (toTime t s) = keySlot j s := rfl
@[simp] theorem tset_toTime (m j : Nat) (t : Nat) : tset m j (toTime t s) = tset m j s := rfl
@[simp] theorem tsPeriodOf_toTime (h j : Nat) (t : Nat) : tsPeriodOf h j (toTime t s) = tsPeriodOf h j s := rfl
@[simp] theorem session_toTime (x : BitVec 16) (t : Nat) : session x (toTime t s) = session x s := rfl
@[simp] theorem memByte_toTime (a : Nat) (t : Nat) : memByte a (toTime t s) = memByte a s := rfl
@[simp] theorem free_toTime (t : Nat) : State.free (toTime t s) = State.free s := rfl
@[simp] theorem pending_toTime (t : Nat) : State.pending (toTime t s) = State.pending s := rfl

/-! ### The updated instance, and the others of its kind -/

@[simp] theorem rd_wr_self (k v : Nat) : rd k (wr k v s) = v := Tab.get_set_self _ _ _ _

theorem rd_wr_of_ne {j k : Nat} (h : j ≠ k) (v : Nat) : rd j (wr k v s) = rd j s := Tab.get_set_of_ne h _ _ _

@[simp] theorem blob_setBlob_self (d : Bytes) (k : Nat) (v : Bytes) : blob d k (setBlob k v s) = v := Tab.get_set_self _ _ _ _

theorem blob_setBlob_of_ne {j k : Nat} (h : j ≠ k) (d v : Bytes) : blob d j (setBlob k v s) = blob d j s :=
  Tab.get_set_of_ne h _ _ _

@[simp] theorem grp_modGrp_self (k : Nat) (f : Grp → Grp) : grp k (modGrp k f s) = f (grp k s) := Tab.get_set_self _ _ _ _

theorem grp_modGrp_of_ne {j k : Nat} (h : j ≠ k) (f : Grp → Grp) : grp j (modGrp k f s) = grp j s := Tab.get_set_of_ne h _ _ _

@[simp] theorem chan_modChan_self (k : Nat) (f : Chan → Chan) : chan k (modChan k f s) = f (chan k s) := Tab.get_set_self _ _ _ _

theorem chan_modChan_of_ne {j k : Nat} (h : j ≠ k) (f : Chan → Chan) : chan j (modChan k f s) = chan j s := Tab.get_set_of_ne h _ _ _

@[simp] theorem sysch_modSysch_self (k : Nat) (f : SysChain → SysChain) : sysch k (modSysch k f s) = f (sysch k s) := Tab.get_set_self _ _ _ _

theorem sysch_modSysch_of_ne {j k : Nat} (h : j ≠ k) (f : SysChain → SysChain) : sysch j (modSysch k f s) = sysch j s := Tab.get_set_of_ne h _ _ _

@[simp] theorem seq_modSeq_self (k : Nat) (f : Seq → Seq) : seq k (modSeq k f s) = f (seq k s) := Tab.get_set_self _ _ _ _

theorem seq_modSeq_of_ne {j k : Nat} (h : j ≠ k) (f : Seq → Seq) : seq j (modSeq k f s) = seq j s := Tab.get_set_of_ne h _ _ _

@[simp] theorem trig_modTrig_self (k : Nat) (f : Trig → Trig) : trig k (modTrig k f s) = f (trig k s) := Tab.get_set_self _ _ _ _

theorem trig_modTrig_of_ne {j k : Nat} (h : j ≠ k) (f : Trig → Trig) : trig j (modTrig k f s) = trig j s := Tab.get_set_of_ne h _ _ _

@[simp] theorem tout_modTout_self (k : Nat) (f : Tout → Tout) : tout k (modTout k f s) = f (tout k s) := Tab.get_set_self _ _ _ _

theorem tout_modTout_of_ne {j k : Nat} (h : j ≠ k) (f : Tout → Tout) : tout j (modTout k f s) = tout j s := Tab.get_set_of_ne h _ _ _

@[simp] theorem pe_modPe_self (k : Nat) (f : Pe → Pe) : pe k (modPe k f s) = f (pe k s) := Tab.get_set_self _ _ _ _

theorem pe_modPe_of_ne {j k : Nat} (h : j ≠ k) (f : Pe → Pe) : pe j (modPe k f s) = pe j s := Tab.get_set_of_ne h _ _ _

@[simp] theorem tcb_modTcb_self (k : Nat) (f : Tcb → Tcb) : tcb k (modTcb k f s) = f (tcb k s) := Tab.get_set_self _ _ _ _

theorem tcb_modTcb_of_ne {j k : Nat} (h : j ≠ k) (f : Tcb → Tcb) : tcb j (modTcb k f s) = tcb j s := Tab.get_set_of_ne h _ _ _

@[simp] theorem rqueue_modQueue_self (k : Nat) (f : RQueue → RQueue) : rqueue k (modQueue k f s) = f (rqueue k s) := Tab.get_set_self _ _ _ _

theorem rqueue_modQueue_of_ne {j k : Nat} (h : j ≠ k) (f : RQueue → RQueue) : rqueue j (modQueue k f s) = rqueue j s := Tab.get_set_of_ne h _ _ _

@[simp] theorem timer_modTimer_self (k : Nat) (f : TimerSt → TimerSt) : timer k (modTimer k f s) = f (timer k s) := Tab.get_set_self _ _ _ _

theorem timer_modTimer_of_ne {j k : Nat} (h : j ≠ k) (f : TimerSt → TimerSt) : timer j (modTimer k f s) = timer j s := Tab.get_set_of_ne h _ _ _

@[simp] theorem ptp_modPtp_self (k : Nat) (f : Ptp → Ptp) : ptp k (modPtp k f s) = f (ptp k s) := Tab.get_set_self _ _ _ _

theorem ptp_modPtp_of_ne {j k : Nat} (h : j ≠ k) (f : Ptp → Ptp) : ptp j (modPtp k f s) = ptp j s := Tab.get_set_of_ne h _ _ _

@[simp] theorem fltin_modFltin_self (k : Nat) (f : FltIn → FltIn) : fltin k (modFltin k f s) = f (fltin k s) := Tab.get_set_self _ _ _ _

theorem fltin_modFltin_of_ne {j k : Nat} (h : j ≠ k) (f : FltIn → FltIn) : fltin j (modFltin k f s) = fltin j s := Tab.get_set_of_ne h _ _ _

@[simp] theorem keySlot_modSlot_self (k : Nat) (f : KeySlot → KeySlot) : keySlot k (modSlot k f s) = f (keySlot k s) := Tab.get_set_self _ _ _ _

theorem keySlot_modSlot_of_ne {j k : Nat} (h : j ≠ k) (f : KeySlot → KeySlot) : keySlot j (modSlot k f s) = keySlot j s := Tab.get_set_of_ne h _ _ _

@[simp] theorem tset_setTset_self (n k : Nat) (v : TimingSet) : tset n k (setTset n k v s) = v := Tab.get_set_self _ _ _ _

@[simp] theorem tsPeriodOf_setTsPeriod_self (g k v : Nat) : tsPeriodOf g k (setTsPeriod g k v s) = v :=
  Tab.get_set_self _ _ _ _

@[simp] theorem now_toTime (t : Nat) : (toTime t s).now = max s.now t := rfl

/-! ### DRAM -/

/-- A byte outside a write reads as before. -/
theorem memByte_memWrite_out {a x : Nat} {b : Bytes} (h : x < a ∨ a + b.length ≤ x) :
    memByte x (memWrite a b s) = memByte x s := Mem.read_writeN_out x a b _ h

/-- A byte of a write reads as written. -/
theorem memByte_memWrite_in {a i : Nat} {b : Bytes} (h : i < b.length) : memByte (a + i) (memWrite a b s) = b[i] :=
  Mem.read_writeN_in i a b _ h

/-- A write keeps the canonical form. -/
theorem memWrite_wf {a : Nat} {b : Bytes} (h : Mem.wf s.dram.mem) : Mem.wf (memWrite a b s).dram.mem :=
  Mem.wf_writeN a b _ h

/-! ### Free values -/

@[simp] theorem drawNat_snd : (drawNat s).2 = { s with free := s.free + 1 } := rfl
@[simp] theorem drawBool_snd : (drawBool s).2 = { s with free := s.free + 1 } := rfl
@[simp] theorem drawBelow_snd (n : Nat) : (drawBelow n s).2 = { s with free := s.free + 1 } := rfl

/-- A choice among n outcomes is one of them. -/
theorem drawBelow_lt {n : Nat} (h : 0 < n) : (drawBelow n s).1 < n := Nat.mod_lt _ h

/-! ### Folds -/

@[simp] theorem forEach_nil {α : Type} (f : α → State → State) : forEach [] f s = s := rfl
@[simp] theorem forEach_cons {α : Type} (a : α) (l : List α) (f : α → State → State) :
    forEach (a :: l) f s = forEach l f (f a s) := rfl
@[simp] theorem wrs_nil : wrs [] s = s := rfl
@[simp] theorem wrs_cons (k v : Nat) (l : List (Nat × Nat)) : wrs ((k, v) :: l) s = wrs l (wr k v s) := rfl

/-- What every step of a fold keeps, the fold keeps. -/
theorem forEach_keeps {α β : Type} (p : State → β) (f : α → State → State) (h : ∀ a s, p (f a s) = p s) (l : List α) :
    p (forEach l f s) = p s := by
  induction l generalizing s with
  | nil => rfl
  | cons a l ih => rw [forEach_cons, ih, h]

end Sys2Proof.Machine
end

