-- ==== Sys2Proof/WellFormed.lean ====
section
/-! DEFINITION. Which terms of `Instr` are commands that the block can meet: a request's binding and fields within what
IP, UDP and Baton carry (R360, R361, R364, R398), and a JTAG code that names BYPASS (R439). -/
namespace Sys2Proof

/-- The binding and the authentication fields of a request have the widths that their protocols give. -/
def Req.wellFormed (r : Req) : Bool :=
  r.addr < (if r.v6 then 2 ^ 128 else 2 ^ 32) && r.udp < 2 ^ 16 && r.tag < 2 ^ 128

/-- A payload fits a UDP datagram behind its Baton header. -/
def payloadFits (n : Nat) : Bool := n ≤ 65535 - 8 - 16

/-- The request that a command carries. -/
def Instr.req? : Instr → Option Req
  | .write r _ _ _ | .read r _ _ _ | .openSession r _ _ _ | .closeSession r _ | .readBlock r _ _ _ _ _ _
  | .writeBlock r _ _ _ _ _ _ _ | .subscribe r _ _ _ | .subscribeCancel r _ _ _ | .notifyAck r
  | .cgModeWrite r _ _ | .cgGangWrite r _ _ | .cgBasePeriodWrite r _ _ _ | .chTermSelWrite r _ _
  | .sysTimingWrite r _ _ _ | .tsTableWrite r _ _ | .capBaseWrite r _ _ | .capLenWrite r _ _ | .capRdWrite r _ _
  | .capRead r _ | .spillRdWrite r _ _ _ | .failPop r _ | .seqHostEventWrite r _ _ | .enable r _ | .disable r _
  | .arm r _ _ | .start r _ | .disarm r _ | .pause r _ | .resume r _ | .hostHalt r _ | .clear r _
  | .runGroupStart r _ | .toutPulse r _ _ | .jtReq r _ _ | .patchVerify r | .patchApply r | .patchDiscard r
  | .mcPatchStageWrite r _ | .dramSpeedReqWrite r _ | .peEnable r _ | .peDisable r _ | .peClear r _
  | .peMemDataWrite r _ _ | .peMemDataRead r _ | .taskPost r | .cancel r | .taskDisable r | .taskEnable r
  | .qRead r _ | .qClear r _ | .hitClear r _ _ | .tdIncWrite r _ _ _ | .tdOffsetWrite r _ _ _ | .tdSetWrite r _ _
  | .timeActiveSelWrite r _ | .tmrWrite r _ _ _ | .relayTrain r | .relayDown r | .rlyStartSend r _ | .rlyEventSend r _
  | .rlyJumpSend r _ | .jtxEnWrite r _ | .jrxEnWrite r _ | .jtxArm r | .jtxStart r | .jtxStop r | .jtxNcoFtwWrite r _ _
  | .jrxStart r | .jrxStop r | .sysCalRecWrite r _ _ | .sysCalRecRead r _ | .fltStickyClear r _ | .fltRelease r _
  | .secKekWrite r _ _ | .skLoad r _ _ | .skClear r _ _ | .secOfficerKeyWrite r _ _ | .secOfficerRevoke r _
  | .secAnchorRevoke r _ | .secMinLevelSet r _ | .secDiagLoad r _ | .secSelftest r _ _ | .zeroiseVolatile r
  | .zeroisePermanent r | .certModeEnter r | .certModeLeave r | .resetCmd r _ | .bootStageWrite r _ _ _ | .bootCmd r _ =>
    some r
  | _ => none

/-- The checks of a command's own operands. -/
def Instr.operandsOk : Instr → Bool
  | .write _ _ _ p | .read _ _ _ p => payloadFits p.length
  | .openSession _ _ _ cred => payloadFits (4 + cred.length)
  | .writeBlock _ _ _ _ _ _ data _ | .bootStageWrite _ _ _ data => payloadFits (16 + data.length)
  | .bypass code => !(code.toNat ≤ 4)
  | _ => true

/-- A well-formed command. -/
def Instr.wellFormed (c : Instr) : Bool :=
  (match c.req? with | some r => r.wellFormed | none => true) && c.operandsOk

end Sys2Proof
end

