-- ==== Sys2Proof/Tests/Slice0.lean ====
section
/-! SUPPORT. Tests of the model's own, and for every statement with hypotheses a theorem that shows states and operands
that meet them, clause by clause. -/
namespace Sys2Proof.Tests
open Sys2Proof Sys2Proof.Machine
set_option Elab.async false

/-! ### Requests that are admitted -/

/-- An open session of a role. -/
def sess (role : Nat) : Session :=
  { id := 1, port := 0, v6 := false, addr := 1, udp := 2, role, s0 := 0, opened := 0, last := 0, h := 5 }

/-- The first session of a state. -/
def first (s : State) : Session := s.sessions.headD (sess 0)

/-- The next request of a session, with its protection where the session is authenticated. -/
def req (x : Session) (op key : Nat) (p : Bytes) : Req :=
  { port := ⟨x.port % 4, by omega⟩, v6 := x.v6, addr := x.addr, udp := x.udp, ver := 1, session := x.id, seq := x.h + 1
    ctr := BitVec.ofNat 64 (x.ctrHigh + 1)
    tag := Config.frameTag x.kh (BitVec.ofNat 64 (x.ctrHigh + 1)).toNat
      (header op x.id.toNat (x.h + 1).toNat key 0 (p.length + 24)) p }

/-- That some admitted request of a role meets the hypotheses of a statement about a WRITE or a READ. -/
def HostMeets (op key : Nat) (p : Bytes) (role : Nat) (expert : Bool) (pre : Session → State → Prop) : Prop :=
  ∃ (r : Req) (x : Session) (s : State), Admitted r op key p x s ∧ indexExists key s = true ∧ role ≤ x.role ∧
    (expert = true → x.expert = true) ∧ pre x s

/-- That some admitted request meets the hypotheses of a statement. -/
def ReqMeets (op key : Nat) (p : Bytes) (pre : Req → Session → State → Prop) : Prop :=
  ∃ (r : Req) (x : Session) (s : State), Admitted r op key p x s ∧ pre r x s

/-- Whether the port of a request is open, the frame fits, and the session is found by its binding and its number. -/
def reaches (r : Req) (x : Session) (p : Bytes) (s : State) : Bool :=
  portOpen r.port s && decide (frameBytes r p s ≤ mtu r.port s) && (s.sessions.find? (bound r) == some x &&
    session x.id s == some x && (!x.auth || ctrFresh r.ctr.toNat x))

/-- The next request of the first session of a state is admitted where it reaches the session. -/
theorem admitted {op key : Nat} {p : Bytes} (s : State) (side : reaches (req (first s) op key p) (first s) p s = true) :
    Admitted (req (first s) op key p) op key p (first s) s := by
  simp only [reaches, Bool.and_eq_true, decide_eq_true_eq, beq_iff_eq] at side
  obtain ⟨⟨hp, hl⟩, ⟨hf, hs⟩, hc⟩ := side
  refine ⟨hp, hl, rfl, hf, hs, ?_, ?_⟩
  · simp only [frameOk]
    rcases hx : (first s).auth with _ | _
    · rfl
    · rw [hx] at hc
      simp only [Bool.not_true, Bool.false_or] at hc ⊢
      rw [hc, Bool.true_and]
      simp only [req, beq_self_eq_true]
  · have h : seqDiff (req (first s) op key p) (first s) = 1 := by
      have e : (first s).h + 1 - (first s).h = 1#32 := by bv_omega
      show ((first s).h + 1 - (first s).h).toInt = 1
      rw [e]; decide
    rw [h]; exact ⟨by decide, by decide, Or.inl (by decide)⟩

/-- The next request of the first session of a state meets the hypotheses. -/
theorem reqMeets {op key : Nat} {p : Bytes} {pre : Req → Session → State → Prop} (s : State)
    (side : reaches (req (first s) op key p) (first s) p s = true) (h : pre (req (first s) op key p) (first s) s) :
    ReqMeets op key p pre := ⟨_, _, _, admitted s side, h⟩

/-- The next request of the first session of a state meets the hypotheses of a WRITE or a READ. -/
theorem hostMeets {op key : Nat} {p : Bytes} {role : Nat} {expert : Bool} {pre : Session → State → Prop} (s : State)
    (side : (reaches (req (first s) op key p) (first s) p s && (indexExists key s && decide (role ≤ (first s).role) &&
      (!expert || (first s).expert))) = true) (h : pre (first s) s) : HostMeets op key p role expert pre := by
  simp only [Bool.and_eq_true, Bool.or_eq_true, Bool.not_eq_true', decide_eq_true_eq] at side
  refine ⟨_, _, _, admitted s side.1, side.2.1.1, side.2.1.2, fun e => ?_, h⟩
  rcases side.2.2 with n | n
  · rw [e] at n; cases n
  · exact n

/-- A sequencer is ready at an instruction whose successor is the word given. -/
theorem iuReady {k op : Nat} {w : SeqWord} {s : State} (v : Nat)
    (h : (iuOk k op w s && codeAt k (pcOf k s + 1) s == some v &&
      decide (hasRoutine k (v / 2 ^ 56) s = true ∧ pcOf k s + 1 < 65536)) = true) : IuReady k op w s := by
  simp only [Bool.and_eq_true, beq_iff_eq, decide_eq_true_eq] at h
  exact ⟨h.1.1, v, h.1.2, h.2⟩

/-- The head of a segment at page 3 that holds instruction words, an engineering segment of one member. -/
def head (code : List Nat) : Head :=
  { page := 3, mode := 0, flags := 0, vlen := 1000, gcount := 16, dictSize := 0, nmembers := 1, instrOff := 64
    instrCount := code.length, sealParam := 0, imageBytes := 4096, members := [], code }

/-- A revocation of keys that stand in every slot held, none of them revoked before. -/
theorem notRefused {v m r : Nat} (h0 : v &&& m ≠ 0) (h : r ||| v &&& m = m) :
    ¬(v &&& m = 0 ∨ ∃ k, m.testBit k = true ∧ (r ||| v &&& m).testBit k = false) := by
  rintro (a | ⟨k, a, b⟩)
  · exact h0 a
  · rw [h, a] at b; cases b

/-! ### Ill-formed commands, one for each check -/

/-- A request whose fields fit. -/
def rq0 : Req :=
  { port := 0, v6 := false, addr := 1, udp := 2, ver := 1, session := 1, seq := 1, ctr := 0, tag := 0 }
theorem test_wf_request : (Instr.enable rq0 0).wellFormed = true := by decide
theorem test_wf_v4_address : (Instr.enable { rq0 with addr := 2 ^ 32 } 0).wellFormed = false := by decide
theorem test_wf_v6_address :
    (Instr.enable { rq0 with addr := 2 ^ 32, v6 := true } 0).wellFormed = true ∧
    (Instr.enable { rq0 with addr := 2 ^ 128, v6 := true } 0).wellFormed = false := by decide
theorem test_wf_udp_port : (Instr.enable { rq0 with udp := 2 ^ 16 } 0).wellFormed = false := by decide
theorem test_wf_tag : (Instr.enable { rq0 with tag := 2 ^ 128 } 0).wellFormed = false := by decide
theorem test_wf_write (p : Bytes) (h : p.length = 65512) : (Instr.write rq0 0 0 p).wellFormed = false := by
  simp [Instr.wellFormed, Instr.operandsOk, payloadFits, h]
theorem test_wf_read (p : Bytes) (h : p.length = 65512) : (Instr.read rq0 0 0 p).wellFormed = false := by
  simp [Instr.wellFormed, Instr.operandsOk, payloadFits, h]
theorem test_wf_open (p : Bytes) (h : p.length = 65508) : (Instr.openSession rq0 1 0 p).wellFormed = false := by
  simp [Instr.wellFormed, Instr.operandsOk, payloadFits, h]
theorem test_wf_write_block (p : Bytes) (h : p.length = 65496) : (Instr.writeBlock rq0 0xE000 3 0 0 0 p .clean).wellFormed = false := by
  simp [Instr.wellFormed, Instr.operandsOk, payloadFits, h]
theorem test_wf_boot_stage (p : Bytes) (h : p.length = 65496) : (Instr.bootStageWrite rq0 0 0 p).wellFormed = false := by
  simp [Instr.wellFormed, Instr.operandsOk, payloadFits, h]
theorem test_wf_bypass : (Instr.bypass 4).wellFormed = false ∧ (Instr.bypass 5).wellFormed = true := by decide

/-! ### Worked examples of the spec and boundary values of its rules -/

/-- 00_scope.md: a strobe 1,562.5 ps after cycle start is the code 0x0000_0A00. -/
theorem test_strobe_code : fsToCode 1562500 = 0xA00 := by decide
/-- R48: code 64 reads 39,063 fs, and writing that back selects the same code. -/
theorem test_code_reads_fs : codeToFs 64 = 39063 ∧ fsToCode 39063 = 64 := by decide
/-- 09_pacer_datapath.md: 2^70 moved with S = -8 gives 0x4000_0000, 2^71 − 2^62 gives 0x7FC0_0000. -/
theorem test_scaled_move : scaledMove (BitVec.ofInt 72 (2 ^ 70)) (-8) = (0x40000000#32, false) ∧
    scaledMove (BitVec.ofInt 72 (2 ^ 71 - 2 ^ 62)) (-8) = (0x7FC00000#32, false) := by decide +kernel
/-- 09_pacer_datapath.md: in a window of base 0x1000 and length 128, 0x10F0 stepped by 32 wraps to the base, with CIRC. -/
theorem test_delay_line :
    (match postMode 1 3 0 { pt := Vector.replicate 8 0x10F0, ds := Vector.replicate 8 32
                            cw := Vector.replicate 8 0x10000080 } with
      | .ok q => q.ptr 3 == 0x1000#16 && q.sr.getLsbD 26
      | .error _ => false) = true := by decide +kernel
/-- R299's CRC-16 and R85's CRC-32C of nothing. -/
theorem test_crc32c_empty : crc32c [] = 0 := by decide
/-- 11_starter_and_result_queues.md: B, D, A are read before C. -/
theorem test_read_order :
    ((takeItems 3 0 [{ words := [0x644000] }, { words := [0x74000, 1] }, { words := [0x71000, 2] }, { words := [0x74000, 3] }]).1.map
      (·.words)) = [[0x71000, 2], [0x644000], [0x74000, 1]] := by decide +kernel

/-- 12_time_unit.md: TIME_SLEW_PPM 100 removes 1,717,986 units a tick. -/
theorem test_slew_step : slewStep (wr K.timeSlewPpm 100 {}) = 1717986 := by decide +kernel

/-! ### One step -/

theorem test_idle : step {} = .next {} := rfl
theorem test_step_takes_front :
    step { pending := [.relayFail, .relayStart] } = exec .relayFail { pending := [.relayStart] } := rfl
theorem test_front_is_placed : State.withFetchWord {} 8 0 = {} := rfl

/-! ### Witnesses of the statements' hypotheses -/

namespace Witness.StepTakesFront
def q : State := { pending := [.relayFail, .relayFail] }
theorem witness_StepTakesFront : ∃ (c : Instr) (rest : List Instr) (s : State), s.pending = c :: rest :=
  ⟨.relayFail, [.relayFail], q, (by decide +kernel)⟩
end Witness.StepTakesFront

namespace Witness.CommandsComplete
def s1 : State :=
  {}
theorem witness_CommandsComplete : ∃ (s : State), s.pending = [] :=
  ⟨s1, (by decide +kernel)⟩
end Witness.CommandsComplete

namespace Witness.ResetLeavesDefaults
theorem witness_ResetLeavesDefaults : ∃ (k : Nat), k ≠ K.startStep :=
  ⟨0, (by decide +kernel)⟩
end Witness.ResetLeavesDefaults

namespace Witness.StepKeepsInvariant
def i8 : State :=
  { pending := [.relayFail], dram := { mem := [(0, 7), (2 ^ 37 - 1, 9)] }, sessions := List.replicate 8 (sess 1) }
theorem witness_StepKeepsInvariant : ∃ (s t : State), Machine.Inv s ∧ s.dram.mem ≠ [] ∧ s.sessions.length = 8 ∧ step s = .next t :=
  ⟨i8, _, ⟨by decide +kernel, by decide +kernel⟩, by decide +kernel, by decide +kernel, rfl⟩
end Witness.StepKeepsInvariant

namespace Witness.CommandsKeepTheQueue
theorem witness_CommandsKeepTheQueue : ∃ (c : Instr) (s : State) (t : State), exec c s = Host.Outcome.next t :=
  ⟨.relayFail, {}, _, rfl⟩
end Witness.CommandsKeepTheQueue

namespace Witness.PlainObjectsStoreAndRead
def s1 : State :=
  { objs := [(K.ethLink 0, 1), (K.startStep, 8)], sessions := [{ sess 1 with expert := true }] }
def v2 : ObjRow :=
  { base := 12288, n := 16, lo := 32, subs := 16, ty := .u32, acc := .rws, lev := 1, rng := [], mask := 16777215 }
def s3 : State :=
  { objs := [(K.ethLink 0, 1), (K.startStep, 8)], sessions := [sess 1] }
theorem witness_PlainObjectsStoreAndRead :
    (∃ (index : BitVec 16) (sub : BitVec 8) (p : Bytes) (row : ObjRow), plainObj (index.toNat * 256 + sub.toNat) = true
      ∧ objRow index.toNat sub.toNat = some row ∧ HostMeets opWrite (index.toNat * 256 + sub.toNat) p 0 (decide (1 ≤
      row.lev)) fun x s => roleOk x.role (index.toNat * 256 + sub.toNat) row s = true ∧ row.ty.lengthOk (List.length p)
      = true ∧ rangeOk row (leNat p) = true ∧ wordRange (index.toNat * 256 + sub.toNat) (valueOf row p) = true ∧
      (row.acc = ObjAcc.rws → stopped (index.toNat * 256 + sub.toNat) s = true) ∧ memberSeq (index.toNat * 256 +
      sub.toNat) s = false) ∧
    (∃ (index : BitVec 16) (sub : BitVec 8) (row : ObjRow), plainObj (index.toNat * 256 + sub.toNat) = true ∧ objRow
      index.toNat sub.toNat = some row ∧ HostMeets opRead (index.toNat * 256 + sub.toNat) [] 0 false fun x s =>
      row.ty.size ≤ answerMax x s) :=
  ⟨⟨12288, ⟨32, ⟨[0, 0, 0, 0], ⟨v2, ⟨(by decide +kernel), ⟨(by decide +kernel), (hostMeets s1 (by decide +kernel)
     (by decide +kernel))⟩⟩⟩⟩⟩⟩,
   ⟨12288, ⟨32, ⟨v2, ⟨(by decide +kernel), ⟨(by decide +kernel), (hostMeets s3 (by decide +kernel)
     (by decide +kernel))⟩⟩⟩⟩⟩⟩
end Witness.PlainObjectsStoreAndRead

namespace Witness.GateScreensRequests
/-- A session that has accepted a protected frame of counter 7, and a request that repeats that counter. -/
def xc : Session := { sess 2 with ctrHigh := 7, ctrSeen := [7] }
def rc : Req :=
  { port := 0, v6 := false, addr := 1, udp := 2, ver := 1, session := 1, seq := 6, ctr := 7, tag := 50 }
def sc : State := { objs := [(K.ethLink 0, 1), (K.startStep, 8)], sessions := [xc] }
/-- A session whose record holds an executed write, and the request that repeats it. -/
def er : RecEnt := { seq := 5, op := opWrite, key := 0x500009, status := 0, payload := some [1], length := 1 }
def xr : Session := { sess 1 with recs := [er] }
def rr : Req :=
  { port := 0, v6 := false, addr := 1, udp := 2, ver := 1, session := 1, seq := 5, ctr := 1, tag := 50 }
def sr : State := { objs := [(K.ethLink 0, 1), (K.startStep, 8)], sessions := [xr] }
def sn : State := { objs := [(K.ethLink 0, 1), (K.startStep, 8)], sessions := [sess 1] }
def s1 : State :=
  {}
def v2 : Req :=
  { port := 0, v6 := false, addr := 1, udp := 2, ver := 1, session := 1, seq := 6, ctr := 1, tag := 50 }
def s3 : State :=
  { objs := [(K.ethLink 0, 1), (K.startStep, 8)] }
def v4 : Req :=
  { port := 0, v6 := false, addr := 1, udp := 2, ver := 2, session := 1, seq := 6, ctr := 1, tag := 50 }
def v5 : Req :=
  { port := 0, v6 := false, addr := 1, udp := 2, ver := 1, session := 9, seq := 6, ctr := 1, tag := 50 }
def s6 : State :=
  { objs := [(K.ethLink 0, 1), (K.startStep, 8)], sessions := [sess 1] }
def v7 : Req :=
  { port := 0, v6 := false, addr := 1, udp := 2, ver := 1, session := 1, seq := 100, ctr := 1, tag := 50 }
def s8 : State :=
  { objs := [(K.ethLink 0, 1), (K.startStep, 8)],
    sessions := [{ sess 1 with recs := [{ seq := 5, op := 4, key := 5242889, length := 1, status := 0,
                                          payload := some [] }] }] }
def v9 : Req :=
  { port := 0, v6 := false, addr := 1, udp := 2, ver := 1, session := 1, seq := 5, ctr := 1, tag := 50 }
def v10 : Session :=
  { sess 1 with recs := [{ seq := 5, op := 4, key := 5242889, length := 1, status := 0, payload := some [] }] }
def v11 : RecEnt :=
  { seq := 5, op := 4, key := 5242889, length := 1, status := 0, payload := some [] }
def s12 : State :=
  { objs := [(K.ethLink 0, 1), (K.startStep, 8)], sessions := [sess 0] }
def v13 : ObjRow :=
  { base := 20480, n := 16, lo := 5, subs := 1, ty := .u64, acc := .ro, lev := 1, rng := [], mask := 0 }
def v14 : ObjRow :=
  { base := 16384, n := 16, lo := 8, subs := 1, ty := .u64, acc := .rws, lev := 1, rng := [], mask := 0 }
def v15 : ObjRow :=
  { base := 20480, n := 16, lo := 9, subs := 1, ty := .bool, acc := .rw, lev := 0, rng := [], mask := 0 }
def v16 : ObjRow :=
  { base := 16384, n := 16, lo := 6, subs := 1, ty := .u16, acc := .rw, lev := 0,
    rng := [(0, 4095), (65535, 65535)], mask := 0 }
def s17 : State :=
  { objs := [(K.ethLink 0, 1), (K.runState 0, 3), (K.startStep, 8)], sessions := [sess 1] }
def v18 : ObjRow :=
  { base := 16384, n := 16, lo := 16, subs := 1, ty := .u8, acc := .rws, lev := 0, rng := [(0, 2)], mask := 0 }
theorem witness_GateScreensRequests :
    (∃ (r : Req) (s : State), portOpen (↑r.port) s = false) ∧
    (∃ (r : Req) (p : Bytes) (s : State), portOpen (↑r.port) s = true ∧ ¬frameBytes r p s ≤ mtu (↑r.port) s) ∧
    (∃ (r : Req) (p : Bytes) (s : State), portOpen (↑r.port) s = true ∧ frameBytes r p s ≤ mtu (↑r.port) s ∧ r.ver ≠ 1) ∧
    (∃ (r : Req) (p : Bytes) (s : State), portOpen (↑r.port) s = true ∧ frameBytes r p s ≤ mtu (↑r.port) s ∧ r.ver = 1
      ∧ List.find? (bound r) s.sessions = none) ∧
    (∃ (r : Req) (index : BitVec 16) (sub : BitVec 8) (p : Bytes) (s : State) (x : Session), portOpen (↑r.port) s =
      true ∧ frameBytes r p s ≤ mtu (↑r.port) s ∧ r.ver = 1 ∧ List.find? (bound r) s.sessions = some x ∧ session x.id s
      = some x ∧ frameOk x r opWrite (index.toNat * 256 + sub.toNat) p = false) ∧
    (∃ (r : Req) (index : BitVec 16) (sub : BitVec 8) (p : Bytes) (s : State) (x : Session), portOpen (↑r.port) s =
      true ∧ frameBytes r p s ≤ mtu (↑r.port) s ∧ r.ver = 1 ∧ List.find? (bound r) s.sessions = some x ∧ session x.id s
      = some x ∧ frameOk x r opWrite (index.toNat * 256 + sub.toNat) p = true ∧ (seqDiff r x < -63 ∨ 64 < seqDiff r x)) ∧
    (∃ (r : Req) (index : BitVec 16) (sub : BitVec 8) (p : Bytes) (s : State) (x : Session), portOpen (↑r.port) s =
      true ∧ frameBytes r p s ≤ mtu (↑r.port) s ∧ r.ver = 1 ∧ List.find? (bound r) s.sessions = some x ∧ session x.id s
      = some x ∧ ∃ (e : RecEnt), frameOk x r opWrite (index.toNat * 256 + sub.toNat) p = true ∧ -63 ≤ seqDiff r x ∧
      seqDiff r x ≤ 0 ∧ recordOf r.seq x = some e ∧ (e.op ≠ opWrite ∨ e.key ≠ index.toNat * 256 + sub.toNat ∨ e.length ≠
      List.length p)) ∧
    (∃ (r : Req) (index : BitVec 16) (sub : BitVec 8) (p : Bytes) (s : State) (x : Session), portOpen (↑r.port) s =
      true ∧ frameBytes r p s ≤ mtu (↑r.port) s ∧ r.ver = 1 ∧ List.find? (bound r) s.sessions = some x ∧ session x.id s
      = some x ∧ ∃ (e : RecEnt), frameOk x r opWrite (index.toNat * 256 + sub.toNat) p = true ∧ -63 ≤ seqDiff r x ∧
      seqDiff r x ≤ 0 ∧ recordOf r.seq x = some e ∧ ∃ (b : Bytes), e.op = opWrite ∧ e.key = index.toNat * 256 +
      sub.toNat ∧ e.length = List.length p ∧ e.payload = some b) ∧
    (∃ (index : BitVec 16) (sub : BitVec 8) (p : Bytes), ReqMeets opWrite (index.toNat * 256 + sub.toNat) p fun _ _ s
      => indexExists (index.toNat * 256 + sub.toNat) s = false ∧ classF (index.toNat * 256 + sub.toNat) = false) ∧
    (∃ (index : BitVec 16) (sub : BitVec 8) (p : Bytes), HostMeets opWrite (index.toNat * 256 + sub.toNat) p 0 false
      fun _ _ => index ≠ 6144 ∧ classF (index.toNat * 256 + sub.toNat) = false ∧ isCapIndex index.toNat = false ∧ objRow
      index.toNat sub.toNat = none) ∧
    (∃ (index : BitVec 16) (sub : BitVec 8) (p : Bytes) (row : ObjRow), objRow index.toNat sub.toNat = some row ∧ index
      ≠ 6144 ∧ index.toNat * 256 + sub.toNat ≠ K.bootStage ∧ classF (index.toNat * 256 + sub.toNat) = false ∧ isCapIndex
      index.toNat = false ∧ HostMeets opWrite (index.toNat * 256 + sub.toNat) p 0 false fun x s => roleOk x.role
      (index.toNat * 256 + sub.toNat) row s = false) ∧
    (∃ (index : BitVec 16) (sub : BitVec 8) (p : Bytes) (row : ObjRow), objRow index.toNat sub.toNat = some row ∧ index
      ≠ 6144 ∧ index.toNat * 256 + sub.toNat ≠ K.bootStage ∧ classF (index.toNat * 256 + sub.toNat) = false ∧ isCapIndex
      index.toNat = false ∧ HostMeets opWrite (index.toNat * 256 + sub.toNat) p 0 false fun x s => roleOk x.role
      (index.toNat * 256 + sub.toNat) row s = true ∧ row.acc = ObjAcc.ro) ∧
    (∃ (index : BitVec 16) (sub : BitVec 8) (p : Bytes) (row : ObjRow), objRow index.toNat sub.toNat = some row ∧ index
      ≠ 6144 ∧ index.toNat * 256 + sub.toNat ≠ K.bootStage ∧ classF (index.toNat * 256 + sub.toNat) = false ∧ isCapIndex
      index.toNat = false ∧ HostMeets opWrite (index.toNat * 256 + sub.toNat) p 0 false fun x s => roleOk x.role
      (index.toNat * 256 + sub.toNat) row s = true ∧ row.acc ≠ ObjAcc.ro ∧ 1 ≤ row.lev ∧ x.expert = false) ∧
    (∃ (index : BitVec 16) (sub : BitVec 8) (p : Bytes) (row : ObjRow), objRow index.toNat sub.toNat = some row ∧ index
      ≠ 6144 ∧ index.toNat * 256 + sub.toNat ≠ K.bootStage ∧ classF (index.toNat * 256 + sub.toNat) = false ∧ isCapIndex
      index.toNat = false ∧ HostMeets opWrite (index.toNat * 256 + sub.toNat) p 0 (decide (1 ≤ row.lev)) fun x s =>
      roleOk x.role (index.toNat * 256 + sub.toNat) row s = true ∧ row.acc ≠ ObjAcc.ro ∧ row.ty.lengthOk (List.length p)
      = false) ∧
    (∃ (index : BitVec 16) (sub : BitVec 8) (p : Bytes) (row : ObjRow), objRow index.toNat sub.toNat = some row ∧ index
      ≠ 6144 ∧ index.toNat * 256 + sub.toNat ≠ K.bootStage ∧ classF (index.toNat * 256 + sub.toNat) = false ∧ isCapIndex
      index.toNat = false ∧ plainObj (index.toNat * 256 + sub.toNat) = true ∧ HostMeets opWrite (index.toNat * 256 +
      sub.toNat) p 0 (decide (1 ≤ row.lev)) fun x s => roleOk x.role (index.toNat * 256 + sub.toNat) row s = true ∧
      row.acc ≠ ObjAcc.ro ∧ row.ty.lengthOk (List.length p) = true ∧ (rangeOk row (leNat p) && wordRange (index.toNat *
      256 + sub.toNat) (valueOf row p)) = false) ∧
    (∃ (index : BitVec 16) (sub : BitVec 8) (p : Bytes) (row : ObjRow), objRow index.toNat sub.toNat = some row ∧ index
      ≠ 6144 ∧ index.toNat * 256 + sub.toNat ≠ K.bootStage ∧ classF (index.toNat * 256 + sub.toNat) = false ∧ isCapIndex
      index.toNat = false ∧ plainObj (index.toNat * 256 + sub.toNat) = true ∧ HostMeets opWrite (index.toNat * 256 +
      sub.toNat) p 0 (decide (1 ≤ row.lev)) fun x s => roleOk x.role (index.toNat * 256 + sub.toNat) row s = true ∧
      row.acc = ObjAcc.rws ∧ row.ty.lengthOk (List.length p) = true ∧ (rangeOk row (leNat p) && wordRange (index.toNat *
      256 + sub.toNat) (valueOf row p)) = true ∧ stopped (index.toNat * 256 + sub.toNat) s = false) :=
  ⟨⟨v2, ⟨s1, (by decide +kernel)⟩⟩,
   ⟨v2, ⟨(List.replicate 1600 0), ⟨s3, (by decide +kernel)⟩⟩⟩,
   ⟨v4, ⟨[0], ⟨s3, (by decide +kernel)⟩⟩⟩,
   ⟨v5, ⟨[0], ⟨s3, (by decide +kernel)⟩⟩⟩,
   ⟨rc, 0x5000, 9, [1], sc, xc, (by decide +kernel)⟩,
   ⟨v7, ⟨20480, ⟨0, ⟨[0], ⟨s6, ⟨sess 1, (by decide +kernel)⟩⟩⟩⟩⟩⟩,
   ⟨v9, ⟨20480, ⟨0, ⟨[0], ⟨s8, ⟨v10, ⟨(by decide +kernel), ⟨(by decide +kernel), ⟨(by decide +kernel),
     ⟨(by decide +kernel), ⟨(by decide +kernel), ⟨v11, (by decide +kernel)⟩⟩⟩⟩⟩⟩⟩⟩⟩⟩⟩⟩,
   ⟨rr, 0x5000, 9, [1], sr, xr,
     by decide +kernel, by decide +kernel, by decide +kernel, by decide +kernel, by decide +kernel, er, by decide +kernel, by decide +kernel, by decide +kernel, by decide +kernel, [1], by decide +kernel, by decide +kernel, by decide +kernel, by decide +kernel⟩,
   ⟨0x7FFF, 1, [1], reqMeets sn (by decide +kernel) (by decide +kernel)⟩,
   ⟨20480, ⟨0, ⟨[0], (hostMeets s6 (by decide +kernel) (by decide +kernel))⟩⟩⟩,
   ⟨20480, ⟨5, ⟨[0], ⟨v13, ⟨(by decide +kernel), ⟨(by decide +kernel), ⟨(by decide +kernel), ⟨(by decide +kernel),
     ⟨(by decide +kernel), (hostMeets s12 (by decide +kernel) (by decide +kernel))⟩⟩⟩⟩⟩⟩⟩⟩⟩,
   ⟨20480, ⟨5, ⟨[0], ⟨v13, ⟨(by decide +kernel), ⟨(by decide +kernel), ⟨(by decide +kernel), ⟨(by decide +kernel),
     ⟨(by decide +kernel), (hostMeets s6 (by decide +kernel) (by decide +kernel))⟩⟩⟩⟩⟩⟩⟩⟩⟩,
   ⟨16384, ⟨8, ⟨[0], ⟨v14, ⟨(by decide +kernel), ⟨(by decide +kernel), ⟨(by decide +kernel), ⟨(by decide +kernel),
     ⟨(by decide +kernel), (hostMeets s6 (by decide +kernel) (by decide +kernel))⟩⟩⟩⟩⟩⟩⟩⟩⟩,
   ⟨20480, ⟨9, ⟨[1, 2], ⟨v15, ⟨(by decide +kernel), ⟨(by decide +kernel), ⟨(by decide +kernel), ⟨(by decide +kernel),
     ⟨(by decide +kernel), (hostMeets s6 (by decide +kernel) (by decide +kernel))⟩⟩⟩⟩⟩⟩⟩⟩⟩,
   ⟨16384, ⟨6, ⟨[255, 20], ⟨v16, ⟨(by decide +kernel), ⟨(by decide +kernel), ⟨(by decide +kernel),
     ⟨(by decide +kernel), ⟨(by decide +kernel), ⟨(by decide +kernel), (hostMeets s6 (by decide +kernel)
     (by decide +kernel))⟩⟩⟩⟩⟩⟩⟩⟩⟩⟩,
   ⟨16384, ⟨16, ⟨[0], ⟨v18, ⟨(by decide +kernel), ⟨(by decide +kernel), ⟨(by decide +kernel), ⟨(by decide +kernel),
     ⟨(by decide +kernel), ⟨(by decide +kernel), (hostMeets s17 (by decide +kernel) (by decide +kernel))⟩⟩⟩⟩⟩⟩⟩⟩⟩⟩⟩
end Witness.GateScreensRequests

namespace Witness.SessionsOpenAndEnd
def c : State := { objs := [(K.ethLink 0, 1), (K.startStep, 8)], sessions := [sess 1] }
def s1 : State :=
  { objs := [(K.ethLink 0, 1), (K.startStep, 8)] }
def v2 : Req :=
  { port := 0, v6 := false, addr := 1, udp := 2, ver := 1, session := 0, seq := 6, ctr := 1, tag := 49 }
def s3 : State :=
  { objs := [(K.ethLink 0, 1), (K.startStep, 8)],
    sessions := [{ id := 1, port := 0, v6 := false, addr := 50, udp := 2, role := 1, s0 := 0, opened := 0,
                   last := 0, h := 5 },
                 { id := 2, port := 0, v6 := false, addr := 51, udp := 2, role := 1, s0 := 0, opened := 0,
                   last := 0, h := 5 },
                 { id := 3, port := 0, v6 := false, addr := 52, udp := 2, role := 1, s0 := 0, opened := 0,
                   last := 0, h := 5 },
                 { id := 4, port := 0, v6 := false, addr := 53, udp := 2, role := 1, s0 := 0, opened := 0,
                   last := 0, h := 5 },
                 { id := 5, port := 0, v6 := false, addr := 54, udp := 2, role := 1, s0 := 0, opened := 0,
                   last := 0, h := 5 },
                 { id := 6, port := 0, v6 := false, addr := 55, udp := 2, role := 1, s0 := 0, opened := 0,
                   last := 0, h := 5 },
                 { id := 7, port := 0, v6 := false, addr := 56, udp := 2, role := 1, s0 := 0, opened := 0,
                   last := 0, h := 5 },
                 { id := 8, port := 0, v6 := false, addr := 57, udp := 2, role := 1, s0 := 0, opened := 0,
                   last := 0, h := 5 }] }
def s4 : State :=
  { objs := [(K.ethLink 0, 1), (K.startStep, 8)],
    sessions := [{ id := 1, port := 0, v6 := false, addr := 1, udp := 2, role := 1, s0 := 6, opened := 0,
                   last := 0, h := 5 }] }
def v5 : Session :=
  { id := 1, port := 0, v6 := false, addr := 1, udp := 2, role := 1, s0 := 6, opened := 0, last := 0, h := 5 }
def s6 : State :=
  { time := { sys := 40000000000 }, sessions := [sess 1] }
def s7 : State :=
  { sessions := [{ id := 1, port := 0, v6 := false, addr := 1, udp := 2, role := 1, s0 := 6, opened := 0,
                   last := 0, h := 5 }] }
theorem witness_SessionsOpenAndEnd :
    (∃ (r : Req) (s : State), portOpen (↑r.port) s = true ∧ overhead r.v6 + 4 ≤ mtu (↑r.port) s ∧ r.ver = 1 ∧ r.session
      = 0 ∧ List.find? (sameOpen r s) s.sessions = none ∧ s.sessions.length < 8 ∧ 1 ≤ s.baton.nextId ∧ s.baton.nextId ≤
      65534 ∧ idFree s.baton.nextId s = true) ∧
    (∃ (r : Req) (s : State), portOpen (↑r.port) s = true ∧ overhead r.v6 + 4 ≤ mtu (↑r.port) s ∧ r.ver = 1 ∧ r.session
      = 0 ∧ List.find? (sameOpen r s) s.sessions = none ∧ 8 ≤ s.sessions.length) ∧
    (∃ (r : Req) (s : State), portOpen (↑r.port) s = true ∧ overhead r.v6 + 4 ≤ mtu (↑r.port) s ∧ r.ver = 1 ∧ r.session
      = 0 ∧ ∃ (x : Session), List.find? (sameOpen r s) s.sessions = some x) ∧
    (ReqMeets opClose 0 [] fun _ _ _ => True) ∧
    (∃ (r : Req) (s : State), portOpen (↑r.port) s = true ∧ overhead r.v6 ≤ mtu (↑r.port) s ∧ r.ver = 1 ∧ List.find?
      (bound r) s.sessions = none ∧ session r.session s = none) ∧
    (∃ (id : BitVec 16) (x : Session) (s : State), session id s = some x ∧ x.last + 1000000000 * rd K.batonTimeoutS s ≤
      s.time.sys) ∧
    (∃ (id : BitVec 16) (x : Session) (s : State), session id s = some x ∧ s.time.sys < x.last + 1000000000 * rd
      K.batonTimeoutS s) :=
  ⟨⟨v2, ⟨s1, (by decide +kernel)⟩⟩,
   ⟨v2, ⟨s3, (by decide +kernel)⟩⟩,
   ⟨v2, ⟨s4, ⟨(by decide +kernel), ⟨(by decide +kernel), ⟨(by decide +kernel), ⟨(by decide +kernel), ⟨v5,
     (by decide +kernel)⟩⟩⟩⟩⟩⟩⟩,
   reqMeets c (by decide +kernel) trivial,
   ⟨v2, ⟨s1, (by decide +kernel)⟩⟩,
   ⟨1, ⟨sess 1, ⟨s6, (by decide +kernel)⟩⟩⟩,
   ⟨1, ⟨v5, ⟨s7, (by decide +kernel)⟩⟩⟩⟩
end Witness.SessionsOpenAndEnd

namespace Witness.BlockTransfers
def s1 : State :=
  { objs := [(K.ethLink 0, 1), (K.dramMappedBytes, 2000), (K.dramReady, 1), (K.startStep, 8)],
    sessions := [{ sess 1 with expert := true }] }
def s2 : State :=
  { objs := [(K.ethLink 0, 1), (K.startStep, 8)], sessions := [{ sess 1 with expert := true }] }
def s3 : State :=
  { objs := [(K.ethLink 0, 1), (K.dramMappedBytes, 20000), (K.startStep, 8)],
    sessions := [{ sess 1 with expert := true }] }
def s4 : State :=
  { objs := [(K.ethLink 0, 1), (K.dramMappedBytes, 2000), (K.dramReady, 1), (K.startStep, 8)], sessions := [sess 1] }
theorem witness_BlockTransfers :
    (∃ (offset : BitVec 64) (data : Bytes), HostMeets opWriteBlock K.dramSpace (blockPrefix offset.toNat 0 0 ++ data) 1
      true fun x s => (data ≠ [] ∧ List.length data ≤ maxData x.port x.v6 x.auth s) ∧ mapped offset.toNat (List.length
      data) s = true ∧ rd K.dramReady s = 1 ∧ s.dram.bad = []) ∧
    (∃ (offset : BitVec 64) (data : Bytes), HostMeets opWriteBlock K.dramSpace (blockPrefix offset.toNat 0 0 ++ data) 1
      true fun x s => (data ≠ [] ∧ List.length data ≤ maxData x.port x.v6 x.auth s) ∧ mapped offset.toNat (List.length
      data) s = false) ∧
    (∃ (offset : BitVec 64) (data : Bytes), ReqMeets opWriteBlock K.dramSpace (blockPrefix offset.toNat 0 0 ++ data)
      fun _ x s => indexExists K.dramSpace s = true ∧ 1 ≤ x.role ∧ x.expert = true ∧ (data ≠ [] ∧ List.length data ≤
      maxData x.port x.v6 x.auth s) ∧ mapped offset.toNat (List.length data) s = true ∧ rd K.dramReady s = 0) ∧
    (∃ (offset : BitVec 64) (n : BitVec 32), HostMeets opReadBlock K.dramSpace (blockPrefix offset.toNat n.toNat 0) 0
      false fun x s => 1 ≤ n.toNat ∧ n.toNat ≤ maxData x.port x.v6 x.auth s ∧ mapped offset.toNat n.toNat s = true ∧ rd
      K.dramReady s = 1 ∧ s.dram.bad = []) ∧
    (∃ (n : Fin 256) (offset : BitVec 64) (data : Bytes), HostMeets opWriteBlock (K.tsTable ↑n) (blockPrefix
      offset.toNat 2304 0 ++ data) 1 true fun x s => data ≠ [] ∧ List.length data ≤ maxData x.port x.v6 x.auth s ∧
      offset.toNat + List.length data ≤ 2304 ∧ List.length data < 2304 ∧ x.staged = none) :=
  ⟨⟨0, ⟨[1], (hostMeets s1 (by decide +kernel) (by decide +kernel))⟩⟩,
   ⟨0, ⟨[1], (hostMeets s2 (by decide +kernel) (by decide +kernel))⟩⟩,
   ⟨0, ⟨[1], (reqMeets s3 (by decide +kernel) (by decide +kernel))⟩⟩,
   ⟨0, ⟨1, (hostMeets s4 (by decide +kernel) (by decide +kernel))⟩⟩,
   ⟨0, ⟨0, ⟨[1], (hostMeets s2 (by decide +kernel) (by decide +kernel))⟩⟩⟩⟩
end Witness.BlockTransfers

namespace Witness.SubscriptionsAndPorts
def s1 : State :=
  { objs := [(K.ethLink 0, 1), (K.startStep, 8)], sessions := [sess 1] }
def v2 : ObjRow :=
  { base := 20480, n := 16, lo := 3, subs := 1, ty := .u32, acc := .ro, lev := 0, rng := [], mask := 0 }
def s3 : State :=
  { objs := [(K.ethLink 0, 1), (K.startStep, 8)],
    sessions := [{ sess 1 with subs := [{ key := 5242883, ptr := 4294967295 }] }] }
def s4 : State :=
  { objs := [(K.ethLink 0, 1), (K.startStep, 8)],
    sessions := [{ sess 1 with subs := (List.range 256).map fun i => { key := 4194304 + i, ptr := 4294967295 } }] }
def v5 : ObjRow :=
  { base := 20480, n := 16, lo := 2, subs := 1, ty := .u8, acc := .wo, lev := 0, rng := [], mask := 0 }
def v6 : Req :=
  { port := 0, v6 := false, addr := 1, udp := 2, ver := 1, session := 1, seq := 2, ctr := 1, tag := 49 }
def s7 : State :=
  { time := { sys := 10000000000 },
    sessions := [{ sess 1 with pend := [{ seq := 2, key := 5242883, ptr := 4294967295, value := [],
                                          event := false, sends := 5 },
                                        { seq := 3, key := 5242883, ptr := 4294967295, value := [],
                                          event := false },
                                        { seq := 4, key := 5242883, ptr := 4294967295, value := [],
                                          event := false, sends := 4 },
                                        { seq := 3, key := 5242883, ptr := 4294967295, value := [],
                                          event := false, sends := 5 }] }] }
def v8 : Session :=
  { sess 1 with pend := [{ seq := 2, key := 5242883, ptr := 4294967295, value := [], event := false,
                           sends := 5 },
                         { seq := 3, key := 5242883, ptr := 4294967295, value := [], event := false },
                         { seq := 4, key := 5242883, ptr := 4294967295, value := [], event := false,
                           sends := 4 },
                         { seq := 3, key := 5242883, ptr := 4294967295, value := [], event := false,
                           sends := 5 }] }
def v9 : Notify :=
  { seq := 3, key := 5242883, ptr := 4294967295, value := [], event := false }
def v10 : Notify :=
  { seq := 2, key := 5242883, ptr := 4294967295, value := [], event := false, sends := 5 }
def s11 : State :=
  { sessions := [{ sess 1 with subs := [{ key := 5242883, ptr := 4294967295 }] }] }
def v12 : Session :=
  { sess 1 with subs := [{ key := 5242883, ptr := 4294967295 }] }
def s13 : State :=
  { objs := [(K.peErr 0, 5)],
    sessions := [{ sess 1 with subs := [{ key := 5242883, ptr := 4294967295, last := [5, 0, 0, 0] }] }] }
def v14 : Session :=
  { sess 1 with subs := [{ key := 5242883, ptr := 4294967295, last := [5, 0, 0, 0] }] }
def v15 : Subscr :=
  { key := 5242883, ptr := 4294967295, last := [5, 0, 0, 0] }
def s16 : State :=
  {}
def s17 : State :=
  { objs := [(K.fltFenced, 2 ^ 36)] }
def s18 : State :=
  { objs := [(K.ethLink 0, 1), (K.startStep, 8)] }
theorem witness_SubscriptionsAndPorts :
    (∃ (index : BitVec 16) (sub : BitVec 8) (row : ObjRow), objRow index.toNat sub.toNat = some row ∧ isCapIndex
      index.toNat = false ∧ classF (index.toNat * 256 + sub.toNat) = false ∧ subscribable (index.toNat * 256 +
      sub.toNat) row = true ∧ HostMeets opSubscribe (index.toNat * 256 + sub.toNat) (leBytes 1 1 ++ leBytes 3 0) 0 false
      fun x _ => x.subs.length < 256 ∧ ∀ (u : Subscr), u ∈ x.subs → ¬(u.key = index.toNat * 256 + sub.toNat ∧ u.ptr =
      ptrOf (index.toNat * 256 + sub.toNat) x)) ∧
    (∃ (index : BitVec 16) (sub : BitVec 8) (row : ObjRow), objRow index.toNat sub.toNat = some row ∧ isCapIndex
      index.toNat = false ∧ classF (index.toNat * 256 + sub.toNat) = false ∧ subscribable (index.toNat * 256 +
      sub.toNat) row = true ∧ HostMeets opSubscribe (index.toNat * 256 + sub.toNat) (leBytes 1 1 ++ leBytes 3 0) 0 false
      fun x _ => ∃ (u : Subscr), u ∈ x.subs ∧ u.key = index.toNat * 256 + sub.toNat ∧ u.ptr = ptrOf (index.toNat * 256 +
      sub.toNat) x) ∧
    (∃ (index : BitVec 16) (sub : BitVec 8) (row : ObjRow), objRow index.toNat sub.toNat = some row ∧ isCapIndex
      index.toNat = false ∧ classF (index.toNat * 256 + sub.toNat) = false ∧ subscribable (index.toNat * 256 +
      sub.toNat) row = true ∧ HostMeets opSubscribe (index.toNat * 256 + sub.toNat) (leBytes 1 1 ++ leBytes 3 0) 0 false
      fun x _ => 256 ≤ x.subs.length ∧ ∀ (u : Subscr), u ∈ x.subs → ¬(u.key = index.toNat * 256 + sub.toNat ∧ u.ptr =
      ptrOf (index.toNat * 256 + sub.toNat) x)) ∧
    (∃ (index : BitVec 16) (sub : BitVec 8) (row : ObjRow), objRow index.toNat sub.toNat = some row ∧ isCapIndex
      index.toNat = false ∧ classF (index.toNat * 256 + sub.toNat) = false ∧ subscribable (index.toNat * 256 +
      sub.toNat) row = true ∧ HostMeets opSubscribe (index.toNat * 256 + sub.toNat) (leBytes 1 0 ++ leBytes 3 0) 0 false
      fun _ _ => True) ∧
    (∃ (index : BitVec 16) (sub : BitVec 8) (row : ObjRow), objRow index.toNat sub.toNat = some row ∧ isCapIndex
      index.toNat = false ∧ classF (index.toNat * 256 + sub.toNat) = false ∧ subscribable (index.toNat * 256 +
      sub.toNat) row = false ∧ HostMeets opSubscribe (index.toNat * 256 + sub.toNat) (leBytes 1 1 ++ leBytes 3 0) 0
      false fun _ _ => True) ∧
    (∃ (r : Req) (x : Session) (s : State), portOpen (↑r.port) s = true ∧ r.ver = 1 ∧ List.find? (bound r) s.sessions =
      some x ∧ session x.id s = some x ∧ frameOk x r (128 + opNotify) 0 [] = true) ∧
    (∃ (id : BitVec 16) (sq : BitVec 32) (x : Session) (n : Notify) (s : State), session id s = some x ∧ List.find?
      (fun (m : Notify) => m.seq == sq) x.pend = some n ∧ n.at0 + 1000000 * rd K.batonNotifyRetryMs s ≤ s.time.sys ∧
      n.sends < 5) ∧
    (∃ (id : BitVec 16) (sq : BitVec 32) (x : Session) (n : Notify) (s : State), session id s = some x ∧ List.find?
      (fun (m : Notify) => m.seq == sq) x.pend = some n ∧ n.at0 + 1000000 * rd K.batonNotifyRetryMs s ≤ s.time.sys ∧ 5 ≤
      n.sends) ∧
    (∃ (id : BitVec 16) (index : BitVec 16) (sub : BitVec 8) (x : Session) (u : Subscr) (s : State), session id s =
      some x ∧ List.filter (fun (w : Subscr) => w.key == index.toNat * 256 + sub.toNat) x.subs = [u] ∧ eventObj
      (index.toNat * 256 + sub.toNat) = false ∧ u.sentAt = none ∧ subValue (index.toNat * 256 + sub.toNat) u.ptr x s ≠
      u.last) ∧
    (∃ (id : BitVec 16) (index : BitVec 16) (sub : BitVec 8) (x : Session) (u : Subscr) (s : State), session id s =
      some x ∧ List.filter (fun (w : Subscr) => w.key == index.toNat * 256 + sub.toNat) x.subs = [u] ∧ eventObj
      (index.toNat * 256 + sub.toNat) = false ∧ u.sentAt = none ∧ subValue (index.toNat * 256 + sub.toNat) u.ptr x s =
      u.last) ∧
    (∃ (port : Fin 4) (s : State), fenced (36 + ↑port) s = false) ∧
    (∃ (port : Fin 4) (s : State), fenced (36 + ↑port) s = true) ∧
    (∃ (port : Fin 4) (s : State), portOpen (↑port) s = false) ∧
    (∃ (port : Fin 4) (f : NetFrame) (s : State), portOpen (↑port) s = true ∧ (f = NetFrame.arp ∨ f =
      NetFrame.neighbour ∨ f = NetFrame.echo)) ∧
    (∃ (port : Fin 4) (f : NetFrame) (s : State), portOpen (↑port) s = true ∧ (f = NetFrame.malformed ∨ f =
      NetFrame.fragment ∨ f = NetFrame.otherUdp)) :=
  ⟨⟨20480, ⟨3, ⟨v2, ⟨(by decide +kernel), ⟨(by decide +kernel), ⟨(by decide +kernel), ⟨(by decide +kernel), (hostMeets
     s1 (by decide +kernel) (by decide +kernel))⟩⟩⟩⟩⟩⟩⟩,
   ⟨20480, ⟨3, ⟨v2, ⟨(by decide +kernel), ⟨(by decide +kernel), ⟨(by decide +kernel), ⟨(by decide +kernel), (hostMeets
     s3 (by decide +kernel) (by decide +kernel))⟩⟩⟩⟩⟩⟩⟩,
   ⟨20480, ⟨3, ⟨v2, ⟨(by decide +kernel), ⟨(by decide +kernel), ⟨(by decide +kernel), ⟨(by decide +kernel), (hostMeets
     s4 (by decide +kernel) (by decide +kernel))⟩⟩⟩⟩⟩⟩⟩,
   ⟨20480, ⟨3, ⟨v2, ⟨(by decide +kernel), ⟨(by decide +kernel), ⟨(by decide +kernel), ⟨(by decide +kernel), (hostMeets
     s1 (by decide +kernel) (by decide +kernel))⟩⟩⟩⟩⟩⟩⟩,
   ⟨20480, ⟨2, ⟨v5, ⟨(by decide +kernel), ⟨(by decide +kernel), ⟨(by decide +kernel), ⟨(by decide +kernel), (hostMeets
     s1 (by decide +kernel) (by decide +kernel))⟩⟩⟩⟩⟩⟩⟩,
   ⟨v6, ⟨sess 1, ⟨s1, (by decide +kernel)⟩⟩⟩,
   ⟨1, ⟨3, ⟨v8, ⟨v9, ⟨s7, (by decide +kernel)⟩⟩⟩⟩⟩,
   ⟨1, ⟨2, ⟨v8, ⟨v10, ⟨s7, (by decide +kernel)⟩⟩⟩⟩⟩,
   ⟨1, ⟨20480, ⟨3, ⟨v12, ⟨{ key := 5242883, ptr := 4294967295 }, ⟨s11, (by decide +kernel)⟩⟩⟩⟩⟩⟩,
   ⟨1, ⟨20480, ⟨3, ⟨v14, ⟨v15, ⟨s13, (by decide +kernel)⟩⟩⟩⟩⟩⟩,
   ⟨3, ⟨s16, (by decide +kernel)⟩⟩,
   ⟨0, ⟨s17, (by decide +kernel)⟩⟩,
   ⟨3, ⟨s16, (by decide +kernel)⟩⟩,
   ⟨0, ⟨.arp, ⟨s18, (by decide +kernel)⟩⟩⟩,
   ⟨0, ⟨.malformed, ⟨s18, (by decide +kernel)⟩⟩⟩⟩
end Witness.SubscriptionsAndPorts

namespace Witness.GroupAndTimingWrites
/-- The timing that a write of sub-index `sub` of SYS k would leave. -/
def sysNew (k : Nat) (sub : BitVec 8) (p : Bytes) (s : State) : Nat × Nat × Nat × Nat :=
  (if sub = 2 then fsToCode (leNat p) else if sub = 3 then leNat p else rd (K.sysPeriod k) s,
   if sub = 5 then fsToCode (leNat p) else if sub = 7 then leAt 0 4 p else (sysEdges k s).1,
   if sub = 6 then fsToCode (leNat p) else if sub = 7 then leAt 4 4 p else (sysEdges k s).2,
   if sub = 4 then leNat p else rd (K.sysFormat k) s)
/-- The hypotheses of a write of a SYS timing object. -/
def SysMeets (ok : Bool) : Prop :=
  ∃ (k : Fin 8) (sub : BitVec 8) (p : Bytes) (row : ObjRow), objRow (0x3200 + k.val) sub.toNat = some row ∧
    2 ≤ sub.toNat ∧ sub.toNat ≤ 7 ∧ row.ty.lengthOk p.length = true ∧ rangeOk row (leNat p) = true ∧
    HostMeets opWrite (0x320000 + 256 * k.val + sub.toNat) p row.lev (decide (1 ≤ row.lev)) fun _ s =>
      let new := sysNew k sub p s
      (new.1 < 2 ^ 32 ∧ 1024 ≤ new.1 ∧ new.2.1 < 2 ^ 32 ∧ new.2.2.1 < 2 ^ 32) ∧
        sysTimingOk new.1 new.2.1 new.2.2.1 new.2.2.2 = ok
def s1 : State :=
  { objs := [(K.ethLink 0, 1), (K.startStep, 8)], sessions := [sess 1] }
def s2 : State :=
  { objs := [(K.ethLink 0, 1), (K.runState 0, 3), (K.startStep, 8)], sessions := [sess 1] }
def s3 : State :=
  { objs := [(K.ethLink 0, 1), (K.cgGang 1, 0), (K.startStep, 8)], sessions := [sess 1] }
def s4 : State :=
  { objs := [(K.ethLink 0, 1), (K.runState 0, 1), (K.runState 1, 1), (K.runState 2, 1), (K.runState 3, 1),
             (K.runState 4, 1), (K.runState 5, 1), (K.runState 6, 1), (K.runState 7, 1), (K.runState 8, 1),
             (K.runState 9, 1), (K.runState 10, 1), (K.runState 11, 1), (K.runState 12, 1), (K.runState 13, 1),
             (K.runState 14, 1), (K.runState 15, 1), (K.startStep, 8)],
    sessions := [sess 1] }
def s5 : State :=
  { objs := [(K.ethLink 0, 1), (K.startStep, 8)], sessions := [{ sess 1 with expert := true }] }
def s6 : State :=
  { objs := [(K.ethLink 0, 1), (K.runState 0, 3), (K.startStep, 8)], sessions := [{ sess 1 with expert := true }] }
def v7 : ObjRow :=
  { base := 12800, n := 8, lo := 2, subs := 1, ty := .u64, acc := .rw, lev := 0, rng := [], mask := 0 }
def v8 : ObjRow :=
  { base := 12800, n := 8, lo := 3, subs := 1, ty := .u32, acc := .rw, lev := 1, rng := [(1024, 4294967295)],
    mask := 0 }
def s9 : State :=
  { objs := [(K.ethLink 0, 1), (K.ethMtu 0, 9000), (K.startStep, 8)], sessions := [{ sess 1 with expert := true }] }
def s10 : State :=
  { objs := [(K.ethLink 0, 1), (K.ethMtu 0, 9000), (K.mcTsLock 0, 1), (K.startStep, 8)],
    sessions := [{ sess 1 with expert := true }] }
theorem witness_GroupAndTimingWrites :
    (∃ (g : Fin 16) (v : Byte), HostMeets opWrite (K.cgMode ↑g) [v] 0 false fun _ s => BitVec.toNat v ≤ 2 ∧ runState
      (↑g) s ≤ 1 ∧ leader (↑g) s = ↑g) ∧
    (∃ (g : Fin 16) (v : Byte), HostMeets opWrite (K.cgMode ↑g) [v] 0 false fun _ _ => 2 < BitVec.toNat v) ∧
    (∃ (g : Fin 16) (v : Byte), HostMeets opWrite (K.cgMode ↑g) [v] 0 false fun _ s => BitVec.toNat v ≤ 2 ∧ 1 <
      runState (↑g) s) ∧
    (∃ (g : Fin 16) (v : Byte), HostMeets opWrite (K.cgMode ↑g) [v] 0 false fun _ s => BitVec.toNat v ≤ 2 ∧ runState
      (↑g) s ≤ 1 ∧ leader (↑g) s ≠ ↑g) ∧
    (∃ (g : Fin 16) (v : Byte), HostMeets opWrite (K.cgGang ↑g) [v] 0 false fun _ s => BitVec.toNat v ≤ 15 ∧ (∀ (i :
      Nat), i < 16 → runState i s = 1) ∧ gangMapOk (gangMap (↑g) (BitVec.toNat v) s) = true ∧ mode (↑g) s = mode
      (BitVec.toNat v) s) ∧
    (∃ (g : Fin 16) (v : Byte), HostMeets opWrite (K.cgGang ↑g) [v] 0 false fun _ s => BitVec.toNat v ≤ 15 ∧ (∀ (i :
      Nat), i < 16 → runState i s = 1) ∧ (gangMapOk (gangMap (↑g) (BitVec.toNat v) s) = false ∨ mode (↑g) s ≠ mode
      (BitVec.toNat v) s)) ∧
    (∃ (g : Fin 16) (fs : Bool) (p : Bytes), (List.length p = if fs = true then 8 else 4) ∧ (if fs = true then fsToCode
      (leNat p) else leNat p) < 2 ^ 32 ∧ HostMeets opWrite (if fs = true then K.cgBasePeriodFs ↑g else K.cgBasePeriod
      ↑g) p (if fs = true then 0 else 1) (!fs) fun _ s => busyState (runState (↑g) s) = false) ∧
    (∃ (g : Fin 16) (fs : Bool) (p : Bytes), (List.length p = if fs = true then 8 else 4) ∧ (if fs = true then fsToCode
      (leNat p) else leNat p) < 2 ^ 32 ∧ HostMeets opWrite (if fs = true then K.cgBasePeriodFs ↑g else K.cgBasePeriod
      ↑g) p (if fs = true then 0 else 1) (!fs) fun _ s => busyState (runState (↑g) s) = true ∧ (if fs =
      true then fsToCode (leNat p) else leNat p) = rd (K.cgBasePeriodAct ↑g) s) ∧
    (∃ (g : Fin 16) (fs : Bool) (p : Bytes), (List.length p = if fs = true then 8 else 4) ∧ (if fs = true then fsToCode
      (leNat p) else leNat p) < 2 ^ 32 ∧ HostMeets opWrite (if fs = true then K.cgBasePeriodFs ↑g else K.cgBasePeriod
      ↑g) p (if fs = true then 0 else 1) (!fs) fun _ s => busyState (runState (↑g) s) = true ∧ (if fs =
      true then fsToCode (leNat p) else leNat p) ≠ rd (K.cgBasePeriodAct ↑g) s ∧ basePeriodOk (↑g) (if fs =
      true then fsToCode (leNat p) else leNat p) s = true) ∧
    (∃ (g : Fin 16) (fs : Bool) (p : Bytes), (List.length p = if fs = true then 8 else 4) ∧ (if fs = true then fsToCode
      (leNat p) else leNat p) < 2 ^ 32 ∧ HostMeets opWrite (if fs = true then K.cgBasePeriodFs ↑g else K.cgBasePeriod
      ↑g) p (if fs = true then 0 else 1) (!fs) fun _ s => busyState (runState (↑g) s) = true ∧ (if fs =
      true then fsToCode (leNat p) else leNat p) ≠ rd (K.cgBasePeriodAct ↑g) s ∧ basePeriodOk (↑g) (if fs =
      true then fsToCode (leNat p) else leNat p) s = false) ∧
    (∃ (n : Fin 256) (v : Byte), HostMeets opWrite (K.chTermSel ↑n) [v] 0 false fun _ s => BitVec.toNat v ≤ 1 ∧
      busyState (runState (↑n / 16) s) = false) ∧
    (SysMeets true) ∧
    (SysMeets false) ∧
    (∃ (g : Fin 16) (p : Bytes), List.length p = 256 ∧ HostMeets opWrite (K.tsPeriodTable ↑g) p 1 true fun _ s =>
      busyState (runState (↑g) s) = false ∧ rd (K.mcTsLock ↑g) s = 0) ∧
    (∃ (n : Fin 256) (p : Bytes), List.length p = 2304 ∧ HostMeets opWrite (K.tsTable ↑n) p 1 true fun _ s => busyState
      (runState (↑n / 16) s) = false ∧ rd (K.mcTsLock (leader (↑n / 16) s)) s = 0) ∧
    (∃ (n : Fin 256) (p : Bytes), List.length p = 2304 ∧ HostMeets opWrite (K.tsTable ↑n) p 1 true fun _ s => busyState
      (runState (↑n / 16) s) = false ∧ rd (K.mcTsLock (leader (↑n / 16) s)) s = 1) :=
  ⟨⟨0, ⟨0, (hostMeets s1 (by decide +kernel) (by decide +kernel))⟩⟩,
   ⟨0, ⟨3, (hostMeets s1 (by decide +kernel) (by decide +kernel))⟩⟩,
   ⟨0, ⟨0, (hostMeets s2 (by decide +kernel) (by decide +kernel))⟩⟩,
   ⟨1, ⟨0, (hostMeets s3 (by decide +kernel) (by decide +kernel))⟩⟩,
   ⟨0, ⟨0, (hostMeets s4 (by decide +kernel) (by decide +kernel))⟩⟩,
   ⟨0, ⟨1, (hostMeets s4 (by decide +kernel) (by decide +kernel))⟩⟩,
   ⟨0, ⟨false, ⟨[0, 16, 0, 0], ⟨(by decide +kernel), ⟨(by decide +kernel), (hostMeets s5 (by decide +kernel)
     (by decide +kernel))⟩⟩⟩⟩⟩,
   ⟨0, ⟨false, ⟨[0, 16, 0, 0], ⟨(by decide +kernel), ⟨(by decide +kernel), (hostMeets s6 (by decide +kernel)
     (by decide +kernel))⟩⟩⟩⟩⟩,
   ⟨0, ⟨false, ⟨[0, 4, 0, 0], ⟨(by decide +kernel), ⟨(by decide +kernel), (hostMeets s6 (by decide +kernel)
     (by decide +kernel))⟩⟩⟩⟩⟩,
   ⟨0, ⟨false, ⟨[0, 0, 0, 0], ⟨(by decide +kernel), ⟨(by decide +kernel), (hostMeets s6 (by decide +kernel)
     (by decide +kernel))⟩⟩⟩⟩⟩,
   ⟨0, ⟨0, (hostMeets s1 (by decide +kernel) (by decide +kernel))⟩⟩,
   ⟨0, ⟨2, ⟨[128, 150, 152, 0, 0, 0, 0, 0], ⟨v7, ⟨(by decide +kernel), ⟨(by decide +kernel), ⟨(by decide +kernel),
     ⟨(by decide +kernel), ⟨(by decide +kernel), (hostMeets s1 (by decide +kernel) (by decide +kernel))⟩⟩⟩⟩⟩⟩⟩⟩⟩,
   ⟨0, ⟨3, ⟨[0, 16, 0, 0], ⟨v8, ⟨(by decide +kernel), ⟨(by decide +kernel), ⟨(by decide +kernel),
     ⟨(by decide +kernel), ⟨(by decide +kernel), (hostMeets s5 (by decide +kernel) (by decide +kernel))⟩⟩⟩⟩⟩⟩⟩⟩⟩,
   ⟨0, ⟨(List.replicate 256 1), ⟨(by decide +kernel), (hostMeets s5 (by decide +kernel) (by decide +kernel))⟩⟩⟩,
   ⟨0, ⟨(List.replicate 2304 255), ⟨(by decide +kernel), (hostMeets s9 (by decide +kernel) (by decide +kernel))⟩⟩⟩,
   ⟨0, ⟨(List.replicate 2304 255), ⟨(by decide +kernel), (hostMeets s10 (by decide +kernel) (by decide +kernel))⟩⟩⟩⟩
end Witness.GroupAndTimingWrites

namespace Witness.CyclesStart
def s1 : State :=
  { objs := [(K.runState 0, 3), (K.clkStatus, 15)],
    grps := [(0, { grans := [{ page := 3, n := 1,
                               units := [{ code := 4369, ts := 0 }, { code := 8738, ts := 1 },
                                         { code := 0, ts := 0 }, { code := 5, ts := 0 }],
                               bytes := 64 }] })],
    seqs := [(0, { live := true, cur := some { page := 3, first := 64, count := 4 } })] }
def s2 : State :=
  {}
def s3 : State :=
  { objs := [(K.sysMode 0, 3), (K.clkStatus, 15)], sysch := [(0, { running := true })] }
def s4 : State :=
  { objs := [(K.sysMode 1, 4), (K.clkStatus, 15)], sysch := [(1, { pulse := some 9000 })] }
theorem witness_CyclesStart :
    (∃ (g : Fin 16) (r : Range) (s : State), cycleDue (↑g) s = true ∧ (seq (↑g) s).stopped = none ∧ runState (↑g) s = 3
      ∧ (seq (↑g) s).cur = some r ∧ (seq (↑g) s).off < r.count ∧ granReady (↑g) r.page (r.first + (seq (↑g) s).off) s =
      true) ∧
    (∃ (g : Fin 16) (s : State), cycleDue (↑g) s = false) ∧
    (∃ (k : Fin 8) (s : State), tclkLocked s = true ∧ rd (K.sysMode ↑k) s = 3 ∧ (sysch (↑k) s).running = true) ∧
    (∃ (k : Fin 8) (at_ : Nat) (s : State), tclkLocked s = true ∧ rd (K.sysMode ↑k) s = 4 ∧ (sysch (↑k) s).pulse = some
      at_) ∧
    (∃ (k : Fin 8) (s : State), tclkLocked s = false ∨ rd (K.sysMode ↑k) s ≠ 3 ∧ rd (K.sysMode ↑k) s ≠ 4) :=
  ⟨⟨0, ⟨{ page := 3, first := 64, count := 4 }, ⟨s1, (by decide +kernel)⟩⟩⟩,
   ⟨0, ⟨s2, (by decide +kernel)⟩⟩,
   ⟨0, ⟨s3, (by decide +kernel)⟩⟩,
   ⟨1, ⟨9000, ⟨s4, (by decide +kernel)⟩⟩⟩,
   ⟨0, ⟨s2, (by decide +kernel)⟩⟩⟩
end Witness.CyclesStart

namespace Witness.EdgesAndComparators
def d : State := { seqs := [(0, { dead := some 5 })] }
def s1 : State :=
  { chans := [(3, { sched := [{ t := 5000, cyc := 1, gen := 0, vec := 0, act := .drv true }] })] }
def v2 : Edge :=
  { t := 5000, cyc := 1, gen := 0, vec := 0, act := .drv true }
def s3 : State :=
  { chans := [(3, { sched := [{ t := 5000, cyc := 1, gen := 6, vec := 4, act := .strobe0 1 false }] }),
              (2, { sched := [{ t := 7000, cyc := 1, gen := 6, vec := 4, act := .strobe0 1 false }] })],
    grps := [(0, { judges := [{ vec := 4, start := 4000, ts := 0 }, { vec := 5, start := 4000, ts := 0 }] })] }
def v4 : Edge :=
  { t := 7000, cyc := 1, gen := 6, vec := 4, act := .strobe0 1 false }
def v5 : Edge :=
  { t := 5000, cyc := 1, gen := 6, vec := 4, act := .strobe0 1 false }
def s6 : State :=
  { }
def s7 : State :=
  { chans := [(3, { cmpL := true, tdcL := [{ vec := 2, opened := 100, closes := some 90000, recs := [] }] })] }
def v8 : TdcWin :=
  { vec := 2, opened := 100, closes := some 90000, recs := [] }
theorem witness_EdgesAndComparators :
    (∃ (ch : Fin 264) (e : Edge) (v : Bool) (s : State), firstEdge (↑ch) s (chan (↑ch) s).sched = some e ∧ e.act =
      EdgeAct.drv v ∧ e.gen < 8 ∧ (↑ch < 256 → (grp (↑ch / 16) (expireWindows (↑ch) (ballTime (↑ch) e s).toNat
      { pending := s.pending, objs := s.objs, blobs := s.blobs, now := max s.now (ballTime (↑ch) e s).toNat, free := s.free, sets := s.sets, periods := s.periods, chans := s.chans, sysch := s.sysch, grps := s.grps, seqs := s.seqs, trigs := s.trigs, touts := s.touts, patch := s.patch, dram := s.dram, pes := s.pes, tcbs := s.tcbs, starter := s.starter, queues := s.queues, rqm := s.rqm, time := s.time, timers := s.timers, ptps := s.ptps, rly := s.rly, jtx := s.jtx, jrx := s.jrx, cal := s.cal, flt := s.flt, fltins := s.fltins, sessions := s.sessions, baton := s.baton, sec := s.sec, otp := s.otp, boot := s.boot, jtag := s.jtag })).judges
      = []) ∧ (chan (↑ch) (expireWindows (↑ch) (ballTime (↑ch) e s).toNat
      { pending := s.pending, objs := s.objs, blobs := s.blobs, now := max s.now (ballTime (↑ch) e s).toNat, free := s.free, sets := s.sets, periods := s.periods, chans := s.chans, sysch := s.sysch, grps := s.grps, seqs := s.seqs, trigs := s.trigs, touts := s.touts, patch := s.patch, dram := s.dram, pes := s.pes, tcbs := s.tcbs, starter := s.starter, queues := s.queues, rqm := s.rqm, time := s.time, timers := s.timers, ptps := s.ptps, rly := s.rly, jtx := s.jtx, jrx := s.jrx, cal := s.cal, flt := s.flt, fltins := s.fltins, sessions := s.sessions, baton := s.baton, sec := s.sec, otp := s.otp, boot := s.boot, jtag := s.jtag })).drv.level
      ≠ v ∧ ∀ (l : Nat), (chan (↑ch) (expireWindows (↑ch) (ballTime (↑ch) e s).toNat
      { pending := s.pending, objs := s.objs, blobs := s.blobs, now := max s.now (ballTime (↑ch) e s).toNat, free := s.free, sets := s.sets, periods := s.periods, chans := s.chans, sysch := s.sysch, grps := s.grps, seqs := s.seqs, trigs := s.trigs, touts := s.touts, patch := s.patch, dram := s.dram, pes := s.pes, tcbs := s.tcbs, starter := s.starter, queues := s.queues, rqm := s.rqm, time := s.time, timers := s.timers, ptps := s.ptps, rly := s.rly, jtx := s.jtx, jrx := s.jrx, cal := s.cal, flt := s.flt, fltins := s.fltins, sessions := s.sessions, baton := s.baton, sec := s.sec, otp := s.otp, boot := s.boot, jtag := s.jtag })).drv.last
      = some l → l + guardOf (↑ch) s ≤ (ballTime (↑ch) e s).toNat) ∧
    (∃ (ch : Fin 264) (e : Edge) (f : Edge) (m : Nat) (j : Judge) (rest : List Judge) (s : State), firstEdge (↑ch) s
      (chan (↑ch) s).sched = some e ∧ e.act = EdgeAct.strobe0 1 false ∧ e.gen = 6 ∧ ↑ch < 256 ∧ cmpMode (↑ch) s = 0 ∧
      strobeMasked (↑ch / 16) e.t (expireWindows (↑ch) (ballTime (↑ch) e s).toNat
      { pending := s.pending, objs := s.objs, blobs := s.blobs, now := max s.now (ballTime (↑ch) e s).toNat, free := s.free, sets := s.sets, periods := s.periods, chans := s.chans, sysch := s.sysch, grps := s.grps, seqs := s.seqs, trigs := s.trigs, touts := s.touts, patch := s.patch, dram := s.dram, pes := s.pes, tcbs := s.tcbs, starter := s.starter, queues := s.queues, rqm := s.rqm, time := s.time, timers := s.timers, ptps := s.ptps, rly := s.rly, jtx := s.jtx, jrx := s.jrx, cal := s.cal, flt := s.flt, fltins := s.fltins, sessions := s.sessions, baton := s.baton, sec := s.sec, otp := s.otp, boot := s.boot, jtag := s.jtag })
      = false ∧ siteOff (↑ch) (expireWindows (↑ch) (ballTime (↑ch) e s).toNat
      { pending := s.pending, objs := s.objs, blobs := s.blobs, now := max s.now (ballTime (↑ch) e s).toNat, free := s.free, sets := s.sets, periods := s.periods, chans := s.chans, sysch := s.sysch, grps := s.grps, seqs := s.seqs, trigs := s.trigs, touts := s.touts, patch := s.patch, dram := s.dram, pes := s.pes, tcbs := s.tcbs, starter := s.starter, queues := s.queues, rqm := s.rqm, time := s.time, timers := s.timers, ptps := s.ptps, rly := s.rly, jtx := s.jtx, jrx := s.jrx, cal := s.cal, flt := s.flt, fltins := s.fltins, sessions := s.sessions, baton := s.baton, sec := s.sec, otp := s.otp, boot := s.boot, jtag := s.jtag })
      = false ∧ (grp (↑ch / 16) (expireWindows (↑ch) (ballTime (↑ch) e s).toNat
      { pending := s.pending, objs := s.objs, blobs := s.blobs, now := max s.now (ballTime (↑ch) e s).toNat, free := s.free, sets := s.sets, periods := s.periods, chans := s.chans, sysch := s.sysch, grps := s.grps, seqs := s.seqs, trigs := s.trigs, touts := s.touts, patch := s.patch, dram := s.dram, pes := s.pes, tcbs := s.tcbs, starter := s.starter, queues := s.queues, rqm := s.rqm, time := s.time, timers := s.timers, ptps := s.ptps, rly := s.rly, jtx := s.jtx, jrx := s.jrx, cal := s.cal, flt := s.flt, fltins := s.fltins, sessions := s.sessions, baton := s.baton, sec := s.sec, otp := s.otp, boot := s.boot, jtag := s.jtag })).judges
      = j :: rest ∧ j.empty = false ∧ m / 16 = ↑ch / 16 ∧ m ≠ ↑ch ∧ f ∈ (chan m (expireWindows (↑ch) (ballTime (↑ch) e
      s).toNat
      { pending := s.pending, objs := s.objs, blobs := s.blobs, now := max s.now (ballTime (↑ch) e s).toNat, free := s.free, sets := s.sets, periods := s.periods, chans := s.chans, sysch := s.sysch, grps := s.grps, seqs := s.seqs, trigs := s.trigs, touts := s.touts, patch := s.patch, dram := s.dram, pes := s.pes, tcbs := s.tcbs, starter := s.starter, queues := s.queues, rqm := s.rqm, time := s.time, timers := s.timers, ptps := s.ptps, rly := s.rly, jtx := s.jtx, jrx := s.jrx, cal := s.cal, flt := s.flt, fltins := s.fltins, sessions := s.sessions, baton := s.baton, sec := s.sec, otp := s.otp, boot := s.boot, jtag := s.jtag })).sched
      ∧ f.gen = 6 ∧ f.vec = j.vec) ∧
    (∃ (ch : Fin 264) (s : State), (chan (↑ch) s).sched = []) ∧
    (∃ (g : Fin 16) (s : State) (at_ : Nat), (seq (leader (↑g) s) s).dead = some at_) ∧
    (∃ (g : Fin 16) (s : State), (seq (leader (↑g) s) s).dead = none) ∧
    (∃ (n : Fin 256) (level : Bool) (s : State), (chan (↑n) s).cmpH = level) ∧
    (∃ (n : Fin 256) (level : Bool) (s : State), (chan (↑n) s).cmpL = level) ∧
    (∃ (n : Fin 256) (level : Bool) (s : State), (chan (↑n) s).win = [] ∧ (grp (↑n / 16) s).judges = [] ∧ (chan (↑n)
      s).cmpH ≠ level ∧ (chan (↑n) s).tdcH = []) ∧
    (∃ (n : Fin 256) (level : Bool) (at_ : Nat) (s : State), (chan (↑n) s).win = [] ∧ (grp (↑n / 16) s).judges = [] ∧ ∃
      (w : TdcWin), (chan (↑n) s).cmpL ≠ level ∧ (∀ (x : TdcWin), x ∈ (chan (↑n) s).tdcH → endedBy (max at_ (chan (↑n)
      s).seen) x.closes = false) ∧ (chan (↑n) s).tdcL = [w] ∧ w.recs = [] ∧ TdcWin.holds (max at_ (chan (↑n) s).seen) w
      = true) :=
  ⟨⟨3, ⟨v2, ⟨true, ⟨s1, (by decide +kernel)⟩⟩⟩⟩,
   ⟨2, ⟨v4, ⟨v5, ⟨3, ⟨{ vec := 4, start := 4000, ts := 0 }, ⟨[{ vec := 5, start := 4000, ts := 0 }], ⟨s3,
     (by decide +kernel)⟩⟩⟩⟩⟩⟩⟩,
   ⟨0, ⟨s6, (by decide +kernel)⟩⟩,
   ⟨0, d, 5, (by decide +kernel)⟩,
   ⟨0, ⟨s6, (by decide +kernel)⟩⟩,
   ⟨0, ⟨false, ⟨s6, (by decide +kernel)⟩⟩⟩,
   ⟨0, ⟨false, ⟨s6, (by decide +kernel)⟩⟩⟩,
   ⟨0, ⟨true, ⟨s6, (by decide +kernel)⟩⟩⟩,
   ⟨3, ⟨false, ⟨258, ⟨s7, ⟨(by decide +kernel), ⟨(by decide +kernel), ⟨v8, (by decide +kernel)⟩⟩⟩⟩⟩⟩⟩⟩
end Witness.EdgesAndComparators

namespace Witness.CaptureMemory
def s1 : State :=
  { objs := [(K.ethLink 0, 1), (K.startStep, 8)], sessions := [{ sess 1 with expert := true }] }
def s2 : State :=
  { objs := [(K.ethLink 0, 1), (K.runState 0, 3), (K.startStep, 8)], sessions := [sess 1] }
def s3 : State :=
  { objs := [(K.ethLink 0, 1), (K.startStep, 8)], sessions := [sess 1] }
def s4 : State :=
  { objs := [(K.ethLink 0, 1), (K.capFill 0, 15), (K.startStep, 8)], sessions := [sess 1] }
def s5 : State :=
  { objs := [(K.ethLink 0, 1), (K.capLenRdAct 0, 1024), (K.startStep, 8)], sessions := [sess 1] }
def s6 : State :=
  { objs := [(K.ethLink 0, 1), (K.failSpillSize 0, 65536), (K.failSpillRd 0, 32), (K.startStep, 8)],
    sessions := [{ sess 1 with expert := true }] }
def s7 : State :=
  { objs := [(K.ethLink 0, 1), (K.capSpillSize 0, 65536), (K.capSpillRd 0, 32), (K.startStep, 8)],
    sessions := [{ sess 1 with expert := true }] }
def s8 : State :=
  { objs := [(K.capLenWrAct 0, 1024), (K.capFill 0, 15), (K.capLevel 0, 3)],
    grps := [(0, { stage := [77], passes := [1024] })] }
def s9 : State :=
  {}
def s10 : State :=
  { objs := [(K.capMode 0, 2), (K.capFill 0, 15), (K.capSpillSize 0, 65536), (K.dramReady, 1)] }
def s11 : State :=
  { objs := [(K.failSpillSize 0, 65536), (K.dramReady, 1)],
    grps := [(0, { fifo := [170141183460469231731687303715884105728] })] }
def s12 : State :=
  { objs := [(K.dramReady, 1)], grps := [(0, { spillFail := some 3, failDone := true })] }
theorem witness_CaptureMemory :
    (∃ (g : Fin 16) (p : Bytes), List.length p = 2 ∧ HostMeets opWrite (K.capBase ↑g) p 1 true fun _ s => leNat p % 64
      = 0 ∧ 4160 ≤ leNat p ∧ busyState (runState (↑g) s) = false ∧ leNat p + rd (K.capLen ↑g) s ≤ 65536 ∧ ringWriteOk
      (↑g) (leNat p) [rd (K.capLen ↑g) s] s = true) ∧
    (∃ (g : Fin 16) (p : Bytes), List.length p = 2 ∧ HostMeets opWrite (K.capLen ↑g) p 0 false fun _ s => leNat p % 64
      = 0 ∧ 1024 ≤ leNat p ∧ 1 < runState (↑g) s ∧ rd (K.capBase ↑g) s + leNat p ≤ 65536 ∧ ringWriteOk (↑g) (rd
      (K.capBase ↑g) s) [leNat p] s = true ∧ rd (K.capLenWrAct ↑g) s ≠ leNat p) ∧
    (∃ (g : Fin 16) (p : Bytes), List.length p = 2 ∧ HostMeets opWrite (K.capLen ↑g) p 0 false fun _ s => leNat p % 64
      = 0 ∧ 1024 ≤ leNat p ∧ runState (↑g) s ≤ 1 ∧ rd (K.capBase ↑g) s + leNat p ≤ 65536 ∧ ringWriteOk (↑g) (rd
      (K.capBase ↑g) s) [leNat p] s = true) ∧
    (∃ (g : Fin 16) (p : Bytes), List.length p = 2 ∧ HostMeets opWrite (K.capRd ↑g) p 0 false fun _ s => rd (K.capMode
      ↑g) s ≠ 2 ∧ rd (K.capRd ↑g) s ≤ leNat p ∧ leNat p < rd (K.capLenRdAct ↑g) s ∧ leNat p - rd (K.capRd ↑g) s ≤ rd
      (K.capFill ↑g) s) ∧
    (∃ (g : Fin 16) (p : Bytes), List.length p = 2 ∧ HostMeets opWrite (K.capRd ↑g) p 0 false fun _ s => rd (K.capMode
      ↑g) s = 2 ∨ rd (K.capLenRdAct ↑g) s ≤ leNat p) ∧
    (∃ (g : Fin 16) (p : Bytes), List.length p = 8 ∧ HostMeets opWrite (K.failSpillRd ↑g) p 1 true fun _ s => leNat p %
      16 = 0 ∧ rd (K.failSpillRd ↑g) s ≤ leNat p ∧ leNat p < rd (K.failSpillSize ↑g) s ∧ leNat p - rd (K.failSpillRd ↑g)
      s ≤ (grp (↑g) s).failHeld) ∧
    (∃ (g : Fin 16) (p : Bytes), List.length p = 8 ∧ HostMeets opWrite (K.capSpillRd ↑g) p 1 true fun _ s => leNat p %
      16 = 0 ∧ rd (K.capSpillRd ↑g) s ≤ leNat p ∧ leNat p < rd (K.capSpillSize ↑g) s ∧ leNat p - rd (K.capSpillRd ↑g) s
      ≤ (grp (↑g) s).capHeld) ∧
    (∃ (g : Fin 16) (p : Bytes), List.length p = 8 ∧ HostMeets opWrite (K.failSpillRd ↑g) p 1 true fun _ _ => leNat p %
      16 ≠ 0) ∧
    (∃ (g : Fin 16), HostMeets opRead (K.capRead ↑g) [] 0 false fun _ s => rd (K.capMode ↑g) s ≠ 2 ∧ 0 < rd (K.capFill
      ↑g) s ∧ rd (K.capRd ↑g) s + rd (K.capFill ↑g) s < rd (K.capLenRdAct ↑g) s) ∧
    (∃ (g : Fin 16), HostMeets opRead (K.failPop ↑g) [] 0 false fun _ s => (grp (↑g) s).spillFail = none) ∧
    (∃ (g : Fin 16) (e : Nat) (s : State), (grp (↑g) s).stage = [e] ∧ (grp (↑g) s).passes = [rd (K.capLenWrAct ↑g) s] ∧
      rd (K.capWr ↑g) s + 1 < rd (K.capLenWrAct ↑g) s ∧ rd (K.capLevel ↑g) s < rd (K.capFill ↑g) s) ∧
    (∃ (g : Fin 16) (s : State), (grp (↑g) s).stage = []) ∧
    (∃ (g : Fin 16) (s : State), rd K.dramReady s = 1 ∧ fenced (↑g) s = false ∧ ∃ (n : Nat), rd (K.capMode ↑g) s = 2 ∧
      (grp (↑g) s).spillCap = none ∧ n = min (4 - rd (K.capSpillWr ↑g) s % 64 / 16) (min (rd (K.capFill ↑g) s) ((rd
      (K.capSpillSize ↑g) s - (grp (↑g) s).capHeld) / 16)) ∧ 0 < n) ∧
    (∃ (g : Fin 16) (s : State), rd K.dramReady s = 1 ∧ fenced (↑g) s = false ∧ ∃ (n : Nat), (grp (↑g) s).spillFail =
      none ∧ rd (K.failSpillSize ↑g) s ≠ 0 ∧ n = min (4 - rd (K.failSpillWr ↑g) s % 64 / 16) (min (grp (↑g)
      s).fifo.length ((rd (K.failSpillSize ↑g) s - (grp (↑g) s).failHeld) / 16)) ∧ 0 < n) ∧
    (∃ (g : Fin 16) (s : State), rd K.dramReady s = 1 ∧ fenced (↑g) s = false ∧ ∃ (n : Nat), (grp (↑g) s).spillFail =
      some n ∧ (grp (↑g) s).failDone = true ∧ rd (K.failSpillSize ↑g) s = 0) :=
  ⟨⟨0, ⟨[64, 16], ⟨(by decide +kernel), (hostMeets s1 (by decide +kernel) (by decide +kernel))⟩⟩⟩,
   ⟨0, ⟨[64, 16], ⟨(by decide +kernel), (hostMeets s2 (by decide +kernel) (by decide +kernel))⟩⟩⟩,
   ⟨0, ⟨[64, 16], ⟨(by decide +kernel), (hostMeets s3 (by decide +kernel) (by decide +kernel))⟩⟩⟩,
   ⟨0, ⟨[10, 0], ⟨(by decide +kernel), (hostMeets s4 (by decide +kernel) (by decide +kernel))⟩⟩⟩,
   ⟨0, ⟨[64, 16], ⟨(by decide +kernel), (hostMeets s5 (by decide +kernel) (by decide +kernel))⟩⟩⟩,
   ⟨0, ⟨[32, 0, 0, 0, 0, 0, 0, 0], ⟨(by decide +kernel), (hostMeets s6 (by decide +kernel) (by decide +kernel))⟩⟩⟩,
   ⟨0, ⟨[32, 0, 0, 0, 0, 0, 0, 0], ⟨(by decide +kernel), (hostMeets s7 (by decide +kernel) (by decide +kernel))⟩⟩⟩,
   ⟨0, ⟨[33, 0, 0, 0, 0, 0, 0, 0], ⟨(by decide +kernel), (hostMeets s1 (by decide +kernel) (by decide +kernel))⟩⟩⟩,
   ⟨0, (hostMeets s4 (by decide +kernel) (by decide +kernel))⟩,
   ⟨0, (hostMeets s3 (by decide +kernel) (by decide +kernel))⟩,
   ⟨0, ⟨77, ⟨s8, (by decide +kernel)⟩⟩⟩,
   ⟨0, ⟨s9, (by decide +kernel)⟩⟩,
   ⟨0, ⟨s10, ⟨(by decide +kernel), ⟨(by decide +kernel), ⟨4, (by decide +kernel)⟩⟩⟩⟩⟩,
   ⟨0, ⟨s11, ⟨(by decide +kernel), ⟨(by decide +kernel), ⟨1, (by decide +kernel)⟩⟩⟩⟩⟩,
   ⟨0, ⟨s12, (by decide +kernel)⟩⟩⟩
end Witness.CaptureMemory

namespace Witness.FlagAppliesItsOperation
def s1 : State :=
  { objs := [(K.runState 0, 3), (K.seqPc 0, 2)],
    seqs := [(0, { page := 3,
                   heads := [head [17 * 2 ^ 56, 3 * 2 ^ 56, 12 * 2 ^ 56 + 65535 * 2 ^ 32, 17 * 2 ^ 56,
                                   3 * 2 ^ 56, 17 * 2 ^ 56]] })] }
def s2 : State :=
  { objs := [(K.runState 0, 3), (K.seqPc 0, 2)],
    seqs := [(0, { page := 3,
                   heads := [head [17 * 2 ^ 56, 3 * 2 ^ 56, 12 * 2 ^ 56 + 3 * 2 ^ 48 + 65535 * 2 ^ 32,
                                   17 * 2 ^ 56, 3 * 2 ^ 56, 17 * 2 ^ 56]] })] }
theorem witness_FlagAppliesItsOperation :
    (∃ (k : Fin 16) (w : SeqWord) (s : State), IuReady (↑k) 12 w s ∧ w.b = 0 ∧ w.flags.toNat < 4 ∧ w.flags.toNat ≤ 2) ∧
    (∃ (k : Fin 16) (w : SeqWord) (s : State), IuReady (↑k) 12 w s ∧ w.b = 0 ∧ w.flags.toNat < 4 ∧ w.flags.toNat = 3) :=
  ⟨⟨0, ⟨{ flags := 0, a := 65535, b := 0 }, ⟨s1, ⟨(iuReady 1224979098644774912 (by decide +kernel)),
     (by decide +kernel)⟩⟩⟩⟩,
   ⟨0, ⟨{ flags := 3, a := 65535, b := 0 }, ⟨s2, ⟨(iuReady 1224979098644774912 (by decide +kernel)),
     (by decide +kernel)⟩⟩⟩⟩⟩
end Witness.FlagAppliesItsOperation

namespace Witness.SetregOperations
def s1 : State :=
  { objs := [(K.runState 0, 3), (K.seqPc 0, 2)],
    seqs := [(0, { page := 3,
                   heads := [head [17 * 2 ^ 56, 3 * 2 ^ 56, 13 * 2 ^ 56, 17 * 2 ^ 56, 3 * 2 ^ 56,
                                   17 * 2 ^ 56]] })] }
def s2 : State :=
  { objs := [(K.runState 0, 3), (K.seqPc 0, 2)],
    seqs := [(0, { page := 3,
                   heads := [head [17 * 2 ^ 56, 3 * 2 ^ 56, 13 * 2 ^ 56 + 256 * 2 ^ 32, 17 * 2 ^ 56,
                                   3 * 2 ^ 56, 17 * 2 ^ 56]] })] }
def s3 : State :=
  { objs := [(K.runState 0, 3), (K.seqPc 0, 2)],
    seqs := [(0, { page := 3,
                   heads := [head [17 * 2 ^ 56, 3 * 2 ^ 56, 13 * 2 ^ 56 + 512 * 2 ^ 32, 17 * 2 ^ 56,
                                   3 * 2 ^ 56, 17 * 2 ^ 56]] })] }
def s4 : State :=
  { objs := [(K.runState 0, 3), (K.seqPc 0, 2)],
    seqs := [(0, { page := 3,
                   heads := [head [17 * 2 ^ 56, 3 * 2 ^ 56, 13 * 2 ^ 56 + 768 * 2 ^ 32, 17 * 2 ^ 56,
                                   3 * 2 ^ 56, 17 * 2 ^ 56]] })] }
def s5 : State :=
  { objs := [(K.runState 0, 3), (K.seqPc 0, 2)],
    seqs := [(0, { page := 3,
                   heads := [head [17 * 2 ^ 56, 3 * 2 ^ 56, 13 * 2 ^ 56 + 1024 * 2 ^ 32, 17 * 2 ^ 56,
                                   3 * 2 ^ 56, 17 * 2 ^ 56]] })] }
def s6 : State :=
  { objs := [(K.runState 0, 3), (K.seqPc 0, 2)],
    seqs := [(0, { page := 3,
                   heads := [head [17 * 2 ^ 56, 3 * 2 ^ 56, 13 * 2 ^ 56 + 1280 * 2 ^ 32, 17 * 2 ^ 56,
                                   3 * 2 ^ 56, 17 * 2 ^ 56]] })] }
def s7 : State :=
  { objs := [(K.runState 0, 3), (K.seqPc 0, 2)],
    seqs := [(0, { page := 3,
                   heads := [head [17 * 2 ^ 56, 3 * 2 ^ 56, 13 * 2 ^ 56 + 1536 * 2 ^ 32, 17 * 2 ^ 56,
                                   3 * 2 ^ 56, 17 * 2 ^ 56]] })] }
def s8 : State :=
  { objs := [(K.runState 0, 3), (K.seqPc 0, 2)],
    seqs := [(0, { page := 3,
                   heads := [head [17 * 2 ^ 56, 3 * 2 ^ 56, 13 * 2 ^ 56 + 1284 * 2 ^ 32 + 7,
                                   17 * 2 ^ 56, 3 * 2 ^ 56, 17 * 2 ^ 56]] })] }
def s9 : State :=
  { objs := [(K.runState 0, 3), (K.seqPc 0, 2)],
    seqs := [(0, { page := 3,
                   heads := [head [17 * 2 ^ 56, 3 * 2 ^ 56, 13 * 2 ^ 56 + 33 * 2 ^ 32, 17 * 2 ^ 56,
                                   3 * 2 ^ 56, 17 * 2 ^ 56]] })] }
theorem witness_SetregOperations :
    (∃ (k : Fin 16) (w : SeqWord) (s : State), IuReady (↑k) 13 w s ∧ w.flags = 0 ∧ w.a.toNat < 4096 ∧ ((w.a.toNat / 256
      % 16 = 2 ∨ w.a.toNat / 256 % 16 = 3 ∨ w.a.toNat / 16 % 16 = 0) ∧ (w.a.toNat / 256 % 16 = 2 ∨ w.a.toNat / 256 % 16
      = 4 → w.b.toNat = 0)) ∧ w.a.toNat / 256 % 16 = 0) ∧
    (∃ (k : Fin 16) (w : SeqWord) (s : State), IuReady (↑k) 13 w s ∧ w.flags = 0 ∧ w.a.toNat < 4096 ∧ ((w.a.toNat / 256
      % 16 = 2 ∨ w.a.toNat / 256 % 16 = 3 ∨ w.a.toNat / 16 % 16 = 0) ∧ (w.a.toNat / 256 % 16 = 2 ∨ w.a.toNat / 256 % 16
      = 4 → w.b.toNat = 0)) ∧ w.a.toNat / 256 % 16 = 1) ∧
    (∃ (k : Fin 16) (w : SeqWord) (s : State), IuReady (↑k) 13 w s ∧ w.flags = 0 ∧ w.a.toNat < 4096 ∧ ((w.a.toNat / 256
      % 16 = 2 ∨ w.a.toNat / 256 % 16 = 3 ∨ w.a.toNat / 16 % 16 = 0) ∧ (w.a.toNat / 256 % 16 = 2 ∨ w.a.toNat / 256 % 16
      = 4 → w.b.toNat = 0)) ∧ w.a.toNat / 256 % 16 = 2) ∧
    (∃ (k : Fin 16) (w : SeqWord) (s : State), IuReady (↑k) 13 w s ∧ w.flags = 0 ∧ w.a.toNat < 4096 ∧ ((w.a.toNat / 256
      % 16 = 2 ∨ w.a.toNat / 256 % 16 = 3 ∨ w.a.toNat / 16 % 16 = 0) ∧ (w.a.toNat / 256 % 16 = 2 ∨ w.a.toNat / 256 % 16
      = 4 → w.b.toNat = 0)) ∧ w.a.toNat / 256 % 16 = 3) ∧
    (∃ (k : Fin 16) (w : SeqWord) (s : State), IuReady (↑k) 13 w s ∧ w.flags = 0 ∧ w.a.toNat < 4096 ∧ ((w.a.toNat / 256
      % 16 = 2 ∨ w.a.toNat / 256 % 16 = 3 ∨ w.a.toNat / 16 % 16 = 0) ∧ (w.a.toNat / 256 % 16 = 2 ∨ w.a.toNat / 256 % 16
      = 4 → w.b.toNat = 0)) ∧ w.a.toNat / 256 % 16 = 4) ∧
    (∃ (k : Fin 16) (w : SeqWord) (s : State), IuReady (↑k) 13 w s ∧ w.flags = 0 ∧ w.a.toNat < 4096 ∧ ((w.a.toNat / 256
      % 16 = 2 ∨ w.a.toNat / 256 % 16 = 3 ∨ w.a.toNat / 16 % 16 = 0) ∧ (w.a.toNat / 256 % 16 = 2 ∨ w.a.toNat / 256 % 16
      = 4 → w.b.toNat = 0)) ∧ w.a.toNat / 256 % 16 = 5 ∧ w.a.toNat % 16 ≤ 3) ∧
    (∃ (k : Fin 16) (w : SeqWord) (s : State), IuReady (↑k) 13 w s ∧ w.flags = 0 ∧ w.a.toNat < 4096 ∧ ((w.a.toNat / 256
      % 16 = 2 ∨ w.a.toNat / 256 % 16 = 3 ∨ w.a.toNat / 16 % 16 = 0) ∧ (w.a.toNat / 256 % 16 = 2 ∨ w.a.toNat / 256 % 16
      = 4 → w.b.toNat = 0)) ∧ w.a.toNat / 256 % 16 = 6 ∧ w.a.toNat % 16 ≤ 3) ∧
    (∃ (k : Fin 16) (w : SeqWord) (s : State), IuReady (↑k) 13 w s ∧ w.flags = 0 ∧ w.a.toNat < 4096 ∧ (7 ≤ w.a.toNat /
      256 % 16 ∨ ((w.a.toNat / 256 % 16 = 2 ∨ w.a.toNat / 256 % 16 = 3 ∨ w.a.toNat / 16 % 16 = 0) ∧ (w.a.toNat / 256 %
      16 = 2 ∨ w.a.toNat / 256 % 16 = 4 → w.b.toNat = 0)) ∧ (w.a.toNat / 256 % 16 = 5 ∨ w.a.toNat / 256 % 16 = 6) ∧ 3 <
      w.a.toNat % 16)) ∧
    (∃ (k : Fin 16) (w : SeqWord) (s : State), IuReady (↑k) 13 w s ∧ w.flags = 0 ∧ w.a.toNat < 4096 ∧ w.a.toNat / 256 %
      16 ≤ 6 ∧ ¬((w.a.toNat / 256 % 16 = 2 ∨ w.a.toNat / 256 % 16 = 3 ∨ w.a.toNat / 16 % 16 = 0) ∧ (w.a.toNat / 256 % 16
      = 2 ∨ w.a.toNat / 256 % 16 = 4 → w.b.toNat = 0))) :=
  ⟨⟨0, ⟨{ flags := 0, a := 0, b := 0 }, ⟨s1, ⟨(iuReady 1224979098644774912 (by decide +kernel)),
     (by decide +kernel)⟩⟩⟩⟩,
   ⟨0, ⟨{ flags := 0, a := 256, b := 0 }, ⟨s2, ⟨(iuReady 1224979098644774912 (by decide +kernel)),
     (by decide +kernel)⟩⟩⟩⟩,
   ⟨0, ⟨{ flags := 0, a := 512, b := 0 }, ⟨s3, ⟨(iuReady 1224979098644774912 (by decide +kernel)),
     (by decide +kernel)⟩⟩⟩⟩,
   ⟨0, ⟨{ flags := 0, a := 768, b := 0 }, ⟨s4, ⟨(iuReady 1224979098644774912 (by decide +kernel)),
     (by decide +kernel)⟩⟩⟩⟩,
   ⟨0, ⟨{ flags := 0, a := 1024, b := 0 }, ⟨s5, ⟨(iuReady 1224979098644774912 (by decide +kernel)),
     (by decide +kernel)⟩⟩⟩⟩,
   ⟨0, ⟨{ flags := 0, a := 1280, b := 0 }, ⟨s6, ⟨(iuReady 1224979098644774912 (by decide +kernel)),
     (by decide +kernel)⟩⟩⟩⟩,
   ⟨0, ⟨{ flags := 0, a := 1536, b := 0 }, ⟨s7, ⟨(iuReady 1224979098644774912 (by decide +kernel)),
     (by decide +kernel)⟩⟩⟩⟩,
   ⟨0, ⟨{ flags := 0, a := 1284, b := 7 }, ⟨s8, ⟨(iuReady 1224979098644774912 (by decide +kernel)),
     (by decide +kernel)⟩⟩⟩⟩,
   ⟨0, ⟨{ flags := 0, a := 33, b := 0 }, ⟨s9, ⟨(iuReady 1224979098644774912 (by decide +kernel)),
     (by decide +kernel)⟩⟩⟩⟩⟩
end Witness.SetregOperations

namespace Witness.SequencerInstructions
def sl : State :=
  { objs := [(K.runState 0, 3), (K.seqPc 0, 2)]
    seqs := [(0, { page := 3, loops := [⟨2, 2, 0, 0, 1, none⟩]
                   heads := [head [17 * 2 ^ 56, 17 * 2 ^ 56, 2 ^ 56 + 1000, 3 * 2 ^ 56]] })] }
def tl (w : Nat) : State :=
  { objs := [(K.runState 0, 3), (K.seqPc 0, 2), (K.dramReady, 1), (K.dramMappedBytes, 2 ^ 37)]
    seqs := [(0, { live := true, page := 3, heads := [head [17 * 2 ^ 56, 17 * 2 ^ 56, w, 3 * 2 ^ 56]] })] }
def sa : State := tl (14 * 2 ^ 56 + 63 * 2 ^ 32 + 0x1FFFFFF)
def sb : State := tl (14 * 2 ^ 56 + 2 * 2 ^ 48)
def s1 : State :=
  { objs := [(K.runState 0, 3)],
    seqs := [(0, { page := 3,
                   heads := [head [17 * 2 ^ 56, 3 * 2 ^ 56, 17 * 2 ^ 56, 17 * 2 ^ 56, 3 * 2 ^ 56,
                                   17 * 2 ^ 56]] })] }
def s2 : State :=
  { objs := [(K.runState 0, 3), (K.seqPc 0, 2)],
    seqs := [(0, { page := 3,
                   heads := [head [17 * 2 ^ 56, 3 * 2 ^ 56, 17 * 2 ^ 56 + 1 * 2 ^ 48, 17 * 2 ^ 56,
                                   3 * 2 ^ 56, 17 * 2 ^ 56]] })] }
def s3 : State :=
  { objs := [(K.runState 0, 3), (K.seqPc 0, 2)],
    seqs := [(0, { page := 3,
                   heads := [head [17 * 2 ^ 56, 3 * 2 ^ 56, 2 * 2 ^ 56 + 5, 17 * 2 ^ 56, 3 * 2 ^ 56,
                                   17 * 2 ^ 56]] })] }
def s4 : State :=
  { objs := [(K.runState 0, 3), (K.seqPc 0, 2)],
    seqs := [(0, { page := 3,
                   loops := [{ left := 5, pc := 1, ptr := 64, issued := 64 },
                             { left := 5, pc := 1, ptr := 64, issued := 64 },
                             { left := 5, pc := 1, ptr := 64, issued := 64 },
                             { left := 5, pc := 1, ptr := 64, issued := 64 },
                             { left := 5, pc := 1, ptr := 64, issued := 64 },
                             { left := 5, pc := 1, ptr := 64, issued := 64 },
                             { left := 5, pc := 1, ptr := 64, issued := 64 },
                             { left := 5, pc := 1, ptr := 64, issued := 64 }],
                   heads := [head [17 * 2 ^ 56, 3 * 2 ^ 56, 2 * 2 ^ 56 + 5, 17 * 2 ^ 56, 3 * 2 ^ 56,
                                   17 * 2 ^ 56]] })] }
def s5 : State :=
  { objs := [(K.runState 0, 3), (K.seqPc 0, 2)],
    seqs := [(0, { page := 3,
                   heads := [head [17 * 2 ^ 56, 3 * 2 ^ 56, 3 * 2 ^ 56, 17 * 2 ^ 56, 3 * 2 ^ 56,
                                   17 * 2 ^ 56]] })] }
def s6 : State :=
  { objs := [(K.runState 0, 3), (K.seqPc 0, 2)],
    seqs := [(0, { page := 3, loops := [{ left := 5, pc := 1, ptr := 64 }],
                   heads := [head [17 * 2 ^ 56, 3 * 2 ^ 56, 3 * 2 ^ 56, 17 * 2 ^ 56, 3 * 2 ^ 56,
                                   17 * 2 ^ 56]] })] }
def s7 : State :=
  { objs := [(K.runState 0, 3), (K.seqPc 0, 2)],
    seqs := [(0, { page := 3, loops := [{ left := 1, pc := 1, ptr := 64, issued := 64 }],
                   heads := [head [17 * 2 ^ 56, 3 * 2 ^ 56, 3 * 2 ^ 56, 17 * 2 ^ 56, 3 * 2 ^ 56,
                                   17 * 2 ^ 56]] })] }
def s8 : State :=
  { objs := [(K.runState 0, 3), (K.seqPc 0, 2)],
    seqs := [(0, { page := 3, loops := [{ left := 5, pc := 1, ptr := 64, issued := 64 }],
                   heads := [head [17 * 2 ^ 56, 3 * 2 ^ 56, 3 * 2 ^ 56, 17 * 2 ^ 56, 3 * 2 ^ 56,
                                   17 * 2 ^ 56]] })] }
def s9 : State :=
  { objs := [(K.runState 0, 3), (K.seqPc 0, 2)],
    seqs := [(0, { page := 3,
                   heads := [head [17 * 2 ^ 56, 3 * 2 ^ 56, 6 * 2 ^ 56 + 4, 17 * 2 ^ 56, 3 * 2 ^ 56,
                                   17 * 2 ^ 56]] })] }
def s10 : State :=
  { objs := [(K.runState 0, 3), (K.seqPc 0, 2)],
    seqs := [(0, { page := 3,
                   heads := [head [17 * 2 ^ 56, 3 * 2 ^ 56, 6 * 2 ^ 56 + 77, 17 * 2 ^ 56, 3 * 2 ^ 56,
                                   17 * 2 ^ 56]] })] }
def s11 : State :=
  { objs := [(K.runState 0, 3), (K.seqPc 0, 2), (K.dramMappedBytes, 2 ^ 37)],
    seqs := [(0, { page := 3,
                   heads := [head [17 * 2 ^ 56, 3 * 2 ^ 56, 6 * 2 ^ 56 + 1 * 2 ^ 48 + 9, 17 * 2 ^ 56,
                                   3 * 2 ^ 56, 17 * 2 ^ 56]] })] }
def s12 : State :=
  { objs := [(K.runState 0, 3), (K.seqPc 0, 2), (K.dramMappedBytes, 2 ^ 37)],
    seqs := [(0, { page := 3,
                   heads := [head [17 * 2 ^ 56, 3 * 2 ^ 56, 4 * 2 ^ 56 + 3, 17 * 2 ^ 56, 3 * 2 ^ 56,
                                   17 * 2 ^ 56]] })] }
def s13 : State :=
  { objs := [(K.runState 0, 3), (K.seqPc 0, 2)],
    seqs := [(0, { page := 3, calls := List.replicate 16 { page := 5, pc := 1, ptr := 64, loops := 0 },
                   heads := [head [17 * 2 ^ 56, 3 * 2 ^ 56, 4 * 2 ^ 56 + 3, 17 * 2 ^ 56, 3 * 2 ^ 56,
                                   17 * 2 ^ 56]] })] }
def s14 : State :=
  { objs := [(K.runState 0, 3), (K.seqPc 0, 2)],
    seqs := [(0, { page := 3, calls := [{ page := 5, pc := 1, ptr := 64, loops := 0 }],
                   heads := [head [17 * 2 ^ 56, 3 * 2 ^ 56, 5 * 2 ^ 56, 17 * 2 ^ 56, 3 * 2 ^ 56,
                                   17 * 2 ^ 56]] })] }
def s15 : State :=
  { objs := [(K.runState 0, 3), (K.seqPc 0, 2)],
    seqs := [(0, { page := 3,
                   heads := [head [17 * 2 ^ 56, 3 * 2 ^ 56, 5 * 2 ^ 56, 17 * 2 ^ 56, 3 * 2 ^ 56,
                                   17 * 2 ^ 56]] })] }
def s16 : State :=
  { objs := [(K.runState 0, 3), (K.seqPc 0, 2)],
    seqs := [(0, { page := 3,
                   heads := [head [17 * 2 ^ 56, 3 * 2 ^ 56, 1 * 2 ^ 56, 17 * 2 ^ 56, 3 * 2 ^ 56,
                                   17 * 2 ^ 56]] })] }
def s17 : State :=
  { objs := [(K.runState 0, 3), (K.seqPc 0, 2), (K.gr 0 0, 64), (K.gr 0 2, 5)],
    seqs := [(0, { page := 3,
                   heads := [head [17 * 2 ^ 56, 3 * 2 ^ 56, 1 * 2 ^ 56 + 3 * 2 ^ 48 + 32 * 2 ^ 32,
                                   17 * 2 ^ 56, 3 * 2 ^ 56, 17 * 2 ^ 56]] })] }
def s18 : State :=
  { objs := [(K.runState 0, 3), (K.seqPc 0, 2)],
    seqs := [(0, { page := 3, queue := List.replicate 16 { page := 3, first := 64, count := 4 },
                   heads := [head [17 * 2 ^ 56, 3 * 2 ^ 56, 1 * 2 ^ 56 + 64, 17 * 2 ^ 56, 3 * 2 ^ 56,
                                   17 * 2 ^ 56]] })] }
def s19 : State :=
  { objs := [(K.runState 0, 3), (K.seqPc 0, 2)],
    seqs := [(0, { page := 3,
                   heads := [head [17 * 2 ^ 56, 3 * 2 ^ 56, 1 * 2 ^ 56 + 64, 17 * 2 ^ 56, 3 * 2 ^ 56,
                                   17 * 2 ^ 56]] })] }
def s20 : State :=
  { objs := [(K.runState 0, 3), (K.seqPc 0, 2)],
    seqs := [(0, { page := 3,
                   heads := [head [17 * 2 ^ 56, 3 * 2 ^ 56, 8 * 2 ^ 56 + 1 * 2 ^ 32 + 5, 17 * 2 ^ 56,
                                   3 * 2 ^ 56, 17 * 2 ^ 56]] })] }
def s21 : State :=
  { objs := [(K.runState 0, 3), (K.seqPc 0, 2)],
    seqs := [(0, { page := 3,
                   heads := [head [17 * 2 ^ 56, 3 * 2 ^ 56, 9 * 2 ^ 56 + 1 * 2 ^ 32 + 536870917,
                                   17 * 2 ^ 56, 3 * 2 ^ 56, 17 * 2 ^ 56]] })] }
def s22 : State :=
  { objs := [(K.runState 0, 3), (K.seqPc 0, 2)],
    seqs := [(0, { page := 3,
                   heads := [head [17 * 2 ^ 56, 3 * 2 ^ 56, 9 * 2 ^ 56 + 1 * 2 ^ 32 + 570425344,
                                   17 * 2 ^ 56, 3 * 2 ^ 56, 17 * 2 ^ 56]] })] }
def s23 : State :=
  { objs := [(K.runState 0, 3), (K.seqPc 0, 2)],
    seqs := [(0, { page := 3,
                   heads := [head [17 * 2 ^ 56, 3 * 2 ^ 56, 10 * 2 ^ 56 + 3 * 2 ^ 32 + 500,
                                   17 * 2 ^ 56, 3 * 2 ^ 56, 17 * 2 ^ 56]] })] }
def s24 : State :=
  { objs := [(K.runState 0, 3), (K.seqPc 0, 2)],
    seqs := [(0, { page := 3,
                   heads := [head [17 * 2 ^ 56, 3 * 2 ^ 56, 7 * 2 ^ 56 + 4, 17 * 2 ^ 56, 3 * 2 ^ 56,
                                   17 * 2 ^ 56]] })] }
def s25 : State :=
  { objs := [(K.runState 0, 3), (K.seqPc 0, 2), (K.seqFlags 0, 3)],
    seqs := [(0, { page := 3,
                   heads := [head [17 * 2 ^ 56, 3 * 2 ^ 56, 7 * 2 ^ 56 + 4, 17 * 2 ^ 56, 3 * 2 ^ 56,
                                   17 * 2 ^ 56]] })] }
def s26 : State :=
  { objs := [(K.runState 0, 3), (K.seqPc 0, 2)],
    seqs := [(0, { page := 3,
                   heads := [head [17 * 2 ^ 56, 3 * 2 ^ 56, 7 * 2 ^ 56 + 32 * 2 ^ 32 + 4, 17 * 2 ^ 56,
                                   3 * 2 ^ 56, 17 * 2 ^ 56]],
                   blks := [{ id := 1, isMatch := true }] })] }
def s27 : State :=
  { objs := [(K.runState 0, 3), (K.seqPc 0, 2)],
    seqs := [(0, { page := 3,
                   heads := [head [17 * 2 ^ 56, 3 * 2 ^ 56, 7 * 2 ^ 56 + 57 * 2 ^ 32, 17 * 2 ^ 56,
                                   3 * 2 ^ 56, 17 * 2 ^ 56]] })] }
def s28 : State :=
  { objs := [(K.runState 0, 3), (K.seqPc 0, 2)],
    seqs := [(0, { page := 3,
                   heads := [head [17 * 2 ^ 56, 3 * 2 ^ 56, 11 * 2 ^ 56 + 7 * 2 ^ 32, 17 * 2 ^ 56,
                                   3 * 2 ^ 56, 17 * 2 ^ 56]] })] }
def s29 : State :=
  { objs := [(K.runState 0, 3), (K.seqPc 0, 2), (K.dramMappedBytes, 2 ^ 37)],
    seqs := [(0, { page := 3,
                   heads := [head [17 * 2 ^ 56, 3 * 2 ^ 56, 14 * 2 ^ 56 + 3, 17 * 2 ^ 56, 3 * 2 ^ 56,
                                   17 * 2 ^ 56]],
                   live := true })] }
def s30 : State :=
  { objs := [(K.runState 0, 3), (K.seqPc 0, 2)],
    seqs := [(0, { page := 3,
                   heads := [head [17 * 2 ^ 56, 3 * 2 ^ 56, 14 * 2 ^ 56 + 8192 * 2 ^ 32 + 4294967295,
                                   17 * 2 ^ 56, 3 * 2 ^ 56, 17 * 2 ^ 56]],
                   live := true })] }
def s31 : State :=
  {}
def s32 : State :=
  { objs := [(K.runState 0, 3), (K.seqPc 0, 2)],
    seqs := [(0, { page := 3,
                   heads := [head [17 * 2 ^ 56, 3 * 2 ^ 56, 15 * 2 ^ 56, 17 * 2 ^ 56, 3 * 2 ^ 56,
                                   17 * 2 ^ 56]] })] }
def s33 : State :=
  { objs := [(K.runState 0, 3), (K.seqPc 0, 2)],
    seqs := [(0, { page := 3, loops := [{ left := 5, pc := 1, ptr := 64, issued := 64 }],
                   heads := [head [17 * 2 ^ 56, 3 * 2 ^ 56, 15 * 2 ^ 56, 17 * 2 ^ 56, 3 * 2 ^ 56,
                                   17 * 2 ^ 56]] })] }
def s34 : State :=
  { objs := [(K.runState 0, 3), (K.seqPc 0, 2)],
    seqs := [(0, { page := 3,
                   heads := [head [17 * 2 ^ 56, 3 * 2 ^ 56, 16 * 2 ^ 56 + 9 * 2 ^ 32, 17 * 2 ^ 56,
                                   3 * 2 ^ 56, 17 * 2 ^ 56]] })] }
def s35 : State :=
  { objs := [(K.runState 0, 3), (K.seqPc 0, 2)],
    seqs := [(0, { page := 3, loops := [{ left := 5, pc := 1, ptr := 64, issued := 64 }],
                   heads := [head [17 * 2 ^ 56, 3 * 2 ^ 56, 16 * 2 ^ 56 + 9 * 2 ^ 32, 17 * 2 ^ 56,
                                   3 * 2 ^ 56, 17 * 2 ^ 56]] })] }
theorem witness_SequencerInstructions :
    (∃ (k : Fin 16) (w : SeqWord) (s : State), IuReady (↑k) 17 w s ∧ w.flags = 0 ∧ w.a = 0 ∧ w.b = 0) ∧
    (∃ (k : Fin 16) (w : SeqWord) (s : State), IuReady (↑k) 17 w s ∧ ¬(w.flags = 0 ∧ w.a = 0 ∧ w.b = 0)) ∧
    (∃ (k : Fin 16) (w : SeqWord) (s : State), IuReady (↑k) 2 w s ∧ w.flags.toNat < 2 ∧ w.a.toNat < 16 ∧ (w.flags = 1 →
      w.b = 0) ∧ (seq (↑k) s).ptr % granuleOf (↑k) s = 0 ∧ (seq (↑k) s).loops.length < 8) ∧
    (∃ (k : Fin 16) (w : SeqWord) (s : State), IuReady (↑k) 2 w s ∧ w.flags.toNat < 2 ∧ w.a.toNat < 16 ∧ (w.flags = 1 →
      w.b = 0) ∧ (seq (↑k) s).ptr % granuleOf (↑k) s = 0 ∧ 8 ≤ (seq (↑k) s).loops.length) ∧
    (∃ (k : Fin 16) (w : SeqWord) (s : State), IuReady (↑k) 3 w s ∧ (w.flags = 0 ∧ w.a = 0 ∧ w.b = 0) ∧ (seq (↑k)
      s).loops = []) ∧
    (∃ (k : Fin 16) (w : SeqWord) (s : State), IuReady (↑k) 3 w s ∧ (w.flags = 0 ∧ w.a = 0 ∧ w.b = 0) ∧ ∃ (v : LoopLvl)
      (rest : List LoopLvl), (seq (↑k) s).loops = v :: rest ∧ (seq (↑k) s).calls = [] ∧ v.issued = 0) ∧
    (∃ (k : Fin 16) (w : SeqWord) (s : State), IuReady (↑k) 3 w s ∧ (w.flags = 0 ∧ w.a = 0 ∧ w.b = 0) ∧ ∃ (v : LoopLvl)
      (rest : List LoopLvl), (seq (↑k) s).loops = v :: rest ∧ (seq (↑k) s).calls = [] ∧ v.issued ≠ 0 ∧ v.left ≤ 1) ∧
    (∃ (k : Fin 16) (w : SeqWord) (s : State), IuReady (↑k) 3 w s ∧ (w.flags = 0 ∧ w.a = 0 ∧ w.b = 0) ∧ ∃ (v : LoopLvl)
      (rest : List LoopLvl), (seq (↑k) s).loops = v :: rest ∧ (seq (↑k) s).calls = [] ∧ ∃ (x : Nat), v.issued ≠ 0 ∧ 1 <
      v.left ∧ codeAt (↑k) v.pc s = some x ∧ hasRoutine (↑k) (x / 2 ^ 56) s = true ∧ v.pc < 65536) ∧
    (∃ (k : Fin 16) (w : SeqWord) (s : State), IuReady (↑k) 6 w s ∧ w.flags = 0 ∧ w.a = 0 ∧ ∃ (x : Nat), codeAt (↑k)
      w.b.toNat s = some x ∧ hasRoutine (↑k) (x / 2 ^ 56) s = true ∧ w.b.toNat < 65536) ∧
    (∃ (k : Fin 16) (w : SeqWord) (s : State), IuReady (↑k) 6 w s ∧ w.flags = 0 ∧ w.a = 0 ∧ codeAt (↑k) w.b.toNat s =
      none) ∧
    (∃ (k : Fin 16) (w : SeqWord) (s : State), rd (K.jtEnable ↑k) s = 0 ∧ (seq (↑k) s).pre = none ∧ (seq (↑k) s).preErr
      = none ∧ IuReady (↑k) 6 w s ∧ w.flags = 1 ∧ w.a = 0 ∧ (seq (↑k) s).loops = [] ∧ pageMapped w.b.toNat s = true) ∧
    (∃ (k : Fin 16) (w : SeqWord) (s : State), rd (K.jtEnable ↑k) s = 0 ∧ (seq (↑k) s).pre = none ∧ (seq (↑k) s).preErr
      = none ∧ IuReady (↑k) 4 w s ∧ w.flags = 0 ∧ w.a = 0 ∧ (seq (↑k) s).ptr % granuleOf (↑k) s = 0 ∧ (seq (↑k)
      s).calls.length < 16 ∧ pageMapped w.b.toNat s = true) ∧
    (∃ (k : Fin 16) (w : SeqWord) (s : State), rd (K.jtEnable ↑k) s = 0 ∧ (seq (↑k) s).pre = none ∧ (seq (↑k) s).preErr
      = none ∧ IuReady (↑k) 4 w s ∧ w.flags = 0 ∧ w.a = 0 ∧ (seq (↑k) s).ptr % granuleOf (↑k) s = 0 ∧ 16 ≤ (seq (↑k)
      s).calls.length) ∧
    (∃ (k : Fin 16) (w : SeqWord) (s : State), rd (K.jtEnable ↑k) s = 0 ∧ (seq (↑k) s).pre = none ∧ (seq (↑k) s).preErr
      = none ∧ ∃ (c : CallLvl) (rest : List CallLvl), IuReady (↑k) 5 w s ∧ (w.flags = 0 ∧ w.a = 0 ∧ w.b = 0) ∧ (seq (↑k)
      s).calls = c :: rest ∧ c.loops = (seq (↑k) s).loops.length) ∧
    (∃ (k : Fin 16) (w : SeqWord) (s : State), rd (K.jtEnable ↑k) s = 0 ∧ (seq (↑k) s).pre = none ∧ (seq (↑k) s).preErr
      = none ∧ IuReady (↑k) 5 w s ∧ (w.flags = 0 ∧ w.a = 0 ∧ w.b = 0) ∧ (seq (↑k) s).calls = []) ∧
    (∃ (k : Fin 16) (w : SeqWord) (s : State), IuReady (↑k) 1 w s ∧ w.flags.toNat < 4 ∧ w.a.toNat < 256 ∧
      (w.flags.toNat % 2 = 1 → w.b = 0) ∧ ((if w.flags.toNat % 2 = 1 then rd (K.gr (↑k) (w.a.toNat % 16))
      s else w.b.toNat) = 0 ∨ vlenOf (↑k) s < (if 2 ≤ w.flags.toNat then rd (K.gr (↑k) (w.a.toNat / 16)) s else (seq
      (↑k) s).ptr) + if w.flags.toNat % 2 = 1 then rd (K.gr (↑k) (w.a.toNat % 16)) s else w.b.toNat)) ∧
    (∃ (k : Fin 16) (w : SeqWord) (s : State), IuReady (↑k) 1 w s ∧ w.flags.toNat < 4 ∧ w.a.toNat < 256 ∧
      (w.flags.toNat % 2 = 1 → w.b = 0) ∧ (if w.flags.toNat % 2 = 1 then rd (K.gr (↑k) (w.a.toNat % 16))
      s else w.b.toNat) ≠ 0 ∧ ((if 2 ≤ w.flags.toNat then rd (K.gr (↑k) (w.a.toNat / 16)) s else (seq (↑k) s).ptr)
      + if w.flags.toNat % 2 = 1 then rd (K.gr (↑k) (w.a.toNat % 16)) s else w.b.toNat) ≤ vlenOf (↑k) s ∧ 2 ≤
      w.flags.toNat ∧ (if 2 ≤ w.flags.toNat then rd (K.gr (↑k) (w.a.toNat / 16)) s else (seq (↑k) s).ptr) % granuleOf
      (↑k) s ≠ 0) ∧
    (∃ (k : Fin 16) (w : SeqWord) (s : State), IuReady (↑k) 1 w s ∧ w.flags.toNat < 4 ∧ w.a.toNat < 256 ∧
      (w.flags.toNat % 2 = 1 → w.b = 0) ∧ (if w.flags.toNat % 2 = 1 then rd (K.gr (↑k) (w.a.toNat % 16))
      s else w.b.toNat) ≠ 0 ∧ ((if 2 ≤ w.flags.toNat then rd (K.gr (↑k) (w.a.toNat / 16)) s else (seq (↑k) s).ptr)
      + if w.flags.toNat % 2 = 1 then rd (K.gr (↑k) (w.a.toNat % 16)) s else w.b.toNat) ≤ vlenOf (↑k) s ∧ (2 ≤
      w.flags.toNat → (if 2 ≤ w.flags.toNat then rd (K.gr (↑k) (w.a.toNat / 16)) s else (seq (↑k) s).ptr) % granuleOf
      (↑k) s = 0) ∧ 16 ≤ (seq (↑k) s).queue.length) ∧
    (∃ (k : Fin 16) (w : SeqWord) (s : State), IuReady (↑k) 1 w s ∧ w.flags.toNat < 4 ∧ w.a.toNat < 256 ∧
      (w.flags.toNat % 2 = 1 → w.b = 0) ∧ (seq (↑k) s).queue.length < 16 ∧ (if w.flags.toNat % 2 = 1 then rd (K.gr (↑k)
      (w.a.toNat % 16)) s else w.b.toNat) ≠ 0 ∧ ((if 2 ≤ w.flags.toNat then rd (K.gr (↑k) (w.a.toNat / 16)) s else (seq
      (↑k) s).ptr) + if w.flags.toNat % 2 = 1 then rd (K.gr (↑k) (w.a.toNat % 16)) s else w.b.toNat) ≤ vlenOf (↑k) s ∧
      (2 ≤ w.flags.toNat → (if 2 ≤ w.flags.toNat then rd (K.gr (↑k) (w.a.toNat / 16)) s else (seq (↑k) s).ptr) %
      granuleOf (↑k) s = 0) ∧ (seq (↑k) s).loops = []) ∧
    (∃ (k : Fin 16) (w : SeqWord) (s : State), IuReady (↑k) 1 w s ∧ w.flags.toNat < 4 ∧ w.a.toNat < 256 ∧
      (w.flags.toNat % 2 = 1 → w.b = 0) ∧ (seq (↑k) s).queue.length < 16 ∧ ∃ (v : LoopLvl) (x : Nat), (if w.flags.toNat
      % 2 = 1 then rd (K.gr (↑k) (w.a.toNat % 16)) s else w.b.toNat) ≠ 0 ∧ ((if 2 ≤ w.flags.toNat then rd (K.gr (↑k)
      (w.a.toNat / 16)) s else (seq (↑k) s).ptr) + if w.flags.toNat % 2 = 1 then rd (K.gr (↑k) (w.a.toNat % 16))
      s else w.b.toNat) ≤ vlenOf (↑k) s ∧ w.flags.toNat < 2 ∧ (seq (↑k) s).loops = [v] ∧ (seq (↑k) s).calls = [] ∧ v.pc
      = pcOf (↑k) s ∧ v.pass = 1 ∧ codeAt (↑k) (pcOf (↑k) s + 1) s = some x ∧ x / 2 ^ 56 = 3) ∧
    (∃ (k : Fin 16) (w : SeqWord) (s : State), IuReady (↑k) 8 w s ∧ w.flags.toNat % 2 = 0 ∧ w.flags.toNat < 8 ∧ (seq
      (↑k) s).queue.length < 16 ∧ (seq (↑k) s).ptr % granuleOf (↑k) s = 0 ∧ w.a.toNat % 2 ^ 14 ≠ 0 ∧ (seq (↑k) s).ptr +
      w.a.toNat % 2 ^ 14 * granuleOf (↑k) s ≤ vlenOf (↑k) s) ∧
    (∃ (k : Fin 16) (w : SeqWord) (s : State), IuReady (↑k) 9 w s ∧ w.flags.toNat = 0 ∧ w.a.toNat < 2 ^ 14 ∧ w.b.toNat
      / 2 ^ 24 = 32 ∧ (seq (↑k) s).queue.length < 16 ∧ (seq (↑k) s).ptr % granuleOf (↑k) s = 0 ∧ w.a.toNat ≠ 0 ∧ (seq
      (↑k) s).ptr + w.a.toNat * granuleOf (↑k) s ≤ vlenOf (↑k) s ∧ (seq (↑k) s).events = []) ∧
    (∃ (k : Fin 16) (w : SeqWord) (s : State), IuReady (↑k) 9 w s ∧ w.flags.toNat = 0 ∧ w.a.toNat < 2 ^ 14 ∧ 34 ≤
      w.b.toNat / 2 ^ 24) ∧
    (∃ (k : Fin 16) (w : SeqWord) (s : State), IuReady (↑k) 10 w s ∧ w.flags.toNat = 0 ∧ w.a.toNat < 16 ∧ (seq (↑k)
      s).queue.length < 16) ∧
    (∃ (k : Fin 16) (w : SeqWord) (s : State), IuReady (↑k) 7 w s ∧ w.flags.toNat < 4 ∧ w.a.toNat < 16 ∧ ((rd
      (K.seqFlags ↑k) s).testBit w.a.toNat ^^ w.flags.getLsbD 1) = false) ∧
    (∃ (k : Fin 16) (w : SeqWord) (s : State), IuReady (↑k) 7 w s ∧ w.flags.toNat < 4 ∧ w.a.toNat < 16 ∧ ∃ (x : Nat),
      ((rd (K.seqFlags ↑k) s).testBit w.a.toNat ^^ w.flags.getLsbD 1) = true ∧ w.flags.toNat % 2 = 0 ∧ codeAt (↑k)
      w.b.toNat s = some x ∧ hasRoutine (↑k) (x / 2 ^ 56) s = true ∧ w.b.toNat < 65536) ∧
    (∃ (k : Fin 16) (w : SeqWord) (s : State) (b : Block), IuReady (↑k) 7 w s ∧ w.flags.toNat < 4 ∧ w.a.toNat = 32 ∧
      latestBlk true (seq (↑k) s) = some b ∧ b.decided = false) ∧
    (∃ (k : Fin 16) (w : SeqWord) (s : State), IuReady (↑k) 7 w s ∧ w.flags.toNat < 4 ∧ 57 ≤ w.a.toNat ∧ w.a.toNat <
      256) ∧
    (∃ (k : Fin 16) (w : SeqWord) (s : State), IuReady (↑k) 11 w s ∧ w.flags.toNat < 2 ∧ (w.flags.toNat = 1 → w.a.toNat
      < 16) ∧ w.b = 0) ∧
    (∃ (k : Fin 16) (w : SeqWord) (s : State), IuReady (↑k) 14 w s ∧ w.flags.toNat < 2 ∧ w.a.toNat < 2 ^ 14 ∧ w.a.toNat
      / 64 % 4 = 0 ∧ (seq (↑k) s).live = true ∧ (seq (↑k) s).load = none ∧ pageMapped w.b.toNat s = true ∧ mapped (4096
      * w.b.toNat) (640 * (w.a.toNat % 64 + 1) * (members (↑k) s).length) s = true ∧ fenced (↑k) s = false) ∧
    (∃ (k : Fin 16) (w : SeqWord) (s : State), IuReady (↑k) 14 w s ∧ w.flags.toNat < 2 ∧ w.a.toNat < 2 ^ 14 ∧ w.a.toNat
      / 64 % 4 = 0 ∧ (seq (↑k) s).live = true ∧ (seq (↑k) s).load = none ∧ pageMapped w.b.toNat s = false ∧ (seq (↑k)
      s).origin ≤ (seq (↑k) s).iuAt) ∧
    (∃ (k : Fin 16) (w : SeqWord) (s : State), IuReady (↑k) 14 w s ∧ w.flags.toNat < 2 ∧ w.a.toNat < 2 ^ 14 ∧ w.a.toNat
      / 64 % 4 = 0 ∧ (seq (↑k) s).live = true ∧ (seq (↑k) s).load = none ∧ pageMapped w.b.toNat s = true ∧ mapped (4096
      * w.b.toNat) (640 * (w.a.toNat % 64 + 1) * (members (↑k) s).length) s = false) ∧
    (∃ (k : Fin 16) (w : SeqWord) (s : State), IuReady (↑k) 14 w s ∧ (seq (↑k) s).live = true ∧ (seq (↑k) s).origin ≤
      (seq (↑k) s).iuAt ∧ (2 ≤ w.flags.toNat ∨ 2 ^ 14 ≤ w.a.toNat ∨ w.a.toNat / 64 % 4 ≠ 0)) ∧
    (∃ (k : Fin 16) (s : State), (seq (↑k) s).live = false) ∧
    (∃ (k : Fin 16) (w : SeqWord) (s : State), IuReady (↑k) 15 w s ∧ w.flags.toNat = 0 ∧ w.a.toNat = 0 ∧ w.b = 0 ∧ (seq
      (↑k) s).loops = []) ∧
    (∃ (k : Fin 16) (w : SeqWord) (s : State), IuReady (↑k) 15 w s ∧ w.flags.toNat = 0 ∧ w.a.toNat = 0 ∧ w.b = 0 ∧ (seq
      (↑k) s).loops ≠ [] ∧ (seq (↑k) s).calls = []) ∧
    (∃ (k : Fin 16) (w : SeqWord) (s : State), IuReady (↑k) 16 w s ∧ w.flags.toNat = 0 ∧ w.b = 0 ∧ (seq (↑k) s).loops =
      []) ∧
    (∃ (k : Fin 16) (w : SeqWord) (s : State), IuReady (↑k) 16 w s ∧ w.flags.toNat = 0 ∧ w.b = 0 ∧ (seq (↑k) s).loops ≠
      [] ∧ (seq (↑k) s).calls = []) :=
  ⟨⟨0, ⟨{ flags := 0, a := 0, b := 0 }, ⟨s1, ⟨(iuReady 216172782113783808 (by decide +kernel)),
     (by decide +kernel)⟩⟩⟩⟩,
   ⟨0, ⟨{ flags := 1, a := 0, b := 0 }, ⟨s2, ⟨(iuReady 1224979098644774912 (by decide +kernel)),
     (by decide +kernel)⟩⟩⟩⟩,
   ⟨0, ⟨{ flags := 0, a := 0, b := 5 }, ⟨s3, ⟨(iuReady 1224979098644774912 (by decide +kernel)),
     (by decide +kernel)⟩⟩⟩⟩,
   ⟨0, ⟨{ flags := 0, a := 0, b := 5 }, ⟨s4, ⟨(iuReady 1224979098644774912 (by decide +kernel)),
     (by decide +kernel)⟩⟩⟩⟩,
   ⟨0, ⟨{ flags := 0, a := 0, b := 0 }, ⟨s5, ⟨(iuReady 1224979098644774912 (by decide +kernel)),
     (by decide +kernel)⟩⟩⟩⟩,
   ⟨0, ⟨{ flags := 0, a := 0, b := 0 }, ⟨s6, ⟨(iuReady 1224979098644774912 (by decide +kernel)), ⟨(by decide +kernel),
     ⟨{ left := 5, pc := 1, ptr := 64 }, ⟨[], (by decide +kernel)⟩⟩⟩⟩⟩⟩⟩,
   ⟨0, ⟨{ flags := 0, a := 0, b := 0 }, ⟨s7, ⟨(iuReady 1224979098644774912 (by decide +kernel)), ⟨(by decide +kernel),
     ⟨{ left := 1, pc := 1, ptr := 64, issued := 64 }, ⟨[], (by decide +kernel)⟩⟩⟩⟩⟩⟩⟩,
   ⟨0, ⟨{ flags := 0, a := 0, b := 0 }, ⟨s8, ⟨(iuReady 1224979098644774912 (by decide +kernel)), ⟨(by decide +kernel),
     ⟨{ left := 5, pc := 1, ptr := 64, issued := 64 }, ⟨[], ⟨(by decide +kernel), ⟨(by decide +kernel),
     ⟨216172782113783808, (by decide +kernel)⟩⟩⟩⟩⟩⟩⟩⟩⟩⟩,
   ⟨0, ⟨{ flags := 0, a := 0, b := 4 }, ⟨s9, ⟨(iuReady 1224979098644774912 (by decide +kernel)),
     (by decide +kernel)⟩⟩⟩⟩,
   ⟨0, ⟨{ flags := 0, a := 0, b := 77 }, ⟨s10, ⟨(iuReady 1224979098644774912 (by decide +kernel)),
     (by decide +kernel)⟩⟩⟩⟩,
   ⟨0, ⟨{ flags := 1, a := 0, b := 9 }, ⟨s11, ⟨(by decide +kernel), ⟨(by decide +kernel), ⟨(by decide +kernel),
     ⟨(iuReady 1224979098644774912 (by decide +kernel)), (by decide +kernel)⟩⟩⟩⟩⟩⟩⟩,
   ⟨0, ⟨{ flags := 0, a := 0, b := 3 }, ⟨s12, ⟨(by decide +kernel), ⟨(by decide +kernel), ⟨(by decide +kernel),
     ⟨(iuReady 1224979098644774912 (by decide +kernel)), (by decide +kernel)⟩⟩⟩⟩⟩⟩⟩,
   ⟨0, ⟨{ flags := 0, a := 0, b := 3 }, ⟨s13, ⟨(by decide +kernel), ⟨(by decide +kernel), ⟨(by decide +kernel),
     ⟨(iuReady 1224979098644774912 (by decide +kernel)), (by decide +kernel)⟩⟩⟩⟩⟩⟩⟩,
   ⟨0, ⟨{ flags := 0, a := 0, b := 0 }, ⟨s14, ⟨(by decide +kernel), ⟨(by decide +kernel), ⟨(by decide +kernel),
     ⟨{ page := 5, pc := 1, ptr := 64, loops := 0 }, ⟨[], ⟨(iuReady 1224979098644774912 (by decide +kernel)),
     (by decide +kernel)⟩⟩⟩⟩⟩⟩⟩⟩⟩,
   ⟨0, ⟨{ flags := 0, a := 0, b := 0 }, ⟨s15, ⟨(by decide +kernel), ⟨(by decide +kernel), ⟨(by decide +kernel),
     ⟨(iuReady 1224979098644774912 (by decide +kernel)), (by decide +kernel)⟩⟩⟩⟩⟩⟩⟩,
   ⟨0, ⟨{ flags := 0, a := 0, b := 0 }, ⟨s16, ⟨(iuReady 1224979098644774912 (by decide +kernel)),
     (by decide +kernel)⟩⟩⟩⟩,
   ⟨0, ⟨{ flags := 3, a := 32, b := 0 }, ⟨s17, ⟨(iuReady 1224979098644774912 (by decide +kernel)),
     (by decide +kernel)⟩⟩⟩⟩,
   ⟨0, ⟨{ flags := 0, a := 0, b := 64 }, ⟨s18, ⟨(iuReady 1224979098644774912 (by decide +kernel)),
     (by decide +kernel)⟩⟩⟩⟩,
   ⟨0, ⟨{ flags := 0, a := 0, b := 64 }, ⟨s19, ⟨(iuReady 1224979098644774912 (by decide +kernel)),
     (by decide +kernel)⟩⟩⟩⟩,
   ⟨0, ⟨0, 0, 1000⟩, sl, iuReady (3 * 2 ^ 56) (by decide +kernel),
     by decide +kernel, by decide +kernel, by decide +kernel, by decide +kernel, ⟨2, 2, 0, 0, 1, none⟩, 3 * 2 ^ 56, by decide +kernel⟩,
   ⟨0, ⟨{ flags := 0, a := 1, b := 5 }, ⟨s20, ⟨(iuReady 1224979098644774912 (by decide +kernel)),
     (by decide +kernel)⟩⟩⟩⟩,
   ⟨0, ⟨{ flags := 0, a := 1, b := 536870917 }, ⟨s21, ⟨(iuReady 1224979098644774912 (by decide +kernel)),
     (by decide +kernel)⟩⟩⟩⟩,
   ⟨0, ⟨{ flags := 0, a := 1, b := 570425344 }, ⟨s22, ⟨(iuReady 1224979098644774912 (by decide +kernel)),
     (by decide +kernel)⟩⟩⟩⟩,
   ⟨0, ⟨{ flags := 0, a := 3, b := 500 }, ⟨s23, ⟨(iuReady 1224979098644774912 (by decide +kernel)),
     (by decide +kernel)⟩⟩⟩⟩,
   ⟨0, ⟨{ flags := 0, a := 0, b := 4 }, ⟨s24, ⟨(iuReady 1224979098644774912 (by decide +kernel)),
     (by decide +kernel)⟩⟩⟩⟩,
   ⟨0, ⟨{ flags := 0, a := 0, b := 4 }, ⟨s25, ⟨(iuReady 1224979098644774912 (by decide +kernel)),
     ⟨(by decide +kernel), ⟨(by decide +kernel), ⟨216172782113783808, (by decide +kernel)⟩⟩⟩⟩⟩⟩⟩,
   ⟨0, ⟨{ flags := 0, a := 32, b := 4 }, ⟨s26, ⟨{ id := 1, isMatch := true }, ⟨(iuReady 1224979098644774912
     (by decide +kernel)), (by decide +kernel)⟩⟩⟩⟩⟩,
   ⟨0, ⟨{ flags := 0, a := 57, b := 0 }, ⟨s27, ⟨(iuReady 1224979098644774912 (by decide +kernel)),
     (by decide +kernel)⟩⟩⟩⟩,
   ⟨0, ⟨{ flags := 0, a := 7, b := 0 }, ⟨s28, ⟨(iuReady 1224979098644774912 (by decide +kernel)),
     (by decide +kernel)⟩⟩⟩⟩,
   ⟨0, ⟨{ flags := 0, a := 0, b := 3 }, ⟨s29, ⟨(iuReady 1224979098644774912 (by decide +kernel)),
     (by decide +kernel)⟩⟩⟩⟩,
   ⟨0, ⟨{ flags := 0, a := 8192, b := 4294967295 }, ⟨s30, ⟨(iuReady 1224979098644774912 (by decide +kernel)),
     (by decide +kernel)⟩⟩⟩⟩,
   ⟨0, ⟨0, 63, 0x1FFFFFF⟩, sa, iuReady (3 * 2 ^ 56) (by decide +kernel), by decide +kernel⟩,
   ⟨0, ⟨2, 0, 0⟩, sb, iuReady (3 * 2 ^ 56) (by decide +kernel), by decide +kernel⟩,
   ⟨0, ⟨s31, (by decide +kernel)⟩⟩,
   ⟨0, ⟨{ flags := 0, a := 0, b := 0 }, ⟨s32, ⟨(iuReady 1224979098644774912 (by decide +kernel)),
     (by decide +kernel)⟩⟩⟩⟩,
   ⟨0, ⟨{ flags := 0, a := 0, b := 0 }, ⟨s33, ⟨(iuReady 1224979098644774912 (by decide +kernel)),
     (by decide +kernel)⟩⟩⟩⟩,
   ⟨0, ⟨{ flags := 0, a := 9, b := 0 }, ⟨s34, ⟨(iuReady 1224979098644774912 (by decide +kernel)),
     (by decide +kernel)⟩⟩⟩⟩,
   ⟨0, ⟨{ flags := 0, a := 9, b := 0 }, ⟨s35, ⟨(iuReady 1224979098644774912 (by decide +kernel)),
     (by decide +kernel)⟩⟩⟩⟩⟩
end Witness.SequencerInstructions

namespace Witness.SequencerEvents
def s1 : State :=
  { seqs := [(0, { blks := [{ id := 1, isMatch := true, limit := 3, sites := 5,
                              reps := [{ n := 1, firstVec := 0, start := 100, ts := [],
                                         endCyc := some 3, verdictAt := some 5000 }] }] })] }
def v2 : Block :=
  { id := 1, isMatch := true, limit := 3, sites := 5,
    reps := [{ n := 1, firstVec := 0, start := 100, ts := [], endCyc := some 3, verdictAt := some 5000 }] }
def v3 : Rep :=
  { n := 1, firstVec := 0, start := 100, ts := [], endCyc := some 3, verdictAt := some 5000 }
def s4 : State :=
  { seqs := [(0, { blks := [{ id := 1, isMatch := true, limit := 3, sites := 5,
                              reps := [{ n := 1, firstVec := 0, start := 100, ts := [],
                                         endCyc := some 3, verdictAt := some 5000, fails := 1,
                                         chans := [(0, 3)] }] }] })] }
def v5 : Block :=
  { id := 1, isMatch := true, limit := 3, sites := 5,
    reps := [{ n := 1, firstVec := 0, start := 100, ts := [], endCyc := some 3, verdictAt := some 5000,
               fails := 1, chans := [(0, 3)] }] }
def v6 : Rep :=
  { n := 1, firstVec := 0, start := 100, ts := [], endCyc := some 3, verdictAt := some 5000, fails := 1,
    chans := [(0, 3)] }
def s7 : State :=
  { seqs := [(0, { blks := [{ id := 2, isMatch := false, source := 32, limit := 3, since := 777,
                              event := some 99999 }] })] }
def v8 : Block :=
  { id := 2, isMatch := false, source := 32, limit := 3, since := 777, event := some 99999 }
def s9 : State :=
  { seqs := [(0, { blks := [{ id := 2, isMatch := false, source := 32, limit := 3, since := 777, rep := 3 }] })] }
def v10 : Block :=
  { id := 2, isMatch := false, source := 32, limit := 3, since := 777, rep := 3 }
def s11 : State :=
  { objs := [(K.runState 0, 3)],
    seqs := [(0, { queue := [{ page := 3, first := 64, count := 4, kind := .hold 1 5 },
                             { page := 3, first := 64, count := 4 }],
                   live := true, nextAt := 900000, holdEdge := some 4000 })] }
def v12 : Range :=
  { page := 3, first := 64, count := 4, kind := .hold 1 5 }
def s13 : State :=
  { objs := [(K.runState 0, 3)],
    seqs := [(0, { queue := [{ page := 3, first := 64, count := 4, kind := .hold 1 5 },
                             { page := 3, first := 64, count := 4 }],
                   live := true, nextAt := 900000, holdEnd := some 900 })] }
def s14 : State :=
  { seqs := [(0, { live := true,
                   load := some { first := 2, count := 3, page := 9, wait := false, at0 := 5,
                                  firstAt := some 77777, trapped := true, since := some 100,
                                  recs := [(0, List.replicate 640 0), (1, List.replicate 640 2)],
                                  recAt := [(0, 90), (1, 95)] },
                   cycAt := 890000 })] }
def v15 : Load :=
  { first := 2, count := 3, page := 9, wait := false, at0 := 5, firstAt := some 77777, trapped := true,
    since := some 100, recs := [(0, List.replicate 640 0), (1, List.replicate 640 2)], recAt := [(0, 90), (1, 95)] }
def s16 : State :=
  { seqs := [(0, { load := some { first := 2, count := 3, page := 9, wait := false, at0 := 5,
                                  since := some 100,
                                  recs := [(0, List.replicate 640 0), (1, List.replicate 640 2)],
                                  recAt := [(0, 90), (1, 95)] } })] }
def v17 : Load :=
  { first := 2, count := 3, page := 9, wait := false, at0 := 5, since := some 100,
    recs := [(0, List.replicate 640 0), (1, List.replicate 640 2)], recAt := [(0, 90), (1, 95)] }
def s18 : State :=
  { seqs := [(0, { ending := some .stop,
                   load := some { first := 2, count := 3, page := 9, wait := false, at0 := 5,
                                  trapped := true, since := some 100,
                                  recs := [(0, List.replicate 640 0), (1, List.replicate 640 2)],
                                  recAt := [(0, 90), (1, 95)] } })] }
def v19 : Load :=
  { first := 2, count := 3, page := 9, wait := false, at0 := 5, trapped := true, since := some 100,
    recs := [(0, List.replicate 640 0), (1, List.replicate 640 2)], recAt := [(0, 90), (1, 95)] }
def s20 : State :=
  { seqs := [(0, { load := some { first := 2, count := 3, page := 9, wait := false, at0 := 5,
                                  trapped := true, since := some 100,
                                  recs := [(0, List.replicate 640 0), (1, List.replicate 640 2)],
                                  recAt := [(0, 90), (1, 95)] } })] }
def s21 : State :=
  { objs := [(K.dramMappedBytes, 2 ^ 37)], seqs := [(0, { wait := .commit (.jump 9) })] }
def s22 : State :=
  { objs := [(K.ethLink 0, 1), (K.startStep, 8)],
    seqs := [(0, { blks := [{ id := 2, isMatch := false, source := 32, limit := 3, since := 777 }] })],
    sessions := [sess 1] }
def v23 : Block :=
  { id := 2, isMatch := false, source := 32, limit := 3, since := 777 }
def s24 : State :=
  { objs := [(K.ethLink 0, 1), (K.startStep, 8)], sessions := [sess 1] }
theorem witness_SequencerEvents :
    (∃ (k : Fin 16) (b : Block) (x : Rep) (s : State), openMatch (↑k) s = some b ∧ b.rly = false ∧ dueRep (↑k) b s =
      some x ∧ decides b x = true ∧ localMet b x = true ∧ (seq (↑k) s).wait = IuWait.none ∧ ∀ (g : Nat), (grp g
      s).judges = []) ∧
    (∃ (k : Fin 16) (b : Block) (x : Rep) (s : State), openMatch (↑k) s = some b ∧ b.rly = false ∧ dueRep (↑k) b s =
      some x ∧ decides b x = false ∧ leader (↑k) s = ↑k) ∧
    (∃ (k : Fin 16) (b : Block) (s : State), openWait (↑k) s = some b ∧ (seq (↑k) s).wait = IuWait.none ∧ ∃ (e : Nat),
      b.event = some e ∧ (b.limit = 0 ∨ b.rep < b.limit)) ∧
    (∃ (k : Fin 16) (b : Block) (s : State), openWait (↑k) s = some b ∧ (seq (↑k) s).wait = IuWait.none ∧ b.event =
      none ∧ b.limit ≠ 0 ∧ b.limit ≤ b.rep) ∧
    (∃ (k : Fin 16) (r : Range) (rest : List Range) (tmr : Nat) (lim : Nat) (s : State), (seq (↑k) s).live = true ∧
      leader (↑k) s = ↑k ∧ fenced (↑k) s = false ∧ runState (↑k) s = 3 ∧ (seq (↑k) s).queue = r :: rest ∧ r.kind =
      RangeKind.hold tmr lim ∧ (seq (↑k) s).wait = IuWait.none ∧ ∃ (e : Nat), (seq (↑k) s).holdEdge = some e ∧ e ≤ (seq
      (↑k) s).nextAt) ∧
    (∃ (k : Fin 16) (r : Range) (rest : List Range) (tmr : Nat) (lim : Nat) (s : State), (seq (↑k) s).live = true ∧
      leader (↑k) s = ↑k ∧ fenced (↑k) s = false ∧ runState (↑k) s = 3 ∧ (seq (↑k) s).queue = r :: rest ∧ r.kind =
      RangeKind.hold tmr lim ∧ (seq (↑k) s).wait = IuWait.none ∧ ∃ (e : Nat), (seq (↑k) s).holdEdge = none ∧ (seq (↑k)
      s).holdEnd = some e ∧ e ≠ 0 ∧ e ≤ (seq (↑k) s).nextAt) ∧
    (∃ (k : Fin 16) (d : Load) (rec0 : Bytes) (s : State), (seq (↑k) s).load = some d ∧ leader (↑k) s = ↑k ∧ fenced
      (↑k) s = false ∧ loadDue (↑k) s = true ∧ members (↑k) s = [↑k] ∧ Tab.get [] d.committed d.recs = rec0 ∧ setLoads
      (↑k) (d.first + d.committed) [rec0] s = true ∧ d.committed + 1 < d.count) ∧
    (∃ (k : Fin 16) (cause : Fin 7) (d : Load) (s : State), (seq (↑k) s).load = some d ∧ d.trapped = false ∧ d.wait =
      false ∧ leader (↑k) s = ↑k ∧ fenced (↑k) s = false ∧ ↑cause ≠ trapCause (seq (↑k) s)) ∧
    (∃ (k : Fin 16) (cause : Fin 7) (d : Load) (s : State), (seq (↑k) s).load = some d ∧ d.trapped = false ∧ d.wait =
      false ∧ leader (↑k) s = ↑k ∧ fenced (↑k) s = false ∧ (seq (↑k) s).wait = IuWait.none ∧ (seq (↑k) s).ending = none
      ∧ (needsSlot (↑k) s = true → (seq (↑k) s).queue.length < 16) ∧ ↑cause = d.cause) ∧
    (∃ (k : Fin 16) (d : Load) (s : State), (seq (↑k) s).load = some d ∧ d.trapped = true ∧ (∀ (page : Nat), (seq (↑k)
      s).wait ≠ IuWait.head page) ∧ ((seq (↑k) s).wait = IuWait.none → (seq (↑k) s).ending ≠ none ∨ 16 ≤ (seq (↑k)
      s).queue.length ∧ needsSlot (↑k) s = true)) ∧
    (∃ (k : Fin 16) (d : Load) (s : State), (seq (↑k) s).load = some d ∧ d.trapped = true ∧ ¬((∀ (page : Nat), (seq
      (↑k) s).wait ≠ IuWait.head page) ∧ ((seq (↑k) s).wait = IuWait.none → (seq (↑k) s).ending ≠ none ∨ 16 ≤ (seq (↑k)
      s).queue.length ∧ needsSlot (↑k) s = true))) ∧
    (∃ (k : Fin 16) (page : Nat) (c : Nat × Nat) (s : State), (seq (↑k) s).wait = IuWait.commit (Boundary.jump page) ∧
      leader (↑k) s = ↑k ∧ fenced (↑k) s = false ∧ (seq (↑k) s).load = none ∧ commitAt (↑k) s = some c ∧ (∀ (r :
      JumpReq), r ∈ (seq (↑k) s).jumps → max (c.snd / 2048 * 2048) (seq (↑k) s).iuAt < r.due) ∧ requestTaken (↑k) c s =
      false ∧ (seq (↑k) s).loops = [] ∧ pageMapped page s = true ∧ (seq (↑k) s).pre = none ∧ (seq (↑k) s).preErr = none) ∧
    (∃ (k : Fin 16) (b : Block) (s0 : State) (v : Byte), HostMeets opWrite (K.seqHostEvent ↑k) [v] 0 false fun _ s => s
      = s0 ∧ BitVec.toNat v = 1 ∧ leader (↑k) s = ↑k ∧ List.find? (fun (y : Block) => !y.isMatch && !y.decided &&
      y.source == 32 && y.event.isNone) (seq (↑k) s).blks = some b) ∧
    (∃ (k : Fin 16) (v : Byte), HostMeets opWrite (K.seqHostEvent ↑k) [v] 0 false fun _ s => BitVec.toNat v = 0 ∧
      leader (↑k) s = ↑k) :=
  ⟨⟨0, ⟨v2, ⟨v3, ⟨s1, ⟨(by decide +kernel), ⟨(by decide +kernel), ⟨(by decide +kernel), ⟨(by decide +kernel),
     ⟨(by decide +kernel), ⟨(by decide +kernel), (fun _ => rfl)⟩⟩⟩⟩⟩⟩⟩⟩⟩⟩,
   ⟨0, ⟨v5, ⟨v6, ⟨s4, (by decide +kernel)⟩⟩⟩⟩,
   ⟨0, ⟨v8, ⟨s7, (by decide +kernel)⟩⟩⟩,
   ⟨0, ⟨v10, ⟨s9, (by decide +kernel)⟩⟩⟩,
   ⟨0, ⟨v12, ⟨[{ page := 3, first := 64, count := 4 }], ⟨1, ⟨5, ⟨s11, (by decide +kernel)⟩⟩⟩⟩⟩⟩,
   ⟨0, ⟨v12, ⟨[{ page := 3, first := 64, count := 4 }], ⟨1, ⟨5, ⟨s13, ⟨(by decide +kernel), ⟨(by decide +kernel),
     ⟨(by decide +kernel), ⟨(by decide +kernel), ⟨(by decide +kernel), ⟨(by decide +kernel), ⟨(by decide +kernel), ⟨900,
     (by decide +kernel)⟩⟩⟩⟩⟩⟩⟩⟩⟩⟩⟩⟩⟩⟩,
   ⟨0, ⟨v15, ⟨(List.replicate 640 0), ⟨s14, (by decide +kernel)⟩⟩⟩⟩,
   ⟨0, ⟨0, ⟨v17, ⟨s16, (by decide +kernel)⟩⟩⟩⟩,
   ⟨0, ⟨1, ⟨v17, ⟨s16, (by decide +kernel)⟩⟩⟩⟩,
   ⟨0, ⟨v19, ⟨s18, ⟨(by decide +kernel), ⟨(by decide +kernel), ⟨(fun _ h => nomatch h), (by decide +kernel)⟩⟩⟩⟩⟩⟩,
   ⟨0, ⟨v19, ⟨s20, ⟨(by decide +kernel), ⟨(by decide +kernel), (fun h => absurd (h.2 rfl) (by decide +kernel))⟩⟩⟩⟩⟩,
   ⟨0, ⟨9, ⟨(0, 0), ⟨s21, (by decide +kernel)⟩⟩⟩⟩,
   ⟨0, ⟨v23, ⟨s22, ⟨1, (hostMeets s22 (by decide +kernel) (by decide +kernel))⟩⟩⟩⟩,
   ⟨0, ⟨0, (hostMeets s24 (by decide +kernel) (by decide +kernel))⟩⟩⟩
end Witness.SequencerEvents

namespace Witness.RunCommands
def s1 : State :=
  { objs := [(K.ethLink 0, 1), (K.startStep, 8)], sessions := [sess 1] }
def s2 : State :=
  { objs := [(K.ethLink 0, 1), (K.runState 0, 1), (K.startStep, 8), (K.clkStatus, 15)], sessions := [sess 1] }
def s3 : State :=
  { objs := [(K.ethLink 0, 1), (K.runState 0, 1), (K.startStep, 8)], sessions := [sess 1] }
def s4 : State :=
  { objs := [(K.ethLink 0, 1), (K.runState 0, 1), (K.dramSpeedStatus, 2), (K.startStep, 8)], sessions := [sess 1] }
def s5 : State :=
  { objs := [(K.ethLink 0, 1), (K.runState 0, 2), (K.startStep, 8), (K.clkStatus, 15)], sessions := [sess 1] }
def s6 : State :=
  { objs := [(K.ethLink 0, 1), (K.runState 0, 3), (K.startStep, 8)], sessions := [sess 1] }
def s7 : State :=
  { objs := [(K.ethLink 0, 1), (K.runState 0, 4), (K.startStep, 8)], seqs := [(0, { pauseWhy := 1 })],
    sessions := [sess 1] }
def s8 : State :=
  { objs := [(K.ethLink 0, 1), (K.runState 0, 2), (K.startStep, 8)], sessions := [sess 1] }
def s9 : State :=
  { objs := [(K.ethLink 0, 1), (K.runState 0, 5), (K.startStep, 8)], sessions := [sess 1] }
def s10 : State :=
  { objs := [(K.ethLink 0, 1), (K.runArmBusy 0, 1), (K.startStep, 8)], sessions := [sess 1] }
def s11 : State :=
  { objs := [(K.ethLink 0, 1), (K.cgGang 1, 0), (K.startStep, 8)], sessions := [sess 1] }
theorem witness_RunCommands :
    (∃ (g : Fin 16), HostMeets opWrite (K.runCmd ↑g) [1] 0 false fun _ s => (leader (↑g) s = ↑g ∧ rd (K.runArmBusy ↑g)
      s = 0) ∧ runState (↑g) s = 0 ∧ s.jtag.acting = false) ∧
    (∃ (g : Fin 16), HostMeets opWrite (K.runCmd ↑g) [2] 0 false fun _ s => (leader (↑g) s = ↑g ∧ rd (K.runArmBusy ↑g)
      s = 0) ∧ (runState (↑g) s = 1 ∧ tclkLocked s = true ∨ runState (↑g) s = 5)) ∧
    (∃ (g : Fin 16), HostMeets opWrite (K.runCmd ↑g) [3] 0 false fun _ s => ((leader (↑g) s = ↑g ∧ rd (K.runArmBusy ↑g)
      s = 0) ∧ runState (↑g) s = 1 ∧ rd (K.mcTsLock ↑g) s = 0 ∧ rd K.mcPatchStatus s ≠ 4) ∧ rd K.dramSpeedStatus s ≠ 2) ∧
    (∃ (g : Fin 16), HostMeets opWrite (K.runCmd ↑g) [3] 0 false fun _ s => ((leader (↑g) s = ↑g ∧ rd (K.runArmBusy ↑g)
      s = 0) ∧ runState (↑g) s = 1 ∧ rd (K.mcTsLock ↑g) s = 0 ∧ rd K.mcPatchStatus s ≠ 4) ∧ rd K.dramSpeedStatus s = 2) ∧
    (∃ (g : Fin 16), HostMeets opWrite (K.runCmd ↑g) [3] 0 false fun _ s => (leader (↑g) s = ↑g ∧ rd (K.runArmBusy ↑g)
      s = 0) ∧ (runState (↑g) s ≠ 1 ∨ rd (K.mcTsLock ↑g) s ≠ 0 ∨ rd K.mcPatchStatus s = 4)) ∧
    (∃ (g : Fin 16), HostMeets opWrite (K.runCmd ↑g) [4] 0 false fun _ s => (leader (↑g) s = ↑g ∧ rd (K.runArmBusy ↑g)
      s = 0) ∧ runState (↑g) s = 2 ∧ rd (K.runStartSrc ↑g) s = 0 ∧ tclkLocked s = true) ∧
    (∃ (g : Fin 16), HostMeets opWrite (K.runCmd ↑g) [5] 0 false fun _ s => (leader (↑g) s = ↑g ∧ rd (K.runArmBusy ↑g)
      s = 0) ∧ runState (↑g) s = 2 ∧ tclkLocked s = true ∧ (seq (↑g) s).jumps = [] ∧ SourceIdle (↑g) s) ∧
    (∃ (g : Fin 16), HostMeets opWrite (K.runCmd ↑g) [6] 0 false fun _ s => (leader (↑g) s = ↑g ∧ rd (K.runArmBusy ↑g)
      s = 0) ∧ runState (↑g) s = 3 ∧ (seq (↑g) s).stopped = none) ∧
    (∃ (g : Fin 16), HostMeets opWrite (K.runCmd ↑g) [7] 0 false fun _ s => (leader (↑g) s = ↑g ∧ rd (K.runArmBusy ↑g)
      s = 0) ∧ runState (↑g) s = 4 ∧ (seq (↑g) s).pauseWhy = 1 ∧ (seq (↑g) s).stopped = none) ∧
    (∃ (g : Fin 16), HostMeets opWrite (K.runCmd ↑g) [8] 0 false fun _ s => (leader (↑g) s = ↑g ∧ rd (K.runArmBusy ↑g)
      s = 0) ∧ busyState (runState (↑g) s) = true) ∧
    (∃ (g : Fin 16), HostMeets opWrite (K.runCmd ↑g) [9] 0 false fun _ s => (leader (↑g) s = ↑g ∧ rd (K.runArmBusy ↑g)
      s = 0) ∧ runState (↑g) s = 5) ∧
    (∃ (g : Fin 16), HostMeets opWrite (K.runCmd ↑g) [1] 0 false fun _ s => (leader (↑g) s = ↑g ∧ rd (K.runArmBusy ↑g)
      s = 0) ∧ (runState (↑g) s ≠ 0 ∨ s.jtag.acting = true)) ∧
    (∃ (g : Fin 16), HostMeets opWrite (K.runCmd ↑g) [2] 0 false fun _ s => (leader (↑g) s = ↑g ∧ rd (K.runArmBusy ↑g)
      s = 0) ∧ runState (↑g) s ≠ 5 ∧ (runState (↑g) s ≠ 1 ∨ tclkLocked s = false)) ∧
    (∃ (g : Fin 16), HostMeets opWrite (K.runCmd ↑g) [4] 0 false fun _ s => (leader (↑g) s = ↑g ∧ rd (K.runArmBusy ↑g)
      s = 0) ∧ (runState (↑g) s ≠ 2 ∨ rd (K.runStartSrc ↑g) s ≠ 0 ∨ tclkLocked s = false)) ∧
    (∃ (g : Fin 16), HostMeets opWrite (K.runCmd ↑g) [5] 0 false fun _ s => (leader (↑g) s = ↑g ∧ rd (K.runArmBusy ↑g)
      s = 0) ∧ (runState (↑g) s ≠ 2 ∨ tclkLocked s = false)) ∧
    (∃ (g : Fin 16), HostMeets opWrite (K.runCmd ↑g) [6] 0 false fun _ s => (leader (↑g) s = ↑g ∧ rd (K.runArmBusy ↑g)
      s = 0) ∧ (runState (↑g) s ≠ 3 ∨ (seq (↑g) s).stopped ≠ none)) ∧
    (∃ (g : Fin 16), HostMeets opWrite (K.runCmd ↑g) [7] 0 false fun _ s => (leader (↑g) s = ↑g ∧ rd (K.runArmBusy ↑g)
      s = 0) ∧ (runState (↑g) s ≠ 4 ∨ (seq (↑g) s).pauseWhy ≠ 1 ∨ (seq (↑g) s).stopped ≠ none)) ∧
    (∃ (g : Fin 16), HostMeets opWrite (K.runCmd ↑g) [8] 0 false fun _ s => (leader (↑g) s = ↑g ∧ rd (K.runArmBusy ↑g)
      s = 0) ∧ busyState (runState (↑g) s) = false) ∧
    (∃ (g : Fin 16), HostMeets opWrite (K.runCmd ↑g) [9] 0 false fun _ s => (leader (↑g) s = ↑g ∧ rd (K.runArmBusy ↑g)
      s = 0) ∧ runState (↑g) s ≠ 5) ∧
    (∃ (g : Fin 16), HostMeets opWrite (K.runCmd ↑g) [1] 0 false fun _ s => leader (↑g) s = ↑g ∧ rd (K.runArmBusy ↑g) s
      ≠ 0) ∧
    (∃ (g : Fin 16), HostMeets opWrite (K.runCmd ↑g) [1] 0 false fun _ s => leader (↑g) s ≠ ↑g) ∧
    (∃ (p : Bytes), List.length p = 2 ∧ HostMeets opWrite K.runGroupStart p 0 false fun _ s => (∀ (g : Nat), g ∈ bitsOf
      (leNat p) 16 → leader g s = g ∧ runState g s = 2 ∧ rd (K.runStartSrc g) s = 0 ∧ rd (K.runArmBusy g) s = 0) ∧
      tclkLocked s = true) ∧
    (∃ (p : Bytes), List.length p = 2 ∧ HostMeets opWrite K.runGroupStart p 0 false fun _ s => ¬((∀ (g : Nat), g ∈
      bitsOf (leNat p) 16 → leader g s = g ∧ runState g s = 2 ∧ rd (K.runStartSrc g) s = 0 ∧ rd (K.runArmBusy g) s = 0)
      ∧ tclkLocked s = true)) :=
  ⟨⟨0, (hostMeets s1 (by decide +kernel) (by decide +kernel))⟩,
   ⟨0, (hostMeets s2 (by decide +kernel) (by decide +kernel))⟩,
   ⟨0, (hostMeets s3 (by decide +kernel) (by decide +kernel))⟩,
   ⟨0, (hostMeets s4 (by decide +kernel) (by decide +kernel))⟩,
   ⟨0, (hostMeets s1 (by decide +kernel) (by decide +kernel))⟩,
   ⟨0, (hostMeets s5 (by decide +kernel) (by decide +kernel))⟩,
   ⟨0, (hostMeets s5 (by decide +kernel) (by delta SourceIdle; decide +kernel))⟩,
   ⟨0, (hostMeets s6 (by decide +kernel) (by decide +kernel))⟩,
   ⟨0, (hostMeets s7 (by decide +kernel) (by decide +kernel))⟩,
   ⟨0, (hostMeets s8 (by decide +kernel) (by decide +kernel))⟩,
   ⟨0, (hostMeets s9 (by decide +kernel) (by decide +kernel))⟩,
   ⟨0, (hostMeets s8 (by decide +kernel) (by decide +kernel))⟩,
   ⟨0, (hostMeets s1 (by decide +kernel) (by decide +kernel))⟩,
   ⟨0, (hostMeets s1 (by decide +kernel) (by decide +kernel))⟩,
   ⟨0, (hostMeets s1 (by decide +kernel) (by decide +kernel))⟩,
   ⟨0, (hostMeets s1 (by decide +kernel) (by decide +kernel))⟩,
   ⟨0, (hostMeets s1 (by decide +kernel) (by decide +kernel))⟩,
   ⟨0, (hostMeets s1 (by decide +kernel) (by decide +kernel))⟩,
   ⟨0, (hostMeets s1 (by decide +kernel) (by decide +kernel))⟩,
   ⟨0, (hostMeets s10 (by decide +kernel) (by decide +kernel))⟩,
   ⟨1, (hostMeets s11 (by decide +kernel) (by decide +kernel))⟩,
   ⟨[1, 0], ⟨(by decide +kernel), (hostMeets s5 (by decide +kernel) (by decide +kernel))⟩⟩,
   ⟨[1, 0], ⟨(by decide +kernel), (hostMeets s1 (by decide +kernel) (by decide +kernel))⟩⟩⟩
end Witness.RunCommands

namespace Witness.RunEvents
def s1 : State :=
  { objs := [(K.runState 0, 1), (K.runArmBusy 0, 1), (K.dramMappedBytes, 2 ^ 37), (K.clkStatus, 31)],
    grps := [(0, { grans := [{ page := 3, n := 0,
                               units := [{ code := 4369, ts := 0 }, { code := 8738, ts := 1 },
                                         { code := 0, ts := 0 }, { code := 5, ts := 0 }],
                               bytes := 64 }] })],
    seqs := [(0, { ending := some .stop, heads := [{ head [17 * 2 ^ 56] with key := 3 }], first := 3 })] }
def s2 : State :=
  { objs := [(K.runState 0, 1), (K.runArmBusy 0, 1), (K.runStartSrc 0, 34), (K.dramMappedBytes, 2 ^ 37),
             (K.tmrMode 2, 2), (K.tmrState 2, 1), (K.clkStatus, 31)],
    now := 5555,
    grps := [(0, { grans := [{ page := 3, n := 0,
                               units := [{ code := 4369, ts := 0 }, { code := 8738, ts := 1 },
                                         { code := 0, ts := 0 }, { code := 5, ts := 0 }],
                               bytes := 64 }] })],
    seqs := [(0, { ending := some .stop, heads := [{ head [17 * 2 ^ 56] with key := 3 }], first := 3 })] }
def s3 : State :=
  { objs := [(K.runState 0, 1), (K.runArmBusy 0, 1), (K.runStartSrc 0, 34), (K.dramMappedBytes, 2 ^ 37),
             (K.tmrMode 2, 2), (K.tmrState 2, 1), (K.clkStatus, 31)],
    grps := [(0, { grans := [{ page := 3, n := 0,
                               units := [{ code := 4369, ts := 0 }, { code := 8738, ts := 1 },
                                         { code := 0, ts := 0 }, { code := 5, ts := 0 }],
                               bytes := 64 }] })],
    seqs := [(0, { ending := some .stop, heads := [{ head [17 * 2 ^ 56] with key := 3 }], first := 3,
                   fires := [(2, 7000)] })] }
def s4 : State :=
  { objs := [(K.runState 0, 1), (K.runArmBusy 0, 1), (K.runStartSrc 0, 19), (K.trigType 3, 1),
             (K.dramMappedBytes, 2 ^ 37), (K.clkStatus, 31)],
    grps := [(0, { grans := [{ page := 3, n := 0,
                               units := [{ code := 4369, ts := 0 }, { code := 8738, ts := 1 },
                                         { code := 0, ts := 0 }, { code := 5, ts := 0 }],
                               bytes := 64 }] })],
    seqs := [(0, { ending := some .stop, heads := [{ head [17 * 2 ^ 56] with key := 3 }], first := 3 })],
    trigs := [(3, { active := true })] }
def s5 : State :=
  { objs := [(K.runArmBusy 0, 1)] }
def s6 : State :=
  { objs := [(K.runState 0, 1), (K.runArmBusy 0, 1), (K.dramMappedBytes, 2 ^ 37), (K.clkStatus, 31)],
    seqs := [(0, { heads := [{ head [17 * 2 ^ 56] with key := 3 }], first := 3 })] }
def s7 : State :=
  { objs := [(K.runState 0, 3), (K.clkStatus, 31)], seqs := [(0, { startAt := some 8192 })] }
def s8 : State :=
  { objs := [(K.runState 0, 3)],
    grps := [(0, { grans := [{ page := 3, n := 1,
                               units := [{ code := 4369, ts := 0 }, { code := 8738, ts := 1 },
                                         { code := 0, ts := 0 }, { code := 5, ts := 0 }],
                               bytes := 64 }] })],
    seqs := [(0, { live := true, nextAt := 40960, pauseAt := some 40000 })] }
def s9 : State :=
  { objs := [(K.runState 0, 3)],
    seqs := [(0, { live := true, cur := some { page := 9, first := 64, count := 100 }, nextAt := 40960,
                   pauseAt := some 40000 })] }
def s10 : State :=
  { objs := [(K.runState 0, 2), (K.clkStatus, 31)], seqs := [(0, { haltAt := some 900 })] }
def s11 : State :=
  { objs := [(K.runState 0, 3), (K.clkStatus, 31)], seqs := [(0, { haltAt := some 8192, startAt := some 8192 })] }
def s12 : State :=
  { objs := [(K.cgService 0, 0), (K.runState 0, 3), (K.clkStatus, 31)],
    seqs := [(0, { live := true, played := 9, nextAt := 40960, haltAt := some 40960 })] }
def s13 : State :=
  { objs := [(K.runState 0, 4)],
    grps := [(0, { grans := [{ page := 3, n := 1,
                               units := [{ code := 4369, ts := 0 }, { code := 8738, ts := 1 },
                                         { code := 0, ts := 0 }, { code := 5, ts := 0 }],
                               bytes := 64 }] })],
    seqs := [(0, { queue := [{ page := 3, first := 64, count := 32 }], pauseWhy := 2 })] }
def s14 : State :=
  { seqs := [(0, { verdictAt := some 700, stopped := some .stop })] }
theorem witness_RunEvents :
    (∃ (g : Fin 16) (s : State), rd (K.runArmBusy ↑g) s = 1 ∧ fenced (↑g) s = false ∧ armVerdict (↑g) s = some 0 ∧ (∀
      (i : Nat), i < 8 → rd (K.trigType i) s = 0 ∨ (trig i s).active = false) ∧ rd (K.runStartSrc ↑g) s = 0) ∧
    (∃ (g : Fin 16) (s : State), rd (K.runArmBusy ↑g) s = 1 ∧ fenced (↑g) s = false ∧ armVerdict (↑g) s = some 0 ∧ (∀
      (i : Nat), i < 8 → rd (K.trigType i) s = 0 ∨ (trig i s).active = false) ∧ ∃ (k : Nat), k < 16 ∧ rd (K.runStartSrc
      ↑g) s = 32 + k ∧ ∀ (e : Nat), e ∈ List.map (fun (x : Nat × Nat) => x.snd) (List.filter (fun (f : Nat × Nat) =>
      f.fst == k) (seq (↑g) s).fires) → e < s.now) ∧
    (∃ (g : Fin 16) (s : State), rd (K.runArmBusy ↑g) s = 1 ∧ fenced (↑g) s = false ∧ armVerdict (↑g) s = some 0 ∧ (∀
      (i : Nat), i < 8 → rd (K.trigType i) s = 0 ∨ (trig i s).active = false) ∧ ∃ (k : Nat), k < 16 ∧ rd (K.runStartSrc
      ↑g) s = 32 + k ∧ ∃ (e : Nat), e ∈ List.map (fun (x : Nat × Nat) => x.snd) (List.filter (fun (f : Nat × Nat) =>
      f.fst == k) (seq (↑g) s).fires) ∧ s.now ≤ e ∧ ∀ (x : Nat), x ∈ List.map (fun (x : Nat × Nat) => x.snd)
      (List.filter (fun (f : Nat × Nat) => f.fst == k) (seq (↑g) s).fires) → s.now ≤ x → e ≤ x) :=
  ⟨⟨0, ⟨s1, (by decide +kernel)⟩⟩,
   ⟨0, ⟨s2, (by decide +kernel)⟩⟩,
   ⟨0, ⟨s3, (by decide +kernel)⟩⟩⟩
theorem witness_RunEvents2 :
    (∃ (g : Fin 16) (s : State), rd (K.runArmBusy ↑g) s = 1 ∧ fenced (↑g) s = false ∧ ∃ (i : Nat), i < 8 ∧ armVerdict
      (↑g) s = some 0 ∧ rd (K.runStartSrc ↑g) s = 16 + i ∧ rd (K.trigType i) s = 1 ∧ (trig i s).active = true ∧ ¬↑g ∈
      (trig i s).firedBy ∧ rd (K.jtEnable ↑g) s = 0) ∧
    (∃ (g : Fin 16) (s : State), rd (K.runArmBusy ↑g) s = 1 ∧ fenced (↑g) s = false ∧ ∃ (c : Nat), armVerdict (↑g) s =
      some c ∧ 1 ≤ c ∧ runState (↑g) s ≤ 1 ∧ NoRequest (↑g) s) ∧
    (∃ (g : Fin 16) (s : State), rd (K.runArmBusy ↑g) s = 1 ∧ fenced (↑g) s = false ∧ armVerdict (↑g) s = none) :=
  ⟨⟨0, ⟨s4, (by decide +kernel)⟩⟩,
   ⟨0, ⟨s5, (by delta NoRequest; decide +kernel)⟩⟩,
   ⟨0, ⟨s6, (by decide +kernel)⟩⟩⟩
theorem witness_RunEvents3 :
    (∃ (g : Fin 16) (s : State), leader (↑g) s = ↑g ∧ ∃ (at_ : Nat), (seq (↑g) s).startAt = some at_ ∧ runState (↑g) s
      = 3 ∧ tclkLocked s = true ∧ ∀ (h : Nat), (seq (↑g) s).haltAt = some h → at_ < h) ∧
    (∃ (g : Fin 16) (s : State), leader (↑g) s = ↑g ∧ (seq (↑g) s).live = true ∧ pauseDue (↑g) s = true ∧ haltDue (seq
      (↑g) s) = false ∧ runsShort (↑g) s = false) ∧
    (∃ (g : Fin 16) (s : State), leader (↑g) s = ↑g ∧ (seq (↑g) s).live = true ∧ pauseDue (↑g) s = true ∧ haltDue (seq
      (↑g) s) = false ∧ runsShort (↑g) s = true) :=
  ⟨⟨0, ⟨s7, ⟨(by decide +kernel), _, rfl, (by decide +kernel), (by decide +kernel), (fun _ h => nomatch h)⟩⟩⟩,
   ⟨0, ⟨s8, (by decide +kernel)⟩⟩,
   ⟨0, ⟨s9, (by decide +kernel)⟩⟩⟩
theorem witness_RunEvents4 :
    (∃ (g : Fin 16) (s : State), leader (↑g) s = ↑g ∧ ∃ (a : Nat), (seq (↑g) s).haltAt = some a ∧ tclkLocked s = true ∧
      NoRequest (↑g) s ∧ SourceIdle (↑g) s ∧ runState (↑g) s = 2) ∧
    (∃ (g : Fin 16) (s : State), leader (↑g) s = ↑g ∧ ∃ (a : Nat), (seq (↑g) s).haltAt = some a ∧ tclkLocked s = true ∧
      NoRequest (↑g) s ∧ SourceIdle (↑g) s ∧ ∃ (at_ : Nat), runState (↑g) s = 3 ∧ (seq (↑g) s).live = false ∧ (seq (↑g)
      s).startAt = some at_ ∧ a ≤ at_) ∧
    (∃ (g : Fin 16) (s : State), leader (↑g) s = ↑g ∧ ∃ (a : Nat), (seq (↑g) s).haltAt = some a ∧ tclkLocked s = true ∧
      (runState (↑g) s = 3 ∨ runState (↑g) s = 4) ∧ (seq (↑g) s).live = true ∧ a ≤ (seq (↑g) s).nextAt ∧ (seq (↑g)
      s).dead = none ∧ (seq (↑g) s).stopped = none ∧ 0 < (seq (↑g) s).played ∧ (seq (↑g) s).queue = [] ∧ (seq (↑g)
      s).marks = [] ∧ (seq (↑g) s).load = none ∧ (seq (↑g) s).gap = none ∧ (seq (↑g) s).heads = [] ∧ rd (K.cgService ↑g)
      s = 0 ∧ (∀ (m : Nat), m < 16 → (grp m s).judges = []) ∧ ∀ (n : Nat), n < 256 → (chan n s).sched = [] ∧ (chan n
      s).win = [] ∧ (chan n s).tdcH = [] ∧ (chan n s).tdcL = []) :=
  ⟨⟨0, ⟨s10, (by delta NoRequest SourceIdle; decide +kernel)⟩⟩,
   ⟨0, ⟨s11, ⟨(by decide +kernel), ⟨8192, ⟨(by decide +kernel), ⟨(by decide +kernel),
     ⟨(by delta NoRequest; decide +kernel), ⟨(by delta SourceIdle; decide +kernel), ⟨8192, (by decide +kernel)⟩⟩⟩⟩⟩⟩⟩⟩⟩,
   ⟨0, ⟨s12, (by decide +kernel)⟩⟩⟩
theorem witness_RunEvents5 :
    (∃ (g : Fin 16) (s : State), leader (↑g) s = ↑g ∧ runState (↑g) s = 4 ∧ (seq (↑g) s).pauseWhy = 2 ∧ (seq (↑g)
      s).resumeAt = none ∧ (seq (↑g) s).stopped = none ∧ runsShort (↑g) s = false ∧ ((seq (↑g) s).cur ≠ none ∨ (seq (↑g)
      s).queue ≠ [] ∨ (seq (↑g) s).ending ≠ none) ∧ leadReached (↑g) (rd (K.rfLeadResumeNs ↑g) s) s = true) ∧
    (∃ (g : Fin 16) (s : State), leader (↑g) s = ↑g ∧ ∃ (k : EndKind) (v : Nat), (seq (↑g) s).stopped = some k ∧ (seq
      (↑g) s).verdictAt = some v ∧ (seq (↑g) s).dead = none ∧ (seq (↑g) s).load = none ∧ (seq (↑g) s).blks = [] ∧
      NoRequest (↑g) s ∧ SourceIdle (↑g) s ∧ rd (K.runArmBusy ↑g) s = 0 ∧ ∀ (m : Nat), m ∈ members (↑g) s → (grp m
      s).judges = [] ∧ (grp m s).fifo = [] ∧ rd (K.capFill m) s = 0) :=
  ⟨⟨0, ⟨s13, (by decide +kernel)⟩⟩,
   ⟨0, ⟨s14, ⟨(by decide +kernel), ⟨.stop, ⟨700, (by delta NoRequest SourceIdle; decide +kernel)⟩⟩⟩⟩⟩⟩
end Witness.RunEvents

namespace Witness.Triggers
def s1 : State :=
  { trigs := [(2, { active := true })] }
def s2 : State :=
  { }
def s3 : State :=
  { objs := [(K.runState 0, 2), (K.runStartSrc 0, 18), (K.clkStatus, 15)] }
def s4 : State :=
  { objs := [(K.runState 0, 3), (K.jtEnable 0, 1)], blobs := [(2121746, [255, 255, 3, 5, 255, 255, 255, 255])] }
def s5 : State :=
  { seqs := [(0, { blks := [{ id := 1, isMatch := false, source := 2 }] })] }
def s6 : State :=
  { trigs := [(2, { ended := some 3000 })] }
def s7 : State :=
  { objs := [(K.trigStuckUs 2, 1)], trigs := [(2, { active := true })] }
def s8 : State :=
  { objs := [(K.ethLink 0, 1), (K.toutSrc 2, 3), (K.startStep, 8)], sessions := [sess 1] }
def s9 : State :=
  { objs := [(K.ethLink 0, 1), (K.startStep, 8)], sessions := [sess 1] }
def s10 : State :=
  { touts := [(2, { pulses := [(2000, 5000), (6000, 7000)] })] }
def s11 : State :=
  { objs := [(K.ethLink 0, 1), (K.runState 0, 3), (K.jtEntry 0 3, 8), (K.jtEnable 0, 1), (K.startStep, 8)],
    sessions := [sess 1] }
def s12 : State :=
  { objs := [(K.ethLink 0, 1), (K.cgGang 1, 0), (K.startStep, 8)], sessions := [sess 1] }
def s13 : State :=
  { objs := [(K.runState 0, 4), (K.jtEntry 0 3, 8), (K.jtEnable 0, 1), (K.clkStatus, 15)],
    seqs := [(0, { live := true, nextAt := 40960, jumps := [{ due := 30000, entry := 3, src := .trigger 2 }] })] }
def s14 : State :=
  { objs := [(K.runState 0, 4), (K.clkStatus, 15)],
    seqs := [(0, { live := true, nextAt := 40960, jumps := [{ due := 30000, entry := 9, src := .trigger 2 }] })] }
theorem witness_Triggers :
    (∃ (i : Fin 8) (s : State), (trig (↑i) s).active = true) ∧
    (∃ (i : Fin 8) (edge : Nat) (s : State), (trig (↑i) s).active = false ∧ (∀ (e : Nat), (trig (↑i) s).ended = some e
      → e + 13108 ≤ max (edge * 1024) (nextTref s.now)) ∧ (∀ (l : Nat), l < 16 → (seq l s).jumps = []) ∧ (∀ (l : Nat), l
      < 16 → waitArmed l (↑i) s = false) ∧ (∀ (l : Nat), l < 16 → trigMap l (↑i) s = 255) ∧ ∀ (l : Nat), l < 16 →
      ¬(runState l s = 2 ∧ rd (K.runStartSrc l) s = 16 + ↑i)) ∧
    (∃ (i : Fin 8) (edge : Nat) (s : State), (trig (↑i) s).active = false ∧ (∀ (e : Nat), (trig (↑i) s).ended = some e
      → e + 13108 ≤ max (edge * 1024) (nextTref s.now)) ∧ (∀ (l : Nat), l < 16 → (seq l s).jumps = []) ∧ ∃ (g : Fin 16),
      members (↑g) s = [↑g] ∧ leader (↑g) s = ↑g ∧ (runState (↑g) s = 2 ∧ rd (K.runStartSrc ↑g) s = 16 + ↑i) ∧
      tclkLocked s = true ∧ (∀ (l : Nat), l < 16 → waitArmed l (↑i) s = false) ∧ (∀ (l : Nat), l < 16 → trigMap l (↑i) s
      = 255) ∧ (∀ (h : Nat), (seq (↑g) s).haltAt = some h → max (edge * 1024) (nextTref s.now) < h) ∧ ∀ (l : Nat), l <
      16 → l ≠ ↑g → ¬(runState l s = 2 ∧ rd (K.runStartSrc l) s = 16 + ↑i)) ∧
    (∃ (i : Fin 8) (edge : Nat) (s : State), (trig (↑i) s).active = false ∧ (∀ (e : Nat), (trig (↑i) s).ended = some e
      → e + 13108 ≤ max (edge * 1024) (nextTref s.now)) ∧ (∀ (l : Nat), l < 16 → (seq l s).jumps = []) ∧ ∃ (g : Fin 16),
      leader (↑g) s = ↑g ∧ mapArmed (↑g) (↑i) s = true ∧ (∀ (l : Nat), l < 16 → waitArmed l (↑i) s = false) ∧ (∀ (l :
      Nat), l < 16 → ¬(runState l s = 2 ∧ rd (K.runStartSrc l) s = 16 + ↑i)) ∧ ∀ (l : Nat), l < 16 → l ≠ ↑g → trigMap l
      (↑i) s = 255) ∧
    (∃ (i : Fin 8) (edge : Nat) (s : State), (trig (↑i) s).active = false ∧ (∀ (e : Nat), (trig (↑i) s).ended = some e
      → e + 13108 ≤ max (edge * 1024) (nextTref s.now)) ∧ (∀ (l : Nat), l < 16 → (seq l s).jumps = []) ∧ ∃ (g : Fin 16)
      (b : Block), leader (↑g) s = ↑g ∧ (seq (↑g) s).blks = [b] ∧ waitArmed (↑g) (↑i) s = true ∧ (∀ (l : Nat), l < 16 →
      trigMap l (↑i) s = 255) ∧ (∀ (l : Nat), l < 16 → ¬(runState l s = 2 ∧ rd (K.runStartSrc l) s = 16 + ↑i)) ∧ ∀ (l :
      Nat), l < 16 → l ≠ ↑g → waitArmed l (↑i) s = false) ∧
    (∃ (i : Fin 8) (edge : Nat) (s : State) (e : Nat), (trig (↑i) s).active = false ∧ (trig (↑i) s).ended = some e ∧
      max (edge * 1024) (nextTref s.now) < e + 13108) ∧
    (∃ (i : Fin 8) (edge : Nat) (s : State), (trig (↑i) s).active = true ∧ (trig (↑i) s).stuck = false ∧ 0 < rd
      (K.trigStuckUs ↑i) s ∧ (trig (↑i) s).since + rd (K.trigStuckUs ↑i) s * 1600 * 1024 < max (edge * 1024) s.now) ∧
    (∃ (i : Fin 8) (edge : Nat) (s : State), (trig (↑i) s).active = true ∧ (trig (↑i) s).stuck = false ∧ 0 < rd
      (K.trigStuckUs ↑i) s ∧ max (edge * 1024) s.now ≤ (trig (↑i) s).since + rd (K.trigStuckUs ↑i) s * 1600 * 1024) ∧
    (∃ (j : Fin 8) (v : Byte), HostMeets opWrite (K.toutPulse ↑j) [v] 0 false fun _ s => v = 1 ∧ rd (K.toutSrc ↑j) s =
      3 ∧ fatal s = false ∧ (tout (↑j) s).pulses = []) ∧
    (∃ (j : Fin 8) (v : Byte), HostMeets opWrite (K.toutPulse ↑j) [v] 0 false fun _ s => BitVec.toNat v ≤ 1 ∧ (v = 0 ∨
      rd (K.toutSrc ↑j) s ≠ 3)) ∧
    (∃ (j : Fin 8) (b : Nat) (e : Nat) (rest : List (Nat × Nat)) (s : State), (tout (↑j) s).pulses = (b, e) :: rest) ∧
    (∃ (k : Fin 16) (v : Byte), HostMeets opWrite (K.jtReq ↑k) [v] 0 false fun _ s => BitVec.toNat v < 16 ∧ (leader
      (↑k) s = ↑k ∧ rd (K.jtEnable ↑k) s = 1 ∧ busyState (runState (↑k) s) = true) ∧ rd (K.jtEntry (↑k) (BitVec.toNat
      v)) s ≠ 4294967295) ∧
    (∃ (k : Fin 16) (v : Byte), HostMeets opWrite (K.jtReq ↑k) [v] 0 false fun _ _ => 16 ≤ BitVec.toNat v) ∧
    (∃ (k : Fin 16) (v : Byte), HostMeets opWrite (K.jtReq ↑k) [v] 0 false fun _ s => BitVec.toNat v < 16 ∧ leader (↑k)
      s = ↑k ∧ (rd (K.jtEnable ↑k) s ≠ 1 ∨ busyState (runState (↑k) s) = false)) ∧
    (∃ (k : Fin 16) (v : Byte), HostMeets opWrite (K.jtReq ↑k) [v] 0 false fun _ s => BitVec.toNat v < 16 ∧ (leader
      (↑k) s ≠ ↑k ∨ (leader (↑k) s = ↑k ∧ rd (K.jtEnable ↑k) s = 1 ∧ busyState (runState (↑k) s) = true) ∧ rd (K.jtEntry
      (↑k) (BitVec.toNat v)) s = 4294967295)) ∧
    (∃ (k : Fin 16) (r : JumpReq) (s : State), cycleDue (↑k) s = true ∧ runState (↑k) s = 4 ∧ (seq (↑k) s).resumeAt =
      none ∧ (seq (↑k) s).jumps = [r] ∧ r.due ≤ (seq (↑k) s).nextAt ∧ (∀ (i : Nat), i < 8 → trigMap (↑k) i s = 255) ∧
      jumpAccepted (↑k) r.entry s = true) ∧
    (∃ (k : Fin 16) (r : JumpReq) (s : State), cycleDue (↑k) s = true ∧ runState (↑k) s = 4 ∧ (seq (↑k) s).resumeAt =
      none ∧ (seq (↑k) s).jumps = [r] ∧ r.due ≤ (seq (↑k) s).nextAt ∧ (∀ (i : Nat), i < 8 → trigMap (↑k) i s = 255) ∧
      jumpAccepted (↑k) r.entry s = false) :=
  ⟨⟨2, ⟨s1, (by decide +kernel)⟩⟩,
   ⟨0, ⟨0, ⟨s2, (by decide +kernel)⟩⟩⟩,
   ⟨2, ⟨0, ⟨s3, (by decide +kernel)⟩⟩⟩,
   ⟨2, ⟨0, ⟨s4, (by decide +kernel)⟩⟩⟩,
   ⟨2, ⟨0, ⟨s5, ⟨(by decide +kernel), ⟨(by decide +kernel), ⟨(by decide +kernel), ⟨0,
     ⟨{ id := 1, isMatch := false, source := 2 }, (by decide +kernel)⟩⟩⟩⟩⟩⟩⟩⟩,
   ⟨2, ⟨0, ⟨s6, ⟨3000, (by decide +kernel)⟩⟩⟩⟩,
   ⟨2, ⟨9000, ⟨s7, (by decide +kernel)⟩⟩⟩,
   ⟨2, ⟨0, ⟨s1, (by decide +kernel)⟩⟩⟩,
   ⟨2, ⟨1, (hostMeets s8 (by decide +kernel) (by decide +kernel))⟩⟩,
   ⟨0, ⟨0, (hostMeets s9 (by decide +kernel) (by decide +kernel))⟩⟩,
   ⟨2, ⟨2000, ⟨5000, ⟨[(6000, 7000)], ⟨s10, (by decide +kernel)⟩⟩⟩⟩⟩,
   ⟨0, ⟨3, (hostMeets s11 (by decide +kernel) (by decide +kernel))⟩⟩,
   ⟨0, ⟨16, (hostMeets s9 (by decide +kernel) (by decide +kernel))⟩⟩,
   ⟨0, ⟨0, (hostMeets s9 (by decide +kernel) (by decide +kernel))⟩⟩,
   ⟨1, ⟨0, (hostMeets s12 (by decide +kernel) (by decide +kernel))⟩⟩,
   ⟨0, ⟨{ due := 30000, entry := 3, src := .trigger 2 }, ⟨s13, (by decide +kernel)⟩⟩⟩,
   ⟨0, ⟨{ due := 30000, entry := 9, src := .trigger 2 }, ⟨s14, (by decide +kernel)⟩⟩⟩⟩
end Witness.Triggers

namespace Witness.PatchProcedure
def s1 : State :=
  { objs := [(K.ethLink 0, 1), (K.startStep, 8)], sessions := [{ sess 2 with expert := true }] }
def s2 : State :=
  { objs := [(K.ethLink 0, 1), (K.mcPatchStatus, 2), (K.startStep, 8)], sessions := [{ sess 2 with expert := true }] }
def s3 : State :=
  { objs := [(K.ethLink 0, 1), (K.mcPatchStatus, 1), (K.startStep, 8)], sessions := [{ sess 2 with expert := true }] }
def s4 : State :=
  { objs := [(K.ethLink 0, 1), (K.mcPatchStatus, 3), (K.startStep, 8)], sessions := [{ sess 2 with expert := true }] }
def s5 : State :=
  { objs := [(K.ethLink 0, 1), (K.mcPatchStatus, 4), (K.startStep, 8)], sessions := [{ sess 2 with expert := true }] }
def s6 : State :=
  { objs := [(K.mcPatchStatus, 2)] }
def s7 : State :=
  { objs := [(K.mcPatchStatus, 2)],
    patch := { stage := [80, 77, 84, 75, 1, 7, 1, 2, 4, 0, 0, 0, 1, 0, 0, 0, 16, 0, 0, 0, 57, 9, 95, 155, 0,
                         0, 0, 0, 0, 0, 0, 0, 0, 0, 0, 0, 0, 0, 0, 0, 0, 0, 0, 0, 0, 0, 0, 0, 0, 0, 0, 0, 0,
                         0, 0, 0, 0, 0, 0, 0, 0, 0, 0, 0, 1, 0, 1, 0, 2, 0, 0, 0, 5, 6, 0, 0, 0, 0, 0, 0, 0,
                         0, 0, 0, 0, 0, 0, 0, 0, 0, 0, 0, 0, 0, 0, 0, 0, 0, 0, 0, 0, 0, 0, 0, 0, 0, 0, 0, 0,
                         0, 0, 0, 0, 0, 0, 0, 0, 0, 0, 0, 0, 0, 0, 0, 0, 0, 0, 0, 0, 0, 0, 0, 0, 0, 0, 0, 0,
                         0, 0, 0, 0, 0, 0, 0, 0, 0, 0, 0, 0, 0, 0, 0, 0, 0, 0, 0, 0, 0, 0, 0, 0, 0, 0, 0, 0,
                         0, 0, 0, 0, 0, 0, 0, 0, 0, 0, 0] } }
def s8 : State :=
  { objs := [(K.mcPatchStatus, 2)],
    patch := { stage := [80, 77, 84, 75, 1, 0, 1, 3, 4, 0, 0, 0, 1, 0, 0, 0, 16, 0, 0, 0, 57, 9, 95, 155, 0,
                         0, 0, 0, 0, 0, 0, 0, 0, 0, 0, 0, 0, 0, 0, 0, 0, 0, 0, 0, 0, 0, 0, 0, 0, 0, 0, 0, 0,
                         0, 0, 0, 0, 0, 0, 0, 0, 0, 0, 0, 1, 0, 1, 0, 2, 0, 0, 0, 5, 6, 0, 0, 0, 0, 0, 0, 0,
                         0, 0, 0, 0, 0, 0, 0, 0, 0, 0, 0, 0, 0, 0, 0, 0, 0, 0, 0, 0, 0, 0, 0, 0, 0, 0, 0, 0,
                         0, 0, 0, 0, 0, 0, 0, 0, 0, 0, 0, 0, 0, 0, 0, 0, 0, 0, 0, 0, 0, 0, 0, 0, 0, 0, 0, 0,
                         0, 0, 0, 0, 0, 0, 0, 0, 0, 0, 0, 0, 0, 0, 0, 0, 0, 0, 0, 0, 0, 0, 0, 0, 0, 0, 0, 0,
                         0, 0, 0, 0, 0, 0, 0, 0, 0, 0, 0] } }
def s9 : State :=
  { objs := [(K.mcodeVersion, 16909057), (K.mcPatchStatus, 2), (K.mcMinLevel, 5)],
    patch := { stage := [80, 77, 84, 75, 1, 0, 1, 2, 4, 0, 0, 0, 1, 0, 0, 0, 16, 0, 0, 0, 57, 9, 95, 155, 0,
                         0, 0, 0, 0, 0, 0, 0, 0, 0, 0, 0, 0, 0, 0, 0, 0, 0, 0, 0, 0, 0, 0, 0, 0, 0, 0, 0, 0,
                         0, 0, 0, 0, 0, 0, 0, 0, 0, 0, 0, 1, 0, 1, 0, 2, 0, 0, 0, 5, 6, 0, 0, 0, 0, 0, 0, 0,
                         0, 0, 0, 0, 0, 0, 0, 0, 0, 0, 0, 0, 0, 0, 0, 0, 0, 0, 0, 0, 0, 0, 0, 0, 0, 0, 0, 0,
                         0, 0, 0, 0, 0, 0, 0, 0, 0, 0, 0, 0, 0, 0, 0, 0, 0, 0, 0, 0, 0, 0, 0, 0, 0, 0, 0, 0,
                         0, 0, 0, 0, 0, 0, 0, 0, 0, 0, 0, 0, 0, 0, 0, 0, 0, 0, 0, 0, 0, 0, 0, 0, 0, 0, 0, 0,
                         0, 0, 0, 0, 0, 0, 0, 0, 0, 0, 0] } }
def s10 : State :=
  { objs := [(K.mcodeVersion, 16909057), (K.mcPatchStatus, 2)],
    patch := { stage := [80, 77, 84, 75, 1, 0, 1, 2, 4, 0, 0, 0, 1, 0, 0, 0, 16, 0, 0, 0, 58, 9, 95, 155, 0,
                         0, 0, 0, 0, 0, 0, 0, 0, 0, 0, 0, 0, 0, 0, 0, 0, 0, 0, 0, 0, 0, 0, 0, 0, 0, 0, 0, 0,
                         0, 0, 0, 0, 0, 0, 0, 0, 0, 0, 0, 1, 0, 1, 0, 2, 0, 0, 0, 5, 6, 0, 0, 0, 0, 0, 0, 0,
                         0, 0, 0, 0, 0, 0, 0, 0, 0, 0, 0, 0, 0, 0, 0, 0, 0, 0, 0, 0, 0, 0, 0, 0, 0, 0, 0, 0,
                         0, 0, 0, 0, 0, 0, 0, 0, 0, 0, 0, 0, 0, 0, 0, 0, 0, 0, 0, 0, 0, 0, 0, 0, 0, 0, 0, 0,
                         0, 0, 0, 0, 0, 0, 0, 0, 0, 0, 0, 0, 0, 0, 0, 0, 0, 0, 0, 0, 0, 0, 0, 0, 0, 0, 0, 0,
                         0, 0, 0, 0, 0, 0, 0, 0, 0, 0, 0] } }
def s11 : State :=
  { objs := [(K.mcodeVersion, 16909057), (K.mcPatchStatus, 2)],
    patch := { stage := [80, 77, 84, 75, 1, 0, 1, 2, 4, 0, 0, 0, 1, 0, 0, 0, 16, 0, 0, 0, 57, 9, 95, 155, 0,
                         0, 0, 0, 0, 0, 0, 0, 0, 0, 0, 0, 0, 0, 0, 0, 0, 0, 0, 0, 0, 0, 0, 0, 0, 0, 0, 0, 0,
                         0, 0, 0, 0, 0, 0, 0, 0, 0, 0, 0, 1, 0, 1, 0, 2, 0, 0, 0, 5, 6, 0, 0, 0, 0, 0, 0, 0,
                         0, 0, 0, 0, 0, 0, 0, 0, 0, 0, 0, 0, 0, 0, 0, 0, 0, 0, 0, 0, 0, 0, 0, 0, 0, 0, 0, 0,
                         0, 0, 0, 0, 0, 0, 0, 0, 0, 0, 0, 0, 0, 0, 0, 0, 0, 0, 0, 0, 0, 0, 0, 0, 0, 0, 0, 0,
                         0, 0, 0, 0, 0, 0, 0, 0, 0, 0, 0, 0, 0, 0, 0, 0, 0, 0, 0, 0, 0, 0, 0, 0, 0, 0, 0, 0,
                         0, 0, 0, 0, 0, 0, 0, 0, 0, 0, 0] } }
def s12 : State :=
  { objs := [(K.mcPatchStatus, 4)] }
def s13 : State :=
  {}
theorem witness_PatchProcedure :
    (∃ (p : Bytes), 1 ≤ List.length p ∧ List.length p ≤ 131072 ∧ HostMeets opWrite K.mcPatchStage p 2 true fun _ s =>
      rd K.mcPatchStatus s ≠ 2 ∧ rd K.mcPatchStatus s ≠ 4) ∧
    (∃ (p : Bytes), 1 ≤ List.length p ∧ List.length p ≤ 131072 ∧ HostMeets opWrite K.mcPatchStage p 2 true fun _ s =>
      rd K.mcPatchStatus s = 2 ∨ rd K.mcPatchStatus s = 4) ∧
    (HostMeets opWrite K.mcPatchCmd [1] 2 true fun _ s => rd K.mcPatchStatus s = 1 ∨ rd K.mcPatchStatus s = 3 ∨ 16 ≤ rd
      K.mcPatchStatus s) ∧
    (HostMeets opWrite K.mcPatchCmd [1] 2 true fun _ s => rd K.mcPatchStatus s = 0 ∨ rd K.mcPatchStatus s = 2 ∨ rd
      K.mcPatchStatus s = 4 ∨ rd K.mcPatchStatus s = 5) ∧
    (HostMeets opWrite K.mcPatchCmd [2] 2 true fun _ s => rd K.mcPatchStatus s = 3 ∧ ∀ (g : Nat), g < 16 → busyState
      (runState g s) = false ∧ rd (K.runArmBusy g) s = 0) ∧
    (HostMeets opWrite K.mcPatchCmd [2] 2 true fun _ s => rd K.mcPatchStatus s ≠ 3 ∨ ∃ (g : Nat), g < 16 ∧ (busyState
      (runState g s) = true ∨ rd (K.runArmBusy g) s ≠ 0)) ∧
    (HostMeets opWrite K.mcPatchCmd [3] 2 true fun _ s => rd K.mcPatchStatus s ≠ 4 ∧ rd K.mcPatchStatus s ≠ 5) ∧
    (HostMeets opWrite K.mcPatchCmd [3] 2 true fun _ s => rd K.mcPatchStatus s = 4 ∨ rd K.mcPatchStatus s = 5) ∧
    (∃ (s : State), rd K.mcPatchStatus s = 2 ∧ patchFormat s.patch.stage = false) ∧
    (∃ (s : State), rd K.mcPatchStatus s = 2 ∧ patchFormat s.patch.stage = true ∧ leAt 5 1 s.patch.stage ≠
      s.otp.stepping) ∧
    (∃ (s : State), rd K.mcPatchStatus s = 2 ∧ patchFormat s.patch.stage = true ∧ leAt 5 1 s.patch.stage =
      s.otp.stepping ∧ ¬(leAt 6 1 s.patch.stage = rd K.mcodeVersion s / 2 ^ 24 % 256 ∧ leAt 7 1 s.patch.stage = rd
      K.mcodeVersion s / 2 ^ 16 % 256)) ∧
    (∃ (s : State), rd K.mcPatchStatus s = 2 ∧ patchFormat s.patch.stage = true ∧ leAt 5 1 s.patch.stage =
      s.otp.stepping ∧ (leAt 6 1 s.patch.stage = rd K.mcodeVersion s / 2 ^ 24 % 256 ∧ leAt 7 1 s.patch.stage = rd
      K.mcodeVersion s / 2 ^ 16 % 256) ∧ (leAt 8 1 s.patch.stage ≤ rd K.mcodeVersion s / 256 % 256 ∨ leAt 8 1
      s.patch.stage < rd K.mcMinLevel s)) ∧
    (∃ (s : State), rd K.mcPatchStatus s = 2 ∧ patchFormat s.patch.stage = true ∧ leAt 5 1 s.patch.stage =
      s.otp.stepping ∧ (leAt 6 1 s.patch.stage = rd K.mcodeVersion s / 2 ^ 24 % 256 ∧ leAt 7 1 s.patch.stage = rd
      K.mcodeVersion s / 2 ^ 16 % 256) ∧ ¬(leAt 8 1 s.patch.stage ≤ rd K.mcodeVersion s / 256 % 256 ∨ leAt 8 1
      s.patch.stage < rd K.mcMinLevel s) ∧ leAt 20 4 s.patch.stage ≠ crc32c (slice 64 (leAt 16 4 s.patch.stage)
      s.patch.stage)) ∧
    (∃ (s : State), rd K.mcPatchStatus s = 2 ∧ patchFormat s.patch.stage = true ∧ leAt 5 1 s.patch.stage =
      s.otp.stepping ∧ (leAt 6 1 s.patch.stage = rd K.mcodeVersion s / 2 ^ 24 % 256 ∧ leAt 7 1 s.patch.stage = rd
      K.mcodeVersion s / 2 ^ 16 % 256) ∧ ¬(leAt 8 1 s.patch.stage ≤ rd K.mcodeVersion s / 256 % 256 ∨ leAt 8 1
      s.patch.stage < rd K.mcMinLevel s) ∧ leAt 20 4 s.patch.stage = crc32c (slice 64 (leAt 16 4 s.patch.stage)
      s.patch.stage)) ∧
    (∃ (l : List (Nat × Bytes)) (s : State), rd K.mcPatchStatus s = 4 ∧ patchRecords (leAt 12 4 s.patch.stage) (slice
      64 (leAt 16 4 s.patch.stage) s.patch.stage) = some l) ∧
    (∃ (s : State), rd K.mcPatchStatus s ≠ 2) ∧
    (∃ (s : State), rd K.mcPatchStatus s ≠ 4) :=
  ⟨⟨[1], ⟨(by decide +kernel), ⟨(by decide +kernel), (hostMeets s1 (by decide +kernel) (by decide +kernel))⟩⟩⟩,
   ⟨[1], ⟨(by decide +kernel), ⟨(by decide +kernel), (hostMeets s2 (by decide +kernel) (by decide +kernel))⟩⟩⟩,
   hostMeets s3 (by decide +kernel) (by decide +kernel),
   hostMeets s1 (by decide +kernel) (by decide +kernel),
   hostMeets s4 (by decide +kernel) (by decide +kernel),
   hostMeets s1 (by decide +kernel) (by decide +kernel),
   hostMeets s1 (by decide +kernel) (by decide +kernel),
   hostMeets s5 (by decide +kernel) (by decide +kernel),
   ⟨s6, (by decide +kernel)⟩,
   ⟨s7, (by decide +kernel)⟩,
   ⟨s8, (by decide +kernel)⟩,
   ⟨s9, (by decide +kernel)⟩,
   ⟨s10, (by decide +kernel)⟩,
   ⟨s11, (by decide +kernel)⟩,
   ⟨[], ⟨s12, (by decide +kernel)⟩⟩,
   ⟨s13, (by decide +kernel)⟩,
   ⟨s13, (by decide +kernel)⟩⟩
end Witness.PatchProcedure

namespace Witness.DramRequests
def s1 : State :=
  { objs := [(K.dramMappedBytes, 2 ^ 37), (K.dramReady, 1)] }
def s2 : State :=
  {}
def s3 : State :=
  { dram := { reqs := [{ port := 5, addr := 128, write := false, owner := .scrub, at0 := 9, issued := true }] } }
def v4 : DReq :=
  { port := 5, addr := 128, write := false, owner := .scrub, at0 := 9, issued := true }
def s5 : State :=
  { dram := { reqs := [{ port := 4, addr := 128, write := true, owner := .rqSpill 5 [1, 2, 3], at0 := 9,
                         issued := true }] } }
def v6 : DReq :=
  { port := 4, addr := 128, write := true, owner := .rqSpill 5 [1, 2, 3], at0 := 9, issued := true }
def s7 : State :=
  { dram := { reqs := [{ port := 4, addr := 128, write := false, owner := .rqFetch 5 4, at0 := 9,
                         issued := true }] } }
def v8 : DReq :=
  { port := 4, addr := 128, write := false, owner := .rqFetch 5 4, at0 := 9, issued := true }
def s9 : State :=
  { dram := { reqs := [{ port := 5, addr := 128, write := true, owner := .writeBack, at0 := 5, issued := true }] } }
def v10 : DReq :=
  { port := 5, addr := 128, write := true, owner := .writeBack, at0 := 5, issued := true }
def s11 : State :=
  { grps := [(0, { spillCap := some 2 })],
    dram := { reqs := [{ port := 1, addr := 196544, write := true, owner := .capSpill 0, at0 := 9,
                         issued := true }] } }
def v12 : DReq :=
  { port := 1, addr := 196544, write := true, owner := .capSpill 0, at0 := 9, issued := true }
def s13 : State :=
  { now := 40000000,
    dram := { reqs := [{ port := 0, addr := 4224, write := false, owner := .fetch 0 (.gran 3 0), at0 := 9 }] } }
theorem witness_DramRequests :
    (∃ (u : Fin 8) (s : State), (rd K.dramReady s ≠ 0 ∧ s.dram.pause ≠ some ↑u) ∧ ∃ (r : DReq), r ∈ s.dram.reqs ++
      standing s ∧ r.issued = false ∧ subchannelOf r.addr s = ↑u ∧ bankBlocked (bankIndex r.addr s) s = false ∧ bankHeld
      (bankIndex r.addr s) s = false) ∧
    (∃ (u : Fin 8) (s : State), ¬(rd K.dramReady s ≠ 0 ∧ s.dram.pause ≠ some ↑u) ∨ ∀ (r : DReq), ¬(r ∈ s.dram.reqs ++
      standing s ∧ r.issued = false ∧ subchannelOf r.addr s = ↑u ∧ bankBlocked (bankIndex r.addr s) s = false ∧ bankHeld
      (bankIndex r.addr s) s = false)) ∧
    (∃ (p : Fin 6) (a : Nat) (s : State), completed (↑p) (a / 64 * 64) s = none) ∧
    (∃ (a : Nat) (r : DReq) (s : State), a % 64 = 0 ∧ completed 5 a s = some r ∧ r.write = false ∧ r.owner =
      Owner.scrub ∧ s.dram.bad = []) ∧
    (∃ (a : Nat) (j : Nat) (words : List Word) (r : DReq) (s : State), a % 64 = 0 ∧ completed 4 a s = some r ∧ r.write
      = true ∧ r.owner = Owner.rqSpill j words) ∧
    (∃ (a : Nat) (q : Nat) (j : Nat) (r : DReq) (s : State), a % 64 = 0 ∧ completed 4 a s = some r ∧ r.write = false ∧
      r.owner = Owner.rqFetch q j ∧ s.dram.bad = [] ∧ 0 < cacheFree s) ∧
    (∃ (a : Nat) (r : DReq) (s : State), a % 64 = 0 ∧ completed 5 a s = some r ∧ r.write = true ∧ r.owner =
      Owner.writeBack) ∧
    (∃ (g : Fin 16) (a : Nat) (n : Nat) (r : DReq) (s : State), a % 64 = 0 ∧ completed 1 a s = some r ∧ r.write = true
      ∧ r.owner = Owner.capSpill ↑g ∧ (grp (↑g) s).spillCap = some n) ∧
    (∃ (g : Fin 16) (s : State) (r : DReq), r ∈ s.dram.reqs ∧ Owner.ofGroup (↑g) r.owner = true ∧ r.at0 + 32000 * 1024
      < s.now) ∧
    (∃ (g : Fin 16) (s : State), ∀ (r : DReq), r ∈ s.dram.reqs → ¬(Owner.ofGroup (↑g) r.owner = true ∧ r.at0 + 32000 *
      1024 < s.now)) :=
  ⟨⟨0, ⟨s1, (by decide +kernel)⟩⟩,
   ⟨1, ⟨s2, (.inl (by decide +kernel))⟩⟩,
   ⟨0, ⟨0, ⟨s2, (by decide +kernel)⟩⟩⟩,
   ⟨128, ⟨v4, ⟨s3, (by decide +kernel)⟩⟩⟩,
   ⟨128, ⟨5, ⟨[1, 2, 3], ⟨v6, ⟨s5, (by decide +kernel)⟩⟩⟩⟩⟩,
   ⟨128, ⟨5, ⟨4, ⟨v8, ⟨s7, (by decide +kernel)⟩⟩⟩⟩⟩,
   ⟨128, ⟨v10, ⟨s9, (by decide +kernel)⟩⟩⟩,
   ⟨0, ⟨196544, ⟨2, ⟨v12, ⟨s11, (by decide +kernel)⟩⟩⟩⟩⟩,
   ⟨0, ⟨s13, (by decide +kernel)⟩⟩,
   ⟨0, ⟨s2, (by decide +kernel)⟩⟩⟩
end Witness.DramRequests

namespace Witness.DramUpkeep
def s1 : State :=
  { objs := [(K.dramMappedBytes, 2 ^ 37)], now := 40000000 }
def s2 : State :=
  { }
def s3 : State :=
  { objs := [(K.dramMappedBytes, 2 ^ 37)], now := 40000000,
    dram := { reqs := [{ port := 0, addr := 64, write := false, owner := .dropped .writeBack, at0 := 5 }] } }
def s4 : State :=
  { objs := [(K.dramReady, 1)] }
def s5 : State :=
  { objs := [(K.runState 0, 3)], seqs := [(0, { queue := [{ page := 3, first := 64, count := 4096 }] })] }
def s6 : State :=
  { dram := { pause := some 1 } }
def s7 : State :=
  { dram := { pause := some 1, discard := true } }
def s8 : State :=
  { objs := [(K.runState 0, 3), (K.dramReady, 1)],
    seqs := [(0, { queue := [{ page := 3, first := 64, count := 4096 }] })] }
def s9 : State :=
  { dram := { deferred := [1] } }
def s10 : State :=
  { objs := [(K.ethLink 0, 1), (K.startStep, 8)], sessions := [{ sess 1 with expert := true }] }
def s11 : State :=
  { objs := [(K.ethLink 0, 1), (K.dramSpeed, 5600), (K.startStep, 8)], sessions := [{ sess 1 with expert := true }] }
def s12 : State :=
  { objs := [(K.ethLink 0, 1), (K.dramSpeedStatus, 2), (K.startStep, 8)],
    sessions := [{ sess 1 with expert := true }] }
def s13 : State :=
  { objs := [(K.dramSpeedStatus, 1), (K.dramReady, 1)] }
def s14 : State :=
  { objs := [(K.dramSpeedStatus, 2)] }
def s15 : State :=
  { objs := [(K.dramSpeedStatus, 2)], dram := { heldReq := some 4800 } }
theorem witness_DramUpkeep :
    (∃ (u : Fin 8) (bank : Fin 4) (s : State), (refreshable (↑u) s = true ∧ bankBlocked (4 * ↑u + ↑bank) s = false) ∧
      refDue (4 * ↑u + ↑bank) (↑u) s ≠ 0 ∧ bankWanted (4 * ↑u + ↑bank) false s = false) ∧
    (∃ (u : Fin 8) (bank : Fin 4) (s : State), refDue (4 * ↑u + ↑bank) (↑u) s = 0 ∨ bankWanted (4 * ↑u + ↑bank) false s
      = true) ∧
    (∃ (u : Fin 8) (bank : Fin 4) (s : State), (refreshable (↑u) s = true ∧ bankBlocked (4 * ↑u + ↑bank) s = false) ∧ 5
      ≤ refDue (4 * ↑u + ↑bank) (↑u) s ∧ bankWanted (4 * ↑u + ↑bank) true s = true ∧ ∀ (r : DReq), r ∈ s.dram.reqs →
      ¬(r.issued = true ∧ bankIndex r.addr s = 4 * ↑u + ↑bank)) ∧
    (∃ (u : Fin 8) (bank : Fin 4) (s : State), refDue (4 * ↑u + ↑bank) (↑u) s < 5) ∧
    (∃ (u : Fin 8) (s : State), s.dram.pause = none ∧ (rd K.dramReady s ≠ 0 ∧ fenced (32 + ↑u / 2) s = false) ∧
      pauseAllowed s = true ∧ ∀ (r : DReq), r ∈ s.dram.reqs → ¬(r.issued = true ∧ subchannelOf r.addr s = ↑u)) ∧
    (∃ (s : State), pauseAllowed s = false) ∧
    (∃ (u : Fin 8) (s : State), s.dram.pause = some ↑u ∧ s.dram.discard = false ∧ fenced (32 + ↑u / 2) s = false) ∧
    (∃ (u : Fin 8) (s : State), s.dram.pause = some ↑u ∧ s.dram.discard = true ∧ fenced (32 + ↑u / 2) s = false) ∧
    (∃ (u : Fin 8) (s : State), ¬↑u ∈ s.dram.deferred ∧ (rd K.dramReady s ≠ 0 ∧ fenced (32 + ↑u / 2) s = false) ∧
      pauseAllowed s = false) ∧
    (∃ (u : Fin 8) (s : State), ↑u ∈ s.dram.deferred) ∧
    (∃ (p : Bytes), List.length p = 2 ∧ HostMeets opWrite K.dramSpeedReq p 1 true fun _ s => (leNat p = 4800 ∨ leNat p
      = 5600 ∨ leNat p = 6400) ∧ rd K.dramSpeedStatus s ≠ 2 ∧ leNat p ≠ rd K.dramSpeed s) ∧
    (∃ (p : Bytes), List.length p = 2 ∧ HostMeets opWrite K.dramSpeedReq p 1 true fun _ s => (leNat p = 4800 ∨ leNat p
      = 5600 ∨ leNat p = 6400) ∧ rd K.dramSpeedStatus s ≠ 2 ∧ leNat p = rd K.dramSpeed s) ∧
    (∃ (p : Bytes), List.length p = 2 ∧ HostMeets opWrite K.dramSpeedReq p 1 true fun _ s => (leNat p = 4800 ∨ leNat p
      = 5600 ∨ leNat p = 6400) ∧ rd K.dramSpeedStatus s = 2) ∧
    (∃ (p : Bytes), List.length p = 2 ∧ HostMeets opWrite K.dramSpeedReq p 1 true fun _ _ => ¬(leNat p = 4800 ∨ leNat p
      = 5600 ∨ leNat p = 6400)) ∧
    (∃ (s : State), rd K.dramSpeedStatus s = 1 ∧ streaming s = false ∧ s.dram.pause = none ∧ rd K.dramReady s ≠ 0) ∧
    (∃ (s : State), rd K.dramSpeedStatus s ≠ 1 ∨ streaming s = true) ∧
    (∃ (s : State), rd K.dramSpeedStatus s = 2 ∧ s.dram.heldReq = none ∧ ∀ (r : DReq), r ∈ s.dram.reqs → r.issued =
      false) ∧
    (∃ (s : State) (v : Nat), rd K.dramSpeedStatus s = 2 ∧ s.dram.heldReq = some v ∧ v ≠ rd K.dramSpeed s ∧ v ≠
      s.dram.target ∧ ∀ (r : DReq), r ∈ s.dram.reqs → r.issued = false) ∧
    (∃ (s : State), rd K.dramSpeedStatus s ≠ 2 ∨ ∃ (r : DReq), r ∈ s.dram.reqs ∧ r.issued = true) :=
  ⟨⟨0, ⟨1, ⟨s1, (by decide +kernel)⟩⟩⟩,
   ⟨0, ⟨0, ⟨s2, (by decide +kernel)⟩⟩⟩,
   ⟨1, ⟨0, ⟨s3, (by decide +kernel)⟩⟩⟩,
   ⟨0, ⟨0, ⟨s2, (by decide +kernel)⟩⟩⟩,
   ⟨0, ⟨s4, (by decide +kernel)⟩⟩,
   ⟨s5, (by decide +kernel)⟩,
   ⟨1, ⟨s6, (by decide +kernel)⟩⟩,
   ⟨1, ⟨s7, (by decide +kernel)⟩⟩,
   ⟨0, ⟨s8, (by decide +kernel)⟩⟩,
   ⟨1, ⟨s9, (by decide +kernel)⟩⟩,
   ⟨[192, 18], ⟨(by decide +kernel), (hostMeets s10 (by decide +kernel) (by decide +kernel))⟩⟩,
   ⟨[224, 21], ⟨(by decide +kernel), (hostMeets s11 (by decide +kernel) (by decide +kernel))⟩⟩,
   ⟨[192, 18], ⟨(by decide +kernel), (hostMeets s12 (by decide +kernel) (by decide +kernel))⟩⟩,
   ⟨[0, 0], ⟨(by decide +kernel), (hostMeets s10 (by decide +kernel) (by decide +kernel))⟩⟩,
   ⟨s13, (by decide +kernel)⟩,
   ⟨s2, (by decide +kernel)⟩,
   ⟨s14, (by decide +kernel)⟩,
   ⟨s15, ⟨4800, (by decide +kernel)⟩⟩,
   ⟨s2, (by decide +kernel)⟩⟩
end Witness.DramUpkeep

namespace Witness.DramMapsAndPasses
/-- Channels 0, 1 and 2 are fenced, and 0 trains for its release. -/
def dm : State := { objs := [(K.fltFenced, 7 * 2 ^ 32)], dram := { retrain := [0] } }
def s1 : State :=
  { objs := [(K.dramMappedBytes, 2 ^ 37)] }
def s2 : State :=
  { objs := [(K.dramReady, 1)] }
def s3 : State :=
  { objs := [(K.dramMappedBytes, 2 ^ 37), (K.dramReady, 1)] }
def s4 : State :=
  { dram := { retrain := [3] } }
def s5 : State :=
  { }
theorem witness_DramMapsAndPasses :
    (∃ (s : State), rd K.dramReady s ≠ 1 ∧ rd K.dramSpeedStatus s ≠ 2 ∧ rd K.dramMappedBytes s ≠ 0 ∧ rd K.rqSpillSize s
      = 0) ∧
    (∃ (s : State), rd K.dramReady s = 1) ∧
    (∃ (s : State), rd K.scrubHours s ≠ 0 ∧ rd K.dramReady s ≠ 0 ∧ mapped (64 * s.dram.scrubAt) 64 s = false ∧ ∀ (r :
      DReq), r ∈ s.dram.reqs → r.owner ≠ Owner.scrub) ∧
    (∃ (s : State), rd K.scrubHours s ≠ 0 ∧ rd K.dramReady s ≠ 0 ∧ mapped (64 * s.dram.scrubAt) 64 s = true) ∧
    (∃ (s : State) (c : Fin 4), s.dram.retrain.contains ↑c = true ∧ (List.filter (fun (i : Nat) => i != ↑c && fenced
      (32 + i) s) (List.range 4)).length ≤ 1) ∧
    (∃ (s : State) (c : Fin 4), s.dram.retrain.contains ↑c = true ∧ 2 ≤ (List.filter (fun (i : Nat) => i != ↑c &&
      fenced (32 + i) s) (List.range 4)).length) ∧
    (∃ (s : State) (c : Fin 4), s.dram.retrain.contains ↑c = true) ∧
    (∃ (s : State) (c : Fin 4), s.dram.retrain.contains ↑c = false) :=
  ⟨⟨s1, (by decide +kernel)⟩,
   ⟨s2, (by decide +kernel)⟩,
   ⟨s2, (by decide +kernel)⟩,
   ⟨s3, (by decide +kernel)⟩,
   ⟨s4, (by decide +kernel)⟩,
   ⟨dm, 0, by decide +kernel⟩,
   ⟨s4, (by decide +kernel)⟩,
   ⟨s5, (by decide +kernel)⟩⟩
end Witness.DramMapsAndPasses

namespace Witness.PacerRegisterAlu
def s1 : State :=
  { objs := [(K.peState 0, 2)], pes := [(0, { pc := 100, pm := [(100, 282034176)] })] }
def s2 : State :=
  { objs := [(K.peState 0, 2)], pes := [(0, { pc := 100, pm := [(100, 292716544)] })] }
def s3 : State :=
  { objs := [(K.peState 0, 2)], pes := [(0, { pc := 100, pm := [(100, 303398912)] })] }
def s4 : State :=
  { objs := [(K.peState 0, 2)], pes := [(0, { pc := 100, pm := [(100, 330825728)] })] }
def s5 : State :=
  { objs := [(K.peState 0, 2)], pes := [(0, { pc := 100, pm := [(100, 341770240)] })] }
def s6 : State :=
  { objs := [(K.peState 0, 2)], pes := [(0, { pc := 100, pm := [(100, 367001600)] })] }
def s7 : State :=
  { objs := [(K.peState 0, 2)], pes := [(0, { pc := 100, pm := [(100, 377749504)] })] }
def s8 : State :=
  { objs := [(K.peState 0, 2)], pes := [(0, { pc := 100, pm := [(100, 388497408)] })] }
def s9 : State :=
  { objs := [(K.peState 0, 2)], pes := [(0, { pc := 100, pm := [(100, 416219136)] })] }
def s10 : State :=
  { objs := [(K.peState 0, 2)], pes := [(0, { pc := 100, pm := [(100, 426901504)] })] }
def s11 : State :=
  { objs := [(K.peState 0, 2)], pes := [(0, { pc := 100, pm := [(100, 437583872)] })] }
def s12 : State :=
  { objs := [(K.peState 0, 2)], pes := [(0, { pc := 100, pm := [(100, 465043456)] })] }
def s13 : State :=
  { objs := [(K.peState 0, 2)], pes := [(0, { pc := 100, pm := [(100, 475987968)] })] }
def s14 : State :=
  { objs := [(K.peState 0, 2)], pes := [(0, { pc := 100, pm := [(100, 501219328)] })] }
def s15 : State :=
  { objs := [(K.peState 0, 2)], pes := [(0, { pc := 100, pm := [(100, 503644160)] })] }
theorem witness_PacerRegisterAlu :
    (∃ (e : Fin 16) (f : BitVec 24) (s : State), PeReady (↑e) (peWord 1 0 f) s ∧ f.toNat &&& 32767 = 0) ∧
    (∃ (e : Fin 16) (f : BitVec 24) (s : State), PeReady (↑e) (peWord 1 1 f) s ∧ f.toNat &&& 32767 = 0) ∧
    (∃ (e : Fin 16) (f : BitVec 24) (s : State), PeReady (↑e) (peWord 1 2 f) s ∧ f.toNat &&& 32767 = 0) ∧
    (∃ (e : Fin 16) (f : BitVec 24) (s : State), PeReady (↑e) (peWord 1 3 f) s ∧ f.toNat &&& 32767 = 0) ∧
    (∃ (e : Fin 16) (f : BitVec 24) (s : State), PeReady (↑e) (peWord 1 4 f) s ∧ f.toNat &&& 32767 = 0) ∧
    (∃ (e : Fin 16) (f : BitVec 24) (s : State), PeReady (↑e) (peWord 1 5 f) s ∧ f.toNat &&& 262143 = 0) ∧
    (∃ (e : Fin 16) (f : BitVec 24) (s : State), PeReady (↑e) (peWord 1 6 f) s ∧ f.toNat &&& 262143 = 0) ∧
    (∃ (e : Fin 16) (f : BitVec 24) (s : State), PeReady (↑e) (peWord 1 7 f) s ∧ f.toNat &&& 262143 = 0) ∧
    (∃ (e : Fin 16) (f : BitVec 24) (s : State), PeReady (↑e) (peWord 1 8 f) s ∧ f.toNat &&& 32767 = 0) ∧
    (∃ (e : Fin 16) (f : BitVec 24) (s : State), PeReady (↑e) (peWord 1 9 f) s ∧ f.toNat &&& 32767 = 0) ∧
    (∃ (e : Fin 16) (f : BitVec 24) (s : State), PeReady (↑e) (peWord 1 10 f) s ∧ f.toNat &&& 32767 = 0) ∧
    (∃ (e : Fin 16) (f : BitVec 24) (s : State), PeReady (↑e) (peWord 1 11 f) s ∧ f.toNat &&& 32767 = 0) ∧
    (∃ (e : Fin 16) (f : BitVec 24) (s : State), PeReady (↑e) (peWord 1 12 f) s ∧ f.toNat &&& 32767 = 0) ∧
    (∃ (e : Fin 16) (f : BitVec 24) (s : State), PeReady (↑e) (peWord 1 13 f) s ∧ f.toNat &&& 262143 = 0) ∧
    (∃ (e : Fin 16) (f : BitVec 24) (s : State), PeReady (↑e) (peWord 1 14 f) s ∧ f.toNat &&& 14712831 = 0) :=
  ⟨⟨0, ⟨13598720, ⟨s1, ⟨(by delta PeReady PeIssues; decide +kernel), (by decide +kernel)⟩⟩⟩⟩,
   ⟨0, ⟨7503872, ⟨s2, ⟨(by delta PeReady PeIssues; decide +kernel), (by decide +kernel)⟩⟩⟩⟩,
   ⟨0, ⟨1409024, ⟨s3, ⟨(by delta PeReady PeIssues; decide +kernel), (by decide +kernel)⟩⟩⟩⟩,
   ⟨0, ⟨12058624, ⟨s4, ⟨(by delta PeReady PeIssues; decide +kernel), (by decide +kernel)⟩⟩⟩⟩,
   ⟨0, ⟨6225920, ⟨s5, ⟨(by delta PeReady PeIssues; decide +kernel), (by decide +kernel)⟩⟩⟩⟩,
   ⟨0, ⟨14680064, ⟨s6, ⟨(by delta PeReady PeIssues; decide +kernel), (by decide +kernel)⟩⟩⟩⟩,
   ⟨0, ⟨8650752, ⟨s7, ⟨(by delta PeReady PeIssues; decide +kernel), (by decide +kernel)⟩⟩⟩⟩,
   ⟨0, ⟨2621440, ⟨s8, ⟨(by delta PeReady PeIssues; decide +kernel), (by decide +kernel)⟩⟩⟩⟩,
   ⟨0, ⟨13565952, ⟨s9, ⟨(by delta PeReady PeIssues; decide +kernel), (by decide +kernel)⟩⟩⟩⟩,
   ⟨0, ⟨7471104, ⟨s10, ⟨(by delta PeReady PeIssues; decide +kernel), (by decide +kernel)⟩⟩⟩⟩,
   ⟨0, ⟨1376256, ⟨s11, ⟨(by delta PeReady PeIssues; decide +kernel), (by decide +kernel)⟩⟩⟩⟩,
   ⟨0, ⟨12058624, ⟨s12, ⟨(by delta PeReady PeIssues; decide +kernel), (by decide +kernel)⟩⟩⟩⟩,
   ⟨0, ⟨6225920, ⟨s13, ⟨(by delta PeReady PeIssues; decide +kernel), (by decide +kernel)⟩⟩⟩⟩,
   ⟨0, ⟨14680064, ⟨s14, ⟨(by delta PeReady PeIssues; decide +kernel), (by decide +kernel)⟩⟩⟩⟩,
   ⟨0, ⟨327680, ⟨s15, ⟨(by delta PeReady PeIssues; decide +kernel), (by decide +kernel)⟩⟩⟩⟩⟩
end Witness.PacerRegisterAlu

namespace Witness.PacerImmediateAlu
def s1 : State :=
  { objs := [(K.peState 0, 2)], pes := [(0, { pc := 100, pm := [(100, 549453824)] })] }
def s2 : State :=
  { objs := [(K.peState 0, 2)], pes := [(0, { pc := 100, pm := [(100, 559939584)] })] }
def s3 : State :=
  { objs := [(K.peState 0, 2)], pes := [(0, { pc := 100, pm := [(100, 570425344)] })] }
def s4 : State :=
  { objs := [(K.peState 0, 2)], pes := [(0, { pc := 100, pm := [(100, 597688320)] })] }
def s5 : State :=
  { objs := [(K.peState 0, 2)], pes := [(0, { pc := 100, pm := [(100, 608174080)] })] }
def s6 : State :=
  { objs := [(K.peState 0, 2)], pes := [(0, { pc := 100, pm := [(100, 635437056)] })] }
def s7 : State :=
  { objs := [(K.peState 0, 2)], pes := [(0, { pc := 100, pm := [(100, 645922816)] })] }
def s8 : State :=
  { objs := [(K.peState 0, 2)], pes := [(0, { pc := 100, pm := [(100, 656408576)] })] }
def s9 : State :=
  { objs := [(K.peState 0, 2)], pes := [(0, { pc := 100, pm := [(100, 683671552)] })] }
def s10 : State :=
  { objs := [(K.peState 0, 2)], pes := [(0, { pc := 100, pm := [(100, 694157312)] })] }
def s11 : State :=
  { objs := [(K.peState 0, 2)], pes := [(0, { pc := 100, pm := [(100, 704643072)] })] }
theorem witness_PacerImmediateAlu :
    (∃ (e : Fin 16) (f : BitVec 24) (s : State), PeReady (↑e) (peWord 2 0 f) s ∧ f.toNat &&& 2031616 = 0) ∧
    (∃ (e : Fin 16) (f : BitVec 24) (s : State), PeReady (↑e) (peWord 2 1 f) s ∧ f.toNat &&& 2031616 = 0) ∧
    (∃ (e : Fin 16) (f : BitVec 24) (s : State), PeReady (↑e) (peWord 2 2 f) s ∧ f.toNat &&& 2031616 = 0) ∧
    (∃ (e : Fin 16) (f : BitVec 24) (s : State), PeReady (↑e) (peWord 2 3 f) s ∧ f.toNat &&& 2031616 = 0) ∧
    (∃ (e : Fin 16) (f : BitVec 24) (s : State), PeReady (↑e) (peWord 2 4 f) s ∧ f.toNat &&& 2031616 = 0) ∧
    (∃ (e : Fin 16) (f : BitVec 24) (s : State), PeReady (↑e) (peWord 2 5 f) s ∧ f.toNat &&& 2031616 = 0) ∧
    (∃ (e : Fin 16) (f : BitVec 24) (s : State), PeReady (↑e) (peWord 2 6 f) s ∧ f.toNat &&& 2031616 = 0) ∧
    (∃ (e : Fin 16) (f : BitVec 24) (s : State), PeReady (↑e) (peWord 2 7 f) s ∧ f.toNat &&& 2031616 = 0) ∧
    (∃ (e : Fin 16) (f : BitVec 24) (s : State), PeReady (↑e) (peWord 2 8 f) s ∧ f.toNat &&& 2097088 = 0) ∧
    (∃ (e : Fin 16) (f : BitVec 24) (s : State), PeReady (↑e) (peWord 2 9 f) s ∧ f.toNat &&& 2097088 = 0) ∧
    (∃ (e : Fin 16) (f : BitVec 24) (s : State), PeReady (↑e) (peWord 2 10 f) s ∧ f.toNat &&& 2097088 = 0) :=
  ⟨⟨0, ⟨12582912, ⟨s1, ⟨(by delta PeReady PeIssues; decide +kernel), (by decide +kernel)⟩⟩⟩⟩,
   ⟨0, ⟨6291456, ⟨s2, ⟨(by delta PeReady PeIssues; decide +kernel), (by decide +kernel)⟩⟩⟩⟩,
   ⟨0, ⟨0, ⟨s3, ⟨(by delta PeReady PeIssues; decide +kernel), (by decide +kernel)⟩⟩⟩⟩,
   ⟨0, ⟨10485760, ⟨s4, ⟨(by delta PeReady PeIssues; decide +kernel), (by decide +kernel)⟩⟩⟩⟩,
   ⟨0, ⟨4194304, ⟨s5, ⟨(by delta PeReady PeIssues; decide +kernel), (by decide +kernel)⟩⟩⟩⟩,
   ⟨0, ⟨14680064, ⟨s6, ⟨(by delta PeReady PeIssues; decide +kernel), (by decide +kernel)⟩⟩⟩⟩,
   ⟨0, ⟨8388608, ⟨s7, ⟨(by delta PeReady PeIssues; decide +kernel), (by decide +kernel)⟩⟩⟩⟩,
   ⟨0, ⟨2097152, ⟨s8, ⟨(by delta PeReady PeIssues; decide +kernel), (by decide +kernel)⟩⟩⟩⟩,
   ⟨0, ⟨12582912, ⟨s9, ⟨(by delta PeReady PeIssues; decide +kernel), (by decide +kernel)⟩⟩⟩⟩,
   ⟨0, ⟨6291456, ⟨s10, ⟨(by delta PeReady PeIssues; decide +kernel), (by decide +kernel)⟩⟩⟩⟩,
   ⟨0, ⟨0, ⟨s11, ⟨(by delta PeReady PeIssues; decide +kernel), (by decide +kernel)⟩⟩⟩⟩⟩
end Witness.PacerImmediateAlu

namespace Witness.PacerControlFlow
def s1 : State :=
  { objs := [(K.peState 0, 2)] }
def s2 : State :=
  { objs := [(K.peState 0, 2)], pes := [(0, { pc := 100, pm := [(100, 16782216)] })] }
def s3 : State :=
  { objs := [(K.peState 0, 2)], pes := [(0, { pc := 100, pm := [(100, 44049192)] })] }
def s4 : State :=
  { objs := [(K.peState 0, 2)], pes := [(0, { pc := 100, pm := [(100, 56623104)] })] }
def s5 : State :=
  { objs := [(K.peState 0, 2)], pes := [(0, { pc := 100, pm := [(100, 83886080)] })] }
def s6 : State :=
  { objs := [(K.peState 0, 2)], pes := [(0, { pc := 100, pm := [(100, 100663296)] })] }
def s7 : State :=
  { objs := [(K.peState 0, 2)], pes := [(0, { pc := 100, pm := [(100, 67190914)] })] }
def s8 : State :=
  { objs := [(K.peState 0, 2)], pes := [(0, { pc := 100, pm := [(100, 67109064)] })] }
theorem witness_PacerControlFlow :
    (∃ (e : Fin 16) (f : BitVec 24) (s : State), PeReady (↑e) (peWord 0 0 f) s ∧ f.toNat &&& 16777215 = 0 ∧ True) ∧
    (∃ (e : Fin 16) (f : BitVec 24) (s : State), PeReady (↑e) (peWord 0 1 f) s ∧ f.toNat &&& 507904 = 0 ∧ fld f.toNat
      20 4 ≠ 15 ∧ (f.getLsbD 19 = true → (peNow (↑e) s).llvl ≠ 0)) ∧
    (∃ (e : Fin 16) (f : BitVec 24) (s : State), PeReady (↑e) (peWord 0 2 f) s ∧ f.toNat &&& 2080768 = 0 ∧ True) ∧
    (∃ (e : Fin 16) (f : BitVec 24) (s : State), PeReady (↑e) (peWord 0 3 f) s ∧ f.toNat &&& 1048575 = 0 ∧ (f.getLsbD
      20 = true → (peNow (↑e) s).llvl ≠ 0)) ∧
    (∃ (e : Fin 16) (f : BitVec 24) (s : State), PeReady (↑e) (peWord 0 5 f) s ∧ f.toNat &&& 16777215 = 0 ∧ True) ∧
    (∃ (e : Fin 16) (f : BitVec 24) (s : State), PeReady (↑e) (peWord 0 6 f) s ∧ f.toNat &&& 16776960 = 0 ∧ True) ∧
    (∃ (e : Fin 16) (f : BitVec 24) (s : State), PeReady (↑e) (peWord 0 4 f) s ∧ (f.getLsbD 23 = true → fld f.toNat 14
      6 = 0) ∧ (peNow (↑e) s).llvl + 1 ≤ 3 ∧ (peNow (↑e) s).pc.toNat + 1 ≤ (BitVec.extractLsb' 0 14 f).toNat ∧ ((peNow
      (↑e) s).llvl ≠ 0 → (BitVec.extractLsb' 0 14 f).toNat < (Pe.leOf (peNow (↑e) s).llvl (peNow (↑e) s)).toNat) ∧
      (if f.getLsbD 23 = true then Pe.xr (fld f.toNat 20 3) (peNow (↑e) s) else BitVec.ofNat 32 (fld f.toNat 14 9)) ≠ 0) ∧
    (∃ (e : Fin 16) (f : BitVec 24) (s : State), PeReady (↑e) (peWord 0 4 f) s ∧ (f.getLsbD 23 = true → fld f.toNat 14
      6 = 0) ∧ (peNow (↑e) s).llvl + 1 ≤ 3 ∧ (peNow (↑e) s).pc.toNat + 1 ≤ (BitVec.extractLsb' 0 14 f).toNat ∧ ((peNow
      (↑e) s).llvl ≠ 0 → (BitVec.extractLsb' 0 14 f).toNat < (Pe.leOf (peNow (↑e) s).llvl (peNow (↑e) s)).toNat) ∧
      (if f.getLsbD 23 = true then Pe.xr (fld f.toNat 20 3) (peNow (↑e) s) else BitVec.ofNat 32 (fld f.toNat 14 9)) = 0
      ∧ (BitVec.extractLsb' 0 14 f).toNat + 1 < 16384 ∧ wordDefined (Pe.memWord 2 ((BitVec.extractLsb' 0 14 f).toNat +
      1) (peNow (↑e) s)) = true) :=
  ⟨⟨0, ⟨0, ⟨s1, ⟨(by delta PeReady PeIssues; decide +kernel), (by decide +kernel)⟩⟩⟩⟩,
   ⟨0, ⟨5000, ⟨s2, ⟨(by delta PeReady PeIssues; decide +kernel), (by decide +kernel)⟩⟩⟩⟩,
   ⟨0, ⟨10494760, ⟨s3, ⟨(by delta PeReady PeIssues; decide +kernel), (by decide +kernel)⟩⟩⟩⟩,
   ⟨0, ⟨6291456, ⟨s4, ⟨(by delta PeReady PeIssues; decide +kernel), (by decide +kernel)⟩⟩⟩⟩,
   ⟨0, ⟨0, ⟨s5, ⟨(by delta PeReady PeIssues; decide +kernel), (by decide +kernel)⟩⟩⟩⟩,
   ⟨0, ⟨0, ⟨s6, ⟨(by delta PeReady PeIssues; decide +kernel), (by decide +kernel)⟩⟩⟩⟩,
   ⟨0, ⟨82050, ⟨s7, ⟨(by delta PeReady PeIssues; decide +kernel), (by decide +kernel)⟩⟩⟩⟩,
   ⟨0, ⟨200, ⟨s8, ⟨(by delta PeReady PeIssues; decide +kernel), (by decide +kernel)⟩⟩⟩⟩⟩
end Witness.PacerControlFlow

namespace Witness.PacerSpecialRegisters
def s1 : State :=
  { objs := [(K.peState 0, 2)], pes := [(0, { pc := 100, pm := [(100, 117440528)] })] }
def s2 : State :=
  { objs := [(K.peState 0, 2)], pes := [(0, { pc := 100, pm := [(100, 134217728)] })] }
def s3 : State :=
  { objs := [(K.peState 0, 2)], pes := [(0, { pc := 100, pm := [(100, 143654912)] })] }
def s4 : State :=
  { objs := [(K.peState 0, 2)], pes := [(0, { pc := 100, pm := [(100, 1633681408)] })] }
def s5 : State :=
  { objs := [(K.peState 0, 2)], pes := [(0, { pc := 100, pm := [(100, 1616969728)] })] }
theorem witness_PacerSpecialRegisters :
    (∃ (e : Fin 16) (f : BitVec 24) (s : State), PeReady (↑e) (peWord 0 7 f) s ∧ f.toNat &&& 16777152 = 0 ∧ (fld
      f.toNat 0 5 = 16 ∨ fld f.toNat 0 5 = 18 ∨ 25 ≤ fld f.toNat 0 5)) ∧
    (∃ (e : Fin 16) (f : BitVec 24) (s : State), PeReady (↑e) (peWord 0 8 f) s ∧ f.toNat &&& 8388576 = 0 ∧ f.getLsbD 23
      = false ∧ -8 ≤ (BitVec.extractLsb' 0 5 f).toInt ∧ (BitVec.extractLsb' 0 5 f).toInt ≤ 8) ∧
    (∃ (e : Fin 16) (f : BitVec 24) (s : State), PeReady (↑e) (peWord 0 8 f) s ∧ f.toNat &&& 1048575 = 0 ∧ f.getLsbD 23
      = true ∧ -8 ≤ BitVec.toInt (Pe.xr (fld f.toNat 20 3) (peNow (↑e) s)) ∧ BitVec.toInt (Pe.xr (fld f.toNat 20 3)
      (peNow (↑e) s)) ≤ 8) ∧
    (∃ (e : Fin 16) (f : BitVec 24) (s : State), PeReady (↑e) (peWord 6 1 f) s ∧ f.toNat &&& 65535 = 0 ∧ sprWritable
      (fld f.toNat 16 5) = true ∧ (fld f.toNat 16 5 = 0 → scaleOk (srScale (Pe.xr (fld f.toNat 21 3) (peNow (↑e) s))) =
      true)) ∧
    (∃ (e : Fin 16) (f : BitVec 24) (v : Word) (s : State), PeReady (↑e) (peWord 6 0 f) s ∧ f.toNat &&& 65535 = 0 ∧
      sprRead (↑e) (fld f.toNat 16 5) (peNow (↑e) s) s = some v) :=
  ⟨⟨0, ⟨16, ⟨s1, ⟨(by delta PeReady PeIssues; decide +kernel), (by decide +kernel)⟩⟩⟩⟩,
   ⟨0, ⟨0, ⟨s2, ⟨(by delta PeReady PeIssues; decide +kernel), (by decide +kernel)⟩⟩⟩⟩,
   ⟨0, ⟨9437184, ⟨s3, ⟨(by delta PeReady PeIssues; decide +kernel), (by decide +kernel)⟩⟩⟩⟩,
   ⟨0, ⟨6291456, ⟨s4, ⟨(by delta PeReady PeIssues; decide +kernel), (by decide +kernel)⟩⟩⟩⟩,
   ⟨0, ⟨6356992, ⟨0, ⟨s5, ⟨(by delta PeReady PeIssues; decide +kernel), (by decide +kernel)⟩⟩⟩⟩⟩⟩
end Witness.PacerSpecialRegisters

namespace Witness.PacerAccumulators
def sd : State :=
  { objs := [(K.peState 0, 2)], pes := [(0, { pc := 100, pm := [(100, BitVec.ofNat 32 (3 * 2 ^ 30 + 0x14800000))] })] }
def s1 : State :=
  { objs := [(K.peState 0, 2)], pes := [(0, { pc := 100, pm := [(100, 813694976)] })] }
def s2 : State :=
  { objs := [(K.peState 0, 2)], pes := [(0, { pc := 100, pm := [(100, 824180736)] })] }
def s3 : State :=
  { objs := [(K.peState 0, 2)], pes := [(0, { pc := 100, pm := [(100, 843055104)] })] }
def s4 : State :=
  { objs := [(K.peState 0, 2)], pes := [(0, { pc := 100, pm := [(100, 870318080)] })] }
def s5 : State :=
  { objs := [(K.peState 0, 2)], pes := [(0, { pc := 100, pm := [(100, 877658112)] })] }
def s6 : State :=
  { objs := [(K.peState 0, 2)], pes := [(0, { pc := 100, pm := [(100, 906100736)] })] }
def s7 : State :=
  { objs := [(K.peState 0, 2)], pes := [(0, { pc := 100, pm := [(100, 989986816)] })] }
def s8 : State :=
  { objs := [(K.peState 0, 2)], pes := [(0, { pc := 100, pm := [(100, 1015021568)] })] }
def s9 : State :=
  { objs := [(K.peState 0, 2)],
    pes := [(0, { pc := 100,
                  acc := #v[4722366476852958301690, 3984970198057007385095, 3865795972962418587946,
                            4722366472927683358127],
                  pm := [(100, 1015021568)] })] }
def s10 : State :=
  { objs := [(K.peState 0, 2)], pes := [(0, { pc := 100, pm := [(100, 897974272)] })] }
def s11 : State :=
  { objs := [(K.peState 0, 2)], pes := [(0, { pc := 100, pm := [(100, 931135488)] })] }
def s12 : State :=
  { objs := [(K.peState 0, 2)], pes := [(0, { pc := 100, pm := [(100, 952893440)] })] }
def s13 : State :=
  { objs := [(K.peState 0, 2)], pes := [(0, { pc := 100, pm := [(100, 961150976)] })] }
def s14 : State :=
  { objs := [(K.peState 0, 2)], pes := [(0, { pc := 100, pm := [(100, 973744128)] })] }
def s15 : State :=
  { objs := [(K.peState 0, 2)], pes := [(0, { pc := 100, pm := [(100, 4045078528)] })] }
def s16 : State :=
  { objs := [(K.peState 0, 2)], pes := [(0, { pc := 100, pm := [(100, 3339726848)] })] }
def s17 : State :=
  { objs := [(K.peState 0, 2)], pes := [(0, { pc := 100, pm := [(100, 4112154624)] })] }
def s18 : State :=
  { objs := [(K.peState 0, 2)], pes := [(0, { pc := 100, pm := [(100, 3221227520)] })] }
theorem witness_PacerAccumulators :
    (∃ (e : Fin 16) (f : BitVec 24) (s : State), PeReady (↑e) (peWord 3 0 f) s ∧ f.toNat &&& 4194303 = 0) ∧
    (∃ (e : Fin 16) (f : BitVec 24) (s : State), PeReady (↑e) (peWord 3 1 f) s ∧ f.toNat &&& 1048575 = 0) ∧
    (∃ (e : Fin 16) (f : BitVec 24) (s : State), PeReady (↑e) (peWord 3 2 f) s ∧ f.toNat &&& 1048575 = 0) ∧
    (∃ (e : Fin 16) (f : BitVec 24) (s : State), PeReady (↑e) (peWord 3 3 f) s ∧ f.toNat &&& 1048575 = 0) ∧
    (∃ (e : Fin 16) (f : BitVec 24) (s : State), PeReady (↑e) (peWord 3 4 f) s ∧ f.toNat &&& 1048575 = 0) ∧
    (∃ (e : Fin 16) (f : BitVec 24) (s : State), PeReady (↑e) (peWord 3 6 f) s ∧ f.toNat &&& 3276799 = 0) ∧
    (∃ (e : Fin 16) (f : BitVec 24) (s : State), PeReady (↑e) (peWord 3 11 f) s ∧ f.toNat &&& 3276799 = 0 ∧
      BitVec.toInt (Pe.xr (fld f.toNat 17 3) (peNow (↑e) s)) ≤ 63 ∧ -72 ≤ BitVec.toInt (Pe.xr (fld f.toNat 17 3) (peNow
      (↑e) s))) ∧
    (∃ (e : Fin 16) (f : BitVec 24) (s : State), PeReady (↑e) (peWord 3 12 f) s ∧ f.toNat &&& 3276799 = 0 ∧ 0 ≤ accExp
      (Pe.ac (fld f.toNat 22 2) (peNow (↑e) s))) ∧
    (∃ (e : Fin 16) (f : BitVec 24) (s : State), PeReady (↑e) (peWord 3 12 f) s ∧ f.toNat &&& 3276799 = 0 ∧ accExp
      (Pe.ac (fld f.toNat 22 2) (peNow (↑e) s)) < 0) ∧
    (∃ (e : Fin 16) (f : BitVec 24) (s : State), PeReady (↑e) (peWord 3 5 f) s ∧ f.toNat &&& 3276799 = 0) ∧
    (∃ (e : Fin 16) (f : BitVec 24) (s : State), PeReady (↑e) (peWord 3 7 f) s ∧ f.toNat &&& 3178495 = 0 ∧ fld f.toNat
      15 2 ≠ 3) ∧
    (∃ (e : Fin 16) (f : BitVec 24) (s : State), PeReady (↑e) (peWord 3 8 f) s ∧ f.toNat &&& 3178495 = 0 ∧ fld f.toNat
      15 2 ≠ 3) ∧
    (∃ (e : Fin 16) (f : BitVec 24) (s : State), PeReady (↑e) (peWord 3 9 f) s ∧ f.toNat &&& 3260415 = 0 ∧ True) ∧
    (∃ (e : Fin 16) (f : BitVec 24) (s : State), PeReady (↑e) (peWord 3 10 f) s ∧ f.toNat &&& 15845375 = 0 ∧ True) ∧
    (∃ (a : Sys2Proof.Acc) (i : Nat), i < 71 ∧ 71 - accRun a ≤ i) ∧
    (∃ (w : Word) (i : Nat), i < 31 ∧ 31 - wordRun w ≤ i) ∧
    (∃ (e : Fin 16) (f : BitVec 30) (s : State), PeReady (↑e) (BitVec.ofNat 32 (3 * 2 ^ 30 + f.toNat)) s ∧ dualRsv
      f.toNat = false ∧ (f.getLsbD 11 = false ∧ f.getLsbD 5 = false) ∧ fld f.toNat 28 2 ≠ 0 ∧ fld f.toNat 26 2 = 0) ∧
    (∃ (e : Fin 16) (f : BitVec 30) (s : State), PeReady (↑e) (BitVec.ofNat 32 (3 * 2 ^ 30 + f.toNat)) s ∧ dualRsv
      f.toNat = false ∧ (f.getLsbD 11 = false ∧ f.getLsbD 5 = false) ∧ fld f.toNat 28 2 = 0 ∧ fld f.toNat 26 2 ≠ 0) ∧
    (∃ (e : Fin 16) (f : BitVec 30) (s : State), PeReady (↑e) (BitVec.ofNat 32 (3 * 2 ^ 30 + f.toNat)) s ∧ dualRsv
      f.toNat = false ∧ (f.getLsbD 11 = false ∧ f.getLsbD 5 = false) ∧ fld f.toNat 28 2 ≠ 0 ∧ fld f.toNat 26 2 ≠ 0 ∧
      (if f.getLsbD 23 = true then fld f.toNat 24 2 ^^^ 2 else fld f.toNat 24 2) = fld f.toNat 24 2) ∧
    (∃ (e : Fin 16) (f : BitVec 30) (s : State), PeReady (↑e) (BitVec.ofNat 32 (3 * 2 ^ 30 + f.toNat)) s ∧ dualRsv
      f.toNat = false ∧ (f.getLsbD 11 = false ∧ f.getLsbD 5 = false) ∧ fld f.toNat 28 2 ≠ 0 ∧ fld f.toNat 26 2 ≠ 0 ∧
      (if f.getLsbD 23 = true then fld f.toNat 24 2 ^^^ 2 else fld f.toNat 24 2) ≠ fld f.toNat 24 2) ∧
    (∃ (e : Fin 16) (f : BitVec 30) (s : State), PeReady (↑e) (BitVec.ofNat 32 (3 * 2 ^ 30 + f.toNat)) s ∧ dualRsv
      f.toNat = false ∧ fld f.toNat 28 2 = 0 ∧ fld f.toNat 26 2 = 0 ∧ f.getLsbD 11 = true ∧ f.getLsbD 5 = false ∧
      f.getLsbD 6 = false ∧ (Pe.ptr (fld f.toNat 7 2) (peNow (↑e) s)).toNat < 57344) :=
  ⟨⟨0, ⟨8388608, ⟨s1, ⟨(by delta PeReady PeIssues; decide +kernel), (by decide +kernel)⟩⟩⟩⟩,
   ⟨0, ⟨2097152, ⟨s2, ⟨(by delta PeReady PeIssues; decide +kernel), (by decide +kernel)⟩⟩⟩⟩,
   ⟨0, ⟨4194304, ⟨s3, ⟨(by delta PeReady PeIssues; decide +kernel), (by decide +kernel)⟩⟩⟩⟩,
   ⟨0, ⟨14680064, ⟨s4, ⟨(by delta PeReady PeIssues; decide +kernel), (by decide +kernel)⟩⟩⟩⟩,
   ⟨0, ⟨5242880, ⟨s5, ⟨(by delta PeReady PeIssues; decide +kernel), (by decide +kernel)⟩⟩⟩⟩,
   ⟨0, ⟨131072, ⟨s6, ⟨(by delta PeReady PeIssues; decide +kernel), (by decide +kernel)⟩⟩⟩⟩,
   ⟨0, ⟨131072, ⟨s7, ⟨(by delta PeReady PeIssues; decide +kernel), (by decide +kernel)⟩⟩⟩⟩,
   ⟨0, ⟨8388608, ⟨s8, ⟨(by delta PeReady PeIssues; decide +kernel), (by decide +kernel)⟩⟩⟩⟩,
   ⟨0, ⟨8388608, ⟨s9, ⟨(by delta PeReady PeIssues; decide +kernel), (by decide +kernel)⟩⟩⟩⟩,
   ⟨0, ⟨8781824, ⟨s10, ⟨(by delta PeReady PeIssues; decide +kernel), (by decide +kernel)⟩⟩⟩⟩,
   ⟨0, ⟨8388608, ⟨s11, ⟨(by delta PeReady PeIssues; decide +kernel), (by decide +kernel)⟩⟩⟩⟩,
   ⟨0, ⟨13369344, ⟨s12, ⟨(by delta PeReady PeIssues; decide +kernel), (by decide +kernel)⟩⟩⟩⟩,
   ⟨0, ⟨4849664, ⟨s13, ⟨(by delta PeReady PeIssues; decide +kernel), (by decide +kernel)⟩⟩⟩⟩,
   ⟨0, ⟨665600, ⟨s14, ⟨(by delta PeReady PeIssues; decide +kernel), (by decide +kernel)⟩⟩⟩⟩,
   by decide +kernel,
   by decide +kernel,
   ⟨0, ⟨823853056, ⟨s15, ⟨(by delta PeReady PeIssues; decide +kernel), (by decide +kernel)⟩⟩⟩⟩,
   ⟨0, ⟨118501376, ⟨s16, ⟨(by delta PeReady PeIssues; decide +kernel), (by decide +kernel)⟩⟩⟩⟩,
   ⟨0, ⟨890929152, ⟨s17, ⟨(by delta PeReady PeIssues; decide +kernel), (by decide +kernel)⟩⟩⟩⟩,
   ⟨0, 0x14800000, sd,
     by delta PeReady PeIssues; decide +kernel, by decide +kernel, by decide +kernel, by decide +kernel, by decide +kernel, by decide +kernel⟩,
   ⟨0, ⟨2048, ⟨s18, ⟨(by delta PeReady PeIssues; decide +kernel), (by decide +kernel)⟩⟩⟩⟩⟩
end Witness.PacerAccumulators

namespace Witness.PacerMemoryAccess
/-- Engine 0 runs at the word of a memory access, its pointers at the last address. -/
def ld (k : Nat) : State :=
  { objs := [(K.peState 0, 2)]
    pes := [(0, { pc := 100, pt := Vector.replicate 8 0xDFFF, xm := [(0xDFFF, 1)], pm := [(100, peWord 4 k 0)] })] }
/-- What an LDA reads into an accumulator. -/
def loaded (bus : BitVec 2) (a : Nat) (p : Pe) : Acc := BitVec.ofInt 72 ((p.memWord bus.toNat a).toInt * 2 ^ 32)
/-- The pointers at an address, every window at a base with a length. -/
def pw (at_ base len : Nat) : Pe :=
  { pt := Vector.replicate 8 (BitVec.ofNat 16 at_), cw := Vector.replicate 8 (BitVec.ofNat 32 (base * 65536 + len)) }
/-- The hypotheses of a pointer's step with a window. -/
def StepMeets (pre : Int → Int → Int → Prop) : Prop :=
  ∃ (p : Pe) (n imm mode : Nat) (m : Int),
    (mode = 1 ∧ m = (p.step n).toInt ∨ mode = 2 ∧ m = (BitVec.ofNat 16 imm).toInt) ∧
    pre ((p.win n).extractLsb' 16 16).toNat ((p.win n).extractLsb' 0 16).toNat ((p.ptr n).toNat + m)
/-- The address after one turn around a window. -/
def turned (b l a : Int) : Int := if b + l ≤ a then a - l else if a < b then a + l else a
theorem witness_PacerMemoryAccess :
    (∃ (e : Fin 16) (bus : BitVec 2) (f : BitVec 24) (q : Pe) (s : State), bus ≠ 3 ∧ (fld f.toNat 19 2 ≠ 2 → fld
      f.toNat 0 16 = 0) ∧ ((peNow e s).ptr (fld f.toNat 21 3)).toNat < (if bus = 2 then 0x4000 else 0xE000) ∧ PeReady e
      (peWord 4 (bus.toNat * 4 + 0) f) s ∧  postMode (fld f.toNat 19 2) (fld f.toNat 21 3) (fld f.toNat 0 16)
      { peNow e s with late := [⟨(peNow e s).pos, .x ⟨fld f.toNat 16 3 % 8, by omega⟩ ((peNow e s).memWord bus.toNat ((peNow e s).ptr (fld f.toNat 21 3)).toNat)⟩] }
      = .ok q) ∧
    (∃ (e : Fin 16) (bus : BitVec 2) (f : BitVec 24) (q : Pe) (s : State), bus ≠ 3 ∧ (fld f.toNat 19 2 ≠ 2 → fld
      f.toNat 0 16 = 0) ∧ ((peNow e s).ptr (fld f.toNat 21 3)).toNat < (if bus = 2 then 0x4000 else 0xE000) ∧ PeReady e
      (peWord 4 (bus.toNat * 4 + 1) f) s ∧ bus ≠ 2 ∧ postMode (fld f.toNat 19 2) (fld f.toNat 21 3) (fld f.toNat 0 16)
      { peNow e s with stores := [⟨(peNow e s).pos, bus.toNat + 1, ((peNow e s).ptr (fld f.toNat 21 3)).toNat, (peNow e s).xr (fld f.toNat 16 3), (peNow e s).issue⟩] }
      = .ok q) ∧
    (∃ (e : Fin 16) (bus : BitVec 2) (f : BitVec 24) (q : Pe) (s : State), bus ≠ 3 ∧ (fld f.toNat 19 2 ≠ 2 → fld
      f.toNat 0 16 = 0) ∧ ((peNow e s).ptr (fld f.toNat 21 3)).toNat < (if bus = 2 then 0x4000 else 0xE000) ∧ PeReady e
      (peWord 4 (bus.toNat * 4 + 2) f) s ∧ bus ≠ 2 ∧ f.toNat &&& 0x040000 = 0 ∧ postMode (fld f.toNat 19 2) (fld f.toNat
      21 3) (fld f.toNat 0 16) (let m := scaledMove ((peNow e s).ac (fld f.toNat 16 2)) (srScale (peNow e s).sr);
      { peNow e s with stores := [⟨(peNow e s).pos, bus.toNat + 1, ((peNow e s).ptr (fld f.toNat 21 3)).toNat, m.1, (peNow e s).issue⟩], sr := if m.2 then srBit 27 true (peNow e s).sr else (peNow e s).sr })
      = .ok q) ∧
    (∃ (e : Fin 16) (bus : BitVec 2) (f : BitVec 24) (q : Pe) (s : State) (sr : Word), bus ≠ 3 ∧ (fld f.toNat 19 2 ≠ 2
      → fld f.toNat 0 16 = 0) ∧ ((peNow e s).ptr (fld f.toNat 21 3)).toNat < (if bus = 2 then 0x4000 else 0xE000) ∧
      PeReady e (peWord 4 (bus.toNat * 4 + 3) f) s ∧ f.toNat &&& 0x040000 = 0 ∧ sr.getLsbD 0 = (loaded bus ((peNow e
      s).ptr (fld f.toNat 21 3)).toNat (peNow e s) == 0#72) ∧ sr.getLsbD 1 = (loaded bus ((peNow e s).ptr (fld f.toNat
      21 3)).toNat (peNow e s)).msb ∧ sr.getLsbD 4 = false ∧ (∀ i, i ≠ 0 → i ≠ 1 → i ≠ 4 → sr.getLsbD i = (peNow e
      s).sr.getLsbD i) ∧ postMode (fld f.toNat 19 2) (fld f.toNat 21 3) (fld f.toNat 0 16)
      { peNow e s with late := [⟨(peNow e s).pos, .acc ⟨fld f.toNat 16 2 % 4, by omega⟩ (loaded bus ((peNow e s).ptr (fld f.toNat 21 3)).toNat (peNow e s))⟩], sr }
      = .ok q) ∧
    (StepMeets fun _ l _ => l = 0) ∧
    (StepMeets fun b l _ => l ≠ 0 ∧ 0xE000 < b + l) ∧
    (StepMeets fun b l a => l ≠ 0 ∧ b + l ≤ 0xE000 ∧ b ≤ turned b l a ∧ turned b l a < b + l) ∧
    (StepMeets fun b l a => l ≠ 0 ∧ b + l ≤ 0xE000 ∧ (turned b l a < b ∨ b + l ≤ turned b l a)) :=
  ⟨⟨0, 0, 0, _, ld 0,
     by decide +kernel, by decide +kernel, by decide +kernel, by delta PeReady PeIssues; decide +kernel, rfl⟩,
   ⟨0, 0, 0, _, ld 1,
     by decide +kernel, by decide +kernel, by decide +kernel, by delta PeReady PeIssues; decide +kernel, by decide +kernel,
     rfl⟩,
   ⟨0, 0, 0, _, ld 2,
     by decide +kernel, by decide +kernel, by decide +kernel, by delta PeReady PeIssues; decide +kernel, by decide +kernel, by decide +kernel,
     rfl⟩,
   ⟨0, 0, 0, _, ld 3, (peNow 0 (ld 3)).sr,
     by decide +kernel, by decide +kernel, by decide +kernel, by delta PeReady PeIssues; decide +kernel, by decide +kernel, by decide +kernel, by decide +kernel, by decide +kernel,
     fun _ _ _ _ => rfl, rfl⟩,
   ⟨pw 0 0 0, 0, 0, 2, 0, by decide +kernel, by decide +kernel⟩,
   ⟨pw 0 0xE000 1, 0, 0, 2, 0, by decide +kernel, by decide +kernel⟩,
   ⟨pw 0xDFFF 0xDFF0 16, 7, 1, 2, 1, by decide +kernel, by decide +kernel⟩,
   ⟨pw 5 1000 20, 7, 1, 2, 1, by decide +kernel, by decide +kernel⟩⟩
end Witness.PacerMemoryAccess

namespace Witness.PacerAddressRegisters
def s1 : State :=
  { objs := [(K.peState 0, 2)], pes := [(0, { pc := 100, pm := [(100, 1342177280)] })] }
def s2 : State :=
  { objs := [(K.peState 0, 2)], pes := [(0, { pc := 100, pm := [(100, 1358954496)] })] }
def s3 : State :=
  { objs := [(K.peState 0, 2)], pes := [(0, { pc := 100, pm := [(100, 1375731712)] })] }
def s4 : State :=
  { objs := [(K.peState 0, 2)], pes := [(0, { pc := 100, pm := [(100, 1392508928)] })] }
def s5 : State :=
  { objs := [(K.peState 0, 2)], pes := [(0, { pc := 100, pm := [(100, 1879048192)] })] }
def s6 : State :=
  { objs := [(K.peState 0, 2)], pes := [(0, { pc := 100, pm := [(100, 1895825408)] })] }
def s7 : State :=
  { objs := [(K.peState 0, 2)], pes := [(0, { pc := 100, pm := [(100, 1912602624)] })] }
def s8 : State :=
  { objs := [(K.peState 0, 2)], pes := [(0, { pc := 100, pm := [(100, 1897922560)] })] }
def s9 : State :=
  { objs := [(K.peState 0, 2)], pes := [(0, { pc := 100, pm := [(100, 1914699776)] })] }
def s10 : State :=
  { objs := [(K.peState 0, 2)], pes := [(0, { pc := 100, pm := [(100, 1900019712)] })] }
def s11 : State :=
  { objs := [(K.peState 0, 2)], pes := [(0, { pc := 100, pm := [(100, 1916796928)] })] }
theorem witness_PacerAddressRegisters :
    (∃ (e : Fin 16) (f : BitVec 24) (s : State), PeReady (↑e) (peWord 5 0 f) s ∧ f.toNat &&& 1835008 = 0 ∧ True) ∧
    (∃ (e : Fin 16) (f : BitVec 24) (s : State), PeReady (↑e) (peWord 5 1 f) s ∧ f.toNat &&& 1835008 = 0 ∧ True) ∧
    (∃ (e : Fin 16) (f : BitVec 24) (s : State), PeReady (↑e) (peWord 5 2 f) s ∧ f.toNat &&& 65535 = 0 ∧ fld f.toNat 16
      2 ≤ 2) ∧
    (∃ (e : Fin 16) (f : BitVec 24) (s : State), PeReady (↑e) (peWord 5 3 f) s ∧ f.toNat &&& 65535 = 0 ∧ fld f.toNat 16
      2 ≤ 2) ∧
    (∃ (e : Fin 16) (f : BitVec 24) (s : State), PeReady (↑e) (peWord 7 0 f) s ∧ f.toNat &&& 14942207 = 0 ∧ True) ∧
    (∃ (e : Fin 16) (f : BitVec 24) (s : State), PeReady (↑e) (peWord 7 1 f) s ∧ f.toNat &&& 262143 = 0 ∧ fld f.toNat
      21 2 = 0) ∧
    (∃ (e : Fin 16) (f : BitVec 24) (s : State), PeReady (↑e) (peWord 7 2 f) s ∧ f.toNat &&& 262143 = 0 ∧ fld f.toNat
      21 2 = 0) ∧
    (∃ (e : Fin 16) (f : BitVec 24) (s : State), PeReady (↑e) (peWord 7 1 f) s ∧ f.toNat &&& 65535 = 0 ∧ fld f.toNat 21
      2 = 1 ∧ f.getLsbD 16 = false ∧ (Pe.ptr (fld f.toNat 17 3) (peNow (↑e) s)).toNat < 57344) ∧
    (∃ (e : Fin 16) (f : BitVec 24) (s : State), PeReady (↑e) (peWord 7 2 f) s ∧ f.toNat &&& 65535 = 0 ∧ fld f.toNat 21
      2 = 1 ∧ f.getLsbD 16 = false ∧ (Pe.ptr (fld f.toNat 17 3) (peNow (↑e) s)).toNat < 57344) ∧
    (∃ (e : Fin 16) (f : BitVec 24) (s : State), PeReady (↑e) (peWord 7 1 f) s ∧ f.toNat &&& 65535 = 0 ∧ fld f.toNat 21
      2 = 2 ∧ f.getLsbD 16 = false ∧ (Pe.ptr (fld f.toNat 19 2) (peNow (↑e) s)).toNat < 57344 ∧ (Pe.ptr (4 + fld f.toNat
      17 2) (peNow (↑e) s)).toNat < 57344) ∧
    (∃ (e : Fin 16) (f : BitVec 24) (s : State), PeReady (↑e) (peWord 7 2 f) s ∧ f.toNat &&& 65535 = 0 ∧ fld f.toNat 21
      2 = 2 ∧ f.getLsbD 16 = false ∧ (Pe.ptr (fld f.toNat 19 2) (peNow (↑e) s)).toNat < 57344 ∧ (Pe.ptr (4 + fld f.toNat
      17 2) (peNow (↑e) s)).toNat < 57344) :=
  ⟨⟨0, ⟨0, ⟨s1, ⟨(by delta PeReady PeIssues; decide +kernel), (by decide +kernel)⟩⟩⟩⟩,
   ⟨0, ⟨0, ⟨s2, ⟨(by delta PeReady PeIssues; decide +kernel), (by decide +kernel)⟩⟩⟩⟩,
   ⟨0, ⟨0, ⟨s3, ⟨(by delta PeReady PeIssues; decide +kernel), (by decide +kernel)⟩⟩⟩⟩,
   ⟨0, ⟨0, ⟨s4, ⟨(by delta PeReady PeIssues; decide +kernel), (by decide +kernel)⟩⟩⟩⟩,
   ⟨0, ⟨0, ⟨s5, ⟨(by delta PeReady PeIssues; decide +kernel), (by decide +kernel)⟩⟩⟩⟩,
   ⟨0, ⟨0, ⟨s6, ⟨(by delta PeReady PeIssues; decide +kernel), (by decide +kernel)⟩⟩⟩⟩,
   ⟨0, ⟨0, ⟨s7, ⟨(by delta PeReady PeIssues; decide +kernel), (by decide +kernel)⟩⟩⟩⟩,
   ⟨0, ⟨2097152, ⟨s8, ⟨(by delta PeReady PeIssues; decide +kernel), (by decide +kernel)⟩⟩⟩⟩,
   ⟨0, ⟨2097152, ⟨s9, ⟨(by delta PeReady PeIssues; decide +kernel), (by decide +kernel)⟩⟩⟩⟩,
   ⟨0, ⟨4194304, ⟨s10, ⟨(by delta PeReady PeIssues; decide +kernel), (by decide +kernel)⟩⟩⟩⟩,
   ⟨0, ⟨4194304, ⟨s11, ⟨(by delta PeReady PeIssues; decide +kernel), (by decide +kernel)⟩⟩⟩⟩⟩
end Witness.PacerAddressRegisters

namespace Witness.PacerPushAndDma
/-- Channel 0 moves 16 words from XM to YM, of which two have gone. -/
def mv : State :=
  { pes := [(0, { dma := #v[{ busy := true, desc := [301989888, 4000, 0, 6000, 0, 64, 2147483648, 0], done := 8 }, {}, {}, {}] })] }
def s1 : State :=
  { objs := [(K.peState 0, 2)], pes := [(0, { pc := 100, pm := [(100, 2151677952)] })] }
def s2 : State :=
  { objs := [(K.peState 0, 2)],
    pes := [(0, { pc := 100, pm := [(100, 2151677952)], buffer := [(5, [1]), (5, [1]), (5, [1]), (5, [1])] })] }
def s3 : State :=
  { objs := [(K.peState 0, 2)], pes := [(0, { pc := 100, pm := [(100, 2164260864)] })] }
def s4 : State :=
  { objs := [(K.peState 0, 2)],
    pes := [(0, { pc := 100, pm := [(100, 2164260864)],
                  dma := #v[{ busy := true, desc := [0, 1, 2, 3, 4, 5, 6, 7], err := 3, done := 44 },
                            { desc := [0, 1, 2, 3, 4, 5, 6, 7], err := 3, done := 44 },
                            { desc := [0, 1, 2, 3, 4, 5, 6, 7], err := 3, done := 44 },
                            { busy := true, desc := [0, 1, 2, 3, 4, 5, 6, 7], err := 3, done := 44 }] })] }
def s5 : State :=
  { objs := [(K.peState 0, 2)], pes := [(0, { pc := 100, pm := [(100, 2181038080)] })] }
def s6 : State :=
  { objs := [(K.peState 0, 2)],
    pes := [(0, { pc := 100, pm := [(100, 2196766720)],
                  dma := #v[{ busy := true, desc := [0, 1, 2, 3, 4, 5, 6, 7], err := 3, done := 44 },
                            { desc := [0, 1, 2, 3, 4, 5, 6, 7], err := 3, done := 44 },
                            { desc := [0, 1, 2, 3, 4, 5, 6, 7], err := 3, done := 44 },
                            { busy := true, desc := [0, 1, 2, 3, 4, 5, 6, 7], err := 3, done := 44 }] })] }
def s7 : State :=
  { objs := [(K.peState 0, 2)], pes := [(0, { pc := 100, pm := [(100, 2199912448)] })] }
def s8 : State :=
  { }
def s9 : State :=
  { pes := [(0, { dma := #v[{ busy := true, desc := [301989888, 4000, 0, 6000, 0, 64, 2147483648, 0],
                              err := 3, done := 44 },
                            { busy := true, desc := [301989888, 4000, 0, 6000, 0, 64, 2147483648, 0],
                              err := 3, done := 44 },
                            { busy := true, desc := [301989888, 4000, 0, 6000, 0, 64, 2147483648, 0],
                              err := 3, done := 44 },
                            { busy := true, desc := [301989888, 4000, 0, 6000, 0, 64, 2147483648, 0],
                              err := 3, done := 44 }] })] }
def s10 : State :=
  { pes := [(0, { dma := #v[{ busy := true, desc := [301989888, 4000, 0, 6000, 0, 8, 2147483648, 0],
                              err := 3, done := 44 },
                            { busy := true, desc := [301989888, 4000, 0, 6000, 0, 8, 2147483648, 0],
                              err := 3, done := 44 },
                            { busy := true, desc := [301989888, 4000, 0, 6000, 0, 8, 2147483648, 0],
                              err := 3, done := 44 },
                            { busy := true, desc := [301989888, 4000, 0, 6000, 0, 8, 2147483648, 0],
                              err := 3, done := 44 }] })] }
def s11 : State :=
  { objs := [(K.dramMappedBytes, 2 ^ 37)],
    pes := [(0, { dma := #v[{ busy := true, desc := [1107296256, 4096, 0, 6016, 0, 128, 2147483648, 0],
                              done := 64 },
                            { busy := true, desc := [1107296256, 4096, 0, 6016, 0, 128, 2147483648, 0],
                              done := 64 },
                            { busy := true, desc := [1107296256, 4096, 0, 6016, 0, 128, 2147483648, 0],
                              done := 64 },
                            { busy := true, desc := [1107296256, 4096, 0, 6016, 0, 128, 2147483648, 0],
                              done := 64 }] })] }
def s12 : State :=
  { pes := [(0, { dma := #v[{ busy := true, desc := [0, 1, 2, 3, 4, 5, 6, 7], err := 3, done := 44 },
                            { desc := [0, 1, 2, 3, 4, 5, 6, 7], err := 3, done := 44 },
                            { desc := [0, 1, 2, 3, 4, 5, 6, 7], err := 3, done := 44 },
                            { busy := true, desc := [0, 1, 2, 3, 4, 5, 6, 7], err := 3, done := 44 }] })] }
def s13 : State :=
  { pes := [(0, { dma := #v[{ busy := true, desc := [1107296256, 4096, 0, 6016, 0, 128, 2147483648, 0],
                              done := 64 },
                            { busy := true, desc := [1107296256, 4096, 0, 6016, 0, 128, 2147483648, 0],
                              done := 64 },
                            { busy := true, desc := [1107296256, 4096, 0, 6016, 0, 128, 2147483648, 0],
                              done := 64 },
                            { busy := true, desc := [1107296256, 4096, 0, 6016, 0, 128, 2147483648, 0],
                              done := 64 }] })] }
def s14 : State :=
  { pes := [(0, { dma := #v[{ busy := true, desc := [301989888, 4000, 0, 6000, 0, 64, 2147483648, 0],
                              done := 8 },
                            { busy := true, desc := [301989888, 4000, 0, 6000, 0, 64, 2147483648, 0],
                              done := 8 },
                            { busy := true, desc := [301989888, 4000, 0, 6000, 0, 64, 2147483648, 0],
                              done := 8 },
                            { busy := true, desc := [301989888, 4000, 0, 6000, 0, 64, 2147483648, 0],
                              done := 8 }] })] }
theorem witness_PacerPushAndDma :
    (∃ (e : Fin 16) (f : BitVec 24) (s : State), PeReady (↑e) (peWord 8 0 f) s ∧ f.toNat &&& 262143 = 0 ∧ (peNow (↑e)
      s).buffer.length < 4 ∧ (Pe.ptr (fld f.toNat 18 3) (peNow (↑e) s)).toNat + 7 < 57344) ∧
    (∃ (e : Fin 16) (f : BitVec 24) (s : State), PeReady (↑e) (peWord 8 0 f) s ∧ f.toNat &&& 131071 = 0 ∧ 4 ≤ (peNow
      (↑e) s).buffer.length) ∧
    (∃ (e : Fin 16) (f : BitVec 24) (s : State), PeReady (↑e) (peWord 8 1 f) s ∧ f.toNat &&& 2359295 = 0 ∧ (Pe.ptr (fld
      f.toNat 18 3) (peNow (↑e) s)).toNat ≤ 57336 ∧ (Pe.ch (fld f.toNat 22 2) (peNow (↑e) s)).busy = false) ∧
    (∃ (e : Fin 16) (f : BitVec 24) (s : State), PeReady (↑e) (peWord 8 1 f) s ∧ f.toNat &&& 2359295 = 0 ∧ (Pe.ptr (fld
      f.toNat 18 3) (peNow (↑e) s)).toNat ≤ 57336 ∧ (Pe.ch (fld f.toNat 22 2) (peNow (↑e) s)).busy = true) ∧
    (∃ (e : Fin 16) (f : BitVec 24) (s : State), PeReady (↑e) (peWord 8 2 f) s ∧ f.toNat &&& 1048575 = 0 ∧ ∀ (c : Nat),
      c < 4 → f.getLsbD (20 + c) = true → (Pe.ch c (peNow (↑e) s)).busy = false) ∧
    (∃ (e : Fin 16) (f : BitVec 24) (s : State), PeReady (↑e) (peWord 8 2 f) s ∧ f.toNat &&& 1048575 = 0 ∧ ∃ (c : Nat),
      c < 4 ∧ f.getLsbD (20 + c) = true ∧ (Pe.ch c (peNow (↑e) s)).busy = true) ∧
    (∃ (e : Fin 16) (f : BitVec 24) (s : State), PeReady (↑e) (peWord 8 3 f) s ∧ f.toNat &&& 524287 = 0) ∧
    (∃ (e : Fin 16) (s : State), ∀ (c : Nat), c < 4 → wordsLeft (↑e) c s = 0) ∧
    (∃ (e : Fin 16) (s : State) (b i : Nat), b ≤ 2 ∧ 0 < wordsLeft e 0 s ∧ ∀ c, c < 4 → 0 < wordsLeft e c s → spaceBus
      (readDesc ((pe e s).ch c).desc).dsp = b → i < ((readDesc ((pe e s).ch c).desc).dst + ((pe e s).ch c).done) / 4 ∨
      ((readDesc ((pe e s).ch c).desc).dst + ((pe e s).ch c).done) / 4 + wordsLeft e c s ≤ i) ∧
    (∃ (e : Fin 16) (c : Fin 4) (s : State), (Pe.ch (↑c) (pe (↑e) s)).busy = true ∧ fenced (16 + ↑e) s = false ∧ (Pe.ch
      (↑c) (pe (↑e) s)).desc.length = 8 ∧ (readDesc (Pe.ch (↑c) (pe (↑e) s)).desc).ok = true ∧ (readDesc (Pe.ch (↑c) (pe
      (↑e) s)).desc).dram = false ∧ (readDesc (Pe.ch (↑c) (pe (↑e) s)).desc).stop = true ∧ peState (↑e) s ≠ 2) ∧
    (∃ (e : Fin 16) (c : Fin 4) (s : State), (Pe.ch (↑c) (pe (↑e) s)).busy = true ∧ fenced (16 + ↑e) s = false ∧ (Pe.ch
      (↑c) (pe (↑e) s)).desc.length = 8 ∧ (readDesc (Pe.ch (↑c) (pe (↑e) s)).desc).ok = true ∧ (readDesc (Pe.ch (↑c) (pe
      (↑e) s)).desc).dram = false ∧ (readDesc (Pe.ch (↑c) (pe (↑e) s)).desc).stop = true ∧ (∀ (j : Nat), j < 4 → j ≠ ↑c
      → wordsLeft (↑e) j s = 0) ∧ undefinedNext (↑e) s = false ∧ (readDesc (Pe.ch (↑c) (pe (↑e) s)).desc).ssp = 1 ∧
      (readDesc (Pe.ch (↑c) (pe (↑e) s)).desc).dsp = 2) ∧
    (∃ (e : Fin 16) (c : Fin 4) (s : State), (Pe.ch (↑c) (pe (↑e) s)).busy = false) ∧
    (∃ (e : Fin 16) (c : Fin 4) (s : State), (Pe.ch (↑c) (pe (↑e) s)).error s = 0 ∧ (readDesc (Pe.ch (↑c) (pe (↑e)
      s)).desc).dram = true ∧ (Pe.ch (↑c) (pe (↑e) s)).done < (readDesc (Pe.ch (↑c) (pe (↑e) s)).desc).len) ∧
    (∃ (e : Fin 16) (c : Fin 4) (s : State), (Pe.ch (↑c) (pe (↑e) s)).busy = true ∧ fenced (16 + ↑e) s = false ∧ (Pe.ch
      (↑c) (pe (↑e) s)).error s ≠ 0 ∧ undefinedNext (↑e) s = false) ∧
    (∃ (e : Fin 16) (c : Fin 4) (s : State), (Pe.ch (↑c) (pe (↑e) s)).desc.length ≠ 8 ∨ (readDesc (Pe.ch (↑c) (pe (↑e)
      s)).desc).ok = false) ∧
    (∃ (e : Fin 16) (c : Fin 4) (s : State), (Pe.ch (↑c) (pe (↑e) s)).desc.length = 8 ∧ (readDesc (Pe.ch (↑c) (pe (↑e)
      s)).desc).ok = true ∧ (Pe.ch (↑c) (pe (↑e) s)).done < (readDesc (Pe.ch (↑c) (pe (↑e) s)).desc).len ∧ (readDesc
      (Pe.ch (↑c) (pe (↑e) s)).desc).mappedAt (Pe.ch (↑c) (pe (↑e) s)).done s = false) ∧
    (∃ (e : Fin 16) (c : Fin 4) (s : State), (Pe.ch (↑c) (pe (↑e) s)).desc.length = 8 ∧ (readDesc (Pe.ch (↑c) (pe (↑e)
      s)).desc).ok = true ∧ ((Pe.ch (↑c) (pe (↑e) s)).done < (readDesc (Pe.ch (↑c) (pe (↑e) s)).desc).len → (readDesc
      (Pe.ch (↑c) (pe (↑e) s)).desc).mappedAt (Pe.ch (↑c) (pe (↑e) s)).done s = true)) :=
  ⟨⟨0, ⟨4194304, ⟨s1, ⟨(by delta PeReady PeIssues; decide +kernel), (by decide +kernel)⟩⟩⟩⟩,
   ⟨0, ⟨4194304, ⟨s2, ⟨(by delta PeReady PeIssues; decide +kernel), (by decide +kernel)⟩⟩⟩⟩,
   ⟨0, ⟨0, ⟨s3, ⟨(by delta PeReady PeIssues; decide +kernel), (by decide +kernel)⟩⟩⟩⟩,
   ⟨0, ⟨0, ⟨s4, ⟨(by delta PeReady PeIssues; decide +kernel), (by decide +kernel)⟩⟩⟩⟩,
   ⟨0, ⟨0, ⟨s5, ⟨(by delta PeReady PeIssues; decide +kernel), (by decide +kernel)⟩⟩⟩⟩,
   ⟨0, ⟨15728640, ⟨s6, ⟨(by delta PeReady PeIssues; decide +kernel), (by decide +kernel)⟩⟩⟩⟩,
   ⟨0, ⟨2097152, ⟨s7, ⟨(by delta PeReady PeIssues; decide +kernel), (by decide +kernel)⟩⟩⟩⟩,
   ⟨0, ⟨s8, (by decide +kernel)⟩⟩,
   ⟨0, mv, 1, 0, by decide +kernel⟩,
   ⟨0, ⟨0, ⟨s9, (by decide +kernel)⟩⟩⟩,
   ⟨0, ⟨0, ⟨s10, (by decide +kernel)⟩⟩⟩,
   ⟨0, ⟨0, ⟨s8, (by decide +kernel)⟩⟩⟩,
   ⟨0, ⟨0, ⟨s11, (by decide +kernel)⟩⟩⟩,
   ⟨0, ⟨0, ⟨s12, (by decide +kernel)⟩⟩⟩,
   ⟨0, ⟨0, ⟨s8, (by decide +kernel)⟩⟩⟩,
   ⟨0, ⟨0, ⟨s13, (by decide +kernel)⟩⟩⟩,
   ⟨0, ⟨0, ⟨s14, (by decide +kernel)⟩⟩⟩⟩
end Witness.PacerPushAndDma

namespace Witness.PacerProgramErrors
def s1 : State :=
  { objs := [(K.peState 0, 2)], pes := [(0, { pc := 100, issue := 900, pm := [(100, 1)] })] }
def s2 : State :=
  { objs := [(K.peState 0, 2)], pes := [(0, { pc := 100, issue := 900, pm := [(100, 32505856)] })] }
def s3 : State :=
  { objs := [(K.peState 0, 2)],
    pes := [(0, { pc := 100, branch := some { target := 5, left := 1, reti := false }, issue := 900,
                  pm := [(100, 17825797)] })] }
def s4 : State :=
  { objs := [(K.peState 0, 2)],
    pes := [(0, { pc := 100, sr := 284517, le := #v[101, 101, 101], issue := 900, pm := [(100, 17825797)] })] }
def s5 : State :=
  { objs := [(K.peState 0, 2)], pes := [(0, { pc := 100, issue := 900, pm := [(100, 18350080)] })] }
def s6 : State :=
  { objs := [(K.peState 0, 2)], pes := [(0, { pc := 100, issue := 900, pm := [(100, 67190884)] })] }
def s7 : State :=
  { objs := [(K.peState 0, 2)], pes := [(0, { pc := 100, issue := 900, pm := [(100, 134217737)] })] }
def s8 : State :=
  { objs := [(K.peState 0, 2)],
    pes := [(0, { pc := 100, pt := #v[1000, 57336, 57344, 65535, 1000, 57336, 57344, 65535], issue := 900,
                  pm := [(100, 1077936128)] })] }
def s9 : State :=
  { objs := [(K.peState 0, 2)], pes := [(0, { pc := 100, issue := 900, pm := [(100, 1392705536)] })] }
def s10 : State :=
  { objs := [(K.peState 0, 2)], pes := [(0, { pc := 100, pm := [(101, 2415919104)] })] }
theorem witness_PacerProgramErrors :
    (∃ (e : Fin 16) (f : BitVec 24) (s : State), PeAt (↑e) (peWord 0 0 f) s ∧ f ≠ 0) ∧
    (∃ (e : Fin 16) (f : BitVec 24) (s : State), PeAt (↑e) (peWord 0 1 f) s ∧ f.toNat &&& 507904 = 0 ∧ fld f.toNat 20 4
      = 15) ∧
    (∃ (e : Fin 16) (f : BitVec 24) (s : State), PeAt (↑e) (peWord 0 1 f) s ∧ f.toNat &&& 507904 = 0 ∧ fld f.toNat 20 4
      ≠ 15 ∧ (peNow (↑e) s).branch ≠ none) ∧
    (∃ (e : Fin 16) (f : BitVec 24) (s : State), PeAt (↑e) (peWord 0 1 f) s ∧ f.toNat &&& 507904 = 0 ∧ fld f.toNat 20 4
      ≠ 15 ∧ (peNow (↑e) s).branch = none ∧ (peNow (↑e) s).nearEnd = true) ∧
    (∃ (e : Fin 16) (f : BitVec 24) (s : State), PeAt (↑e) (peWord 0 1 f) s ∧ f.toNat &&& 507904 = 0 ∧ fld f.toNat 20 4
      ≠ 15 ∧ (peNow (↑e) s).branch = none ∧ (peNow (↑e) s).nearEnd = false ∧ f.getLsbD 19 = true ∧ (peNow (↑e) s).llvl =
      0) ∧
    (∃ (e : Fin 16) (f : BitVec 24) (s : State), PeAt (↑e) (peWord 0 4 f) s ∧ f.getLsbD 23 = false ∧ ((peNow (↑e)
      s).llvl = 3 ∨ (BitVec.extractLsb' 0 14 f).toNat < (peNow (↑e) s).pc.toNat + 1)) ∧
    (∃ (e : Fin 16) (f : BitVec 24) (s : State), PeAt (↑e) (peWord 0 8 f) s ∧ f.toNat &&& 8388576 = 0 ∧ f.getLsbD 23 =
      false ∧ 8 < (BitVec.extractLsb' 0 5 f).toInt) ∧
    (∃ (e : Fin 16) (f : BitVec 24) (bus : BitVec 2) (s : State), PeAt (↑e) (peWord 4 (bus.toNat * 4) f) s ∧ bus ≠ 3 ∧
      (fld f.toNat 19 2 ≠ 2 → fld f.toNat 0 16 = 0) ∧ (if bus = 2 then 16384 else 57344) ≤ (Pe.ptr (fld f.toNat 21 3)
      (peNow (↑e) s)).toNat) ∧
    (∃ (e : Fin 16) (f : BitVec 24) (s : State), PeAt (↑e) (peWord 5 3 f) s ∧ f.toNat &&& 65535 = 0 ∧ fld f.toNat 16 2
      = 3) ∧
    (∃ (e : Fin 16) (s : State), PeAt (↑e) (peWord 0 0 0) s ∧ (peNow (↑e) s).branch = none ∧ (peNow (↑e) s).nearEnd =
      false ∧ (peNow (↑e) s).cached = false ∧ (peNow (↑e) s).cacheAt = none ∧ (16384 ≤ (peNow (↑e) s).pc.toNat + 1 ∨
      BitVec.getLsbD (peNow (↑e) s).sr 16 = false ∧ wordDefined (Pe.memWord 2 ((peNow (↑e) s).pc.toNat + 1) (peNow (↑e)
      s)) = false)) :=
  ⟨⟨0, ⟨1, ⟨s1, ⟨(by delta PeAt PeIssues; decide +kernel), (by decide +kernel)⟩⟩⟩⟩,
   ⟨0, ⟨15728640, ⟨s2, ⟨(by delta PeAt PeIssues; decide +kernel), (by decide +kernel)⟩⟩⟩⟩,
   ⟨0, ⟨1048581, ⟨s3, ⟨(by delta PeAt PeIssues; decide +kernel), (by decide +kernel)⟩⟩⟩⟩,
   ⟨0, ⟨1048581, ⟨s4, ⟨(by delta PeAt PeIssues; decide +kernel), (by decide +kernel)⟩⟩⟩⟩,
   ⟨0, ⟨1572864, ⟨s5, ⟨(by delta PeAt PeIssues; decide +kernel), (by decide +kernel)⟩⟩⟩⟩,
   ⟨0, ⟨82020, ⟨s6, ⟨(by delta PeAt PeIssues; decide +kernel), (by decide +kernel)⟩⟩⟩⟩,
   ⟨0, ⟨9, ⟨s7, ⟨(by delta PeAt PeIssues; decide +kernel), (by decide +kernel)⟩⟩⟩⟩,
   ⟨0, ⟨4194304, ⟨0, ⟨s8, ⟨(by delta PeAt PeIssues; decide +kernel), (by decide +kernel)⟩⟩⟩⟩⟩,
   ⟨0, ⟨196608, ⟨s9, ⟨(by delta PeAt PeIssues; decide +kernel), (by decide +kernel)⟩⟩⟩⟩,
   ⟨0, ⟨s10, ⟨(by delta PeAt PeIssues; decide +kernel), (by decide +kernel)⟩⟩⟩⟩
end Witness.PacerProgramErrors

namespace Witness.EngineCommands
def s1 : State :=
  { objs := [(K.ethLink 0, 1), (K.startStep, 8)], sessions := [sess 1] }
def s2 : State :=
  { objs := [(K.ethLink 0, 1), (K.peState 0, 1), (K.startStep, 8)], sessions := [sess 1] }
def s3 : State :=
  { objs := [(K.ethLink 0, 1), (K.peState 0, 3), (K.startStep, 8)], sessions := [sess 1] }
def s4 : State :=
  { objs := [(K.ethLink 0, 1), (K.startStep, 8)],
    sessions := [{ sess 1 with expert := true, memAddr := [(0, 268435456)] }] }
def s5 : State :=
  { objs := [(K.ethLink 0, 1), (K.peState 0, 1), (K.startStep, 8)], sessions := [{ sess 1 with expert := true }] }
def s6 : State :=
  { objs := [(K.ethLink 0, 1), (K.startStep, 8)],
    sessions := [{ sess 1 with expert := true, memAddr := [(0, 268492799)] }] }
def s7 : State :=
  { objs := [(K.ethLink 0, 1), (K.startStep, 8)], sessions := [{ sess 1 with memAddr := [(0, 536870912)] }] }
theorem witness_EngineCommands :
    (∃ (e : Fin 16), HostMeets opWrite (K.peCmd ↑e) [1] 0 false fun _ s => peState (↑e) s = 0) ∧
    (∃ (e : Fin 16), HostMeets opWrite (K.peCmd ↑e) [2] 0 false fun _ s => peState (↑e) s = 1) ∧
    (∃ (e : Fin 16), HostMeets opWrite (K.peCmd ↑e) [3] 0 false fun _ s => peState (↑e) s = 3) ∧
    (∃ (e : Fin 16), HostMeets opWrite (K.peCmd ↑e) [1] 0 false fun _ s => peState (↑e) s ≠ 0) ∧
    (∃ (e : Fin 16), HostMeets opWrite (K.peCmd ↑e) [2] 0 false fun _ s => peState (↑e) s ≠ 1) ∧
    (∃ (e : Fin 16), HostMeets opWrite (K.peCmd ↑e) [3] 0 false fun _ s => peState (↑e) s ≠ 3) ∧
    (∃ (e : Fin 16) (p : Bytes), List.length p % 4 = 0 ∧ 4 ≤ List.length p ∧ List.length p ≤ 4096 ∧ HostMeets opWrite
      (K.peMemData ↑e) p 1 true fun x s => Session.peAddr (↑e) x / 2 ^ 28 = 1 ∧ Session.peAddr (↑e) x % 65536 +
      List.length p / 4 ≤ 57344 ∧ undefinedNext (↑e) (dmaMoves (↑e) s) = false) ∧
    (∃ (e : Fin 16) (p : Bytes), List.length p % 4 = 0 ∧ 4 ≤ List.length p ∧ List.length p ≤ 4096 ∧ HostMeets opWrite
      (K.peMemData ↑e) p 1 true fun x s => Session.peAddr (↑e) x / 2 ^ 28 = 0 ∧ peState (↑e) s ≠ 0) ∧
    (∃ (e : Fin 16) (p : Bytes), List.length p % 4 = 0 ∧ 4 ≤ List.length p ∧ List.length p ≤ 4096 ∧ HostMeets opWrite
      (K.peMemData ↑e) p 1 true fun x _ => Session.peAddr (↑e) x / 2 ^ 28 = 1 ∧ 57344 < Session.peAddr (↑e) x % 65536 +
      List.length p / 4) ∧
    (∃ (e : Fin 16), HostMeets opRead (K.peMemData ↑e) [] 0 false fun x s => Session.peAddr (↑e) x / 2 ^ 28 = 2 ∧
      Session.peAddr (↑e) x % 65536 < 57344 ∧ undefinedNext (↑e) (dmaMoves (↑e) s) = false) :=
  ⟨⟨0, (hostMeets s1 (by decide +kernel) (by decide +kernel))⟩,
   ⟨0, (hostMeets s2 (by decide +kernel) (by decide +kernel))⟩,
   ⟨0, (hostMeets s3 (by decide +kernel) (by decide +kernel))⟩,
   ⟨0, (hostMeets s2 (by decide +kernel) (by decide +kernel))⟩,
   ⟨0, (hostMeets s1 (by decide +kernel) (by decide +kernel))⟩,
   ⟨0, (hostMeets s1 (by decide +kernel) (by decide +kernel))⟩,
   ⟨0, ⟨[1, 2, 3, 4], ⟨(by decide +kernel), ⟨(by decide +kernel), ⟨(by decide +kernel), (hostMeets s4
     (by decide +kernel) (by decide +kernel))⟩⟩⟩⟩⟩,
   ⟨0, ⟨[1, 2, 3, 4], ⟨(by decide +kernel), ⟨(by decide +kernel), ⟨(by decide +kernel), (hostMeets s5
     (by decide +kernel) (by decide +kernel))⟩⟩⟩⟩⟩,
   ⟨0, ⟨[1, 0, 0, 0, 9, 9, 9, 9], ⟨(by decide +kernel), ⟨(by decide +kernel), ⟨(by decide +kernel), (hostMeets s6
     (by decide +kernel) (by decide +kernel))⟩⟩⟩⟩⟩,
   ⟨0, (hostMeets s7 (by decide +kernel) (by decide +kernel))⟩⟩
end Witness.EngineCommands

namespace Witness.EnginesRunTasks
def s1 : State :=
  { objs := [(K.peState 0, 1)], tcbs := [(9, { state := 1, mask := 3 })] }
def s2 : State :=
  { objs := [(K.peState 0, 2)], pes := [(0, { sr := 805645778, req := true })] }
def s3 : State :=
  { objs := [(K.peState 0, 2)], pes := [(0, { sr := 805645778, dmaEvt := true })] }
def s4 : State :=
  { }
def s5 : State :=
  { objs := [(K.peState 0, 2), (K.engTask 0, 9)], pes := [(0, { tended := some 0 })], tcbs := [(9, { state := 2 })] }
def s6 : State :=
  { objs := [(K.peState 0, 2), (K.engTask 0, 9)], pes := [(0, { tended := some 255 })],
    tcbs := [(9, { state := 2 })] }
def s7 : State :=
  { objs := [(K.peState 0, 1)],
    tcbs := [(9, { state := 1, pri := 5, mask := 3, arg := 77, waitMax := 3, since := 4000 })] }
def v8 : Tcb :=
  { state := 1, pri := 5, mask := 3, arg := 77, waitMax := 3, since := 4000 }
theorem witness_EnginesRunTasks :
    (∃ (e : Fin 16) (s : State) (t : Nat) (decided : Nat), eligible (↑e) s = true ∧ dispatchee (↑e) s = some (t,
      decided) ∧ ((pe (↑e) s).late = [] ∧ (pe (↑e) s).stores = [] ∧ (pe (↑e) s).cached = false ∧ wordDefined (Pe.memWord
      2 (pe (↑e) s).ivec.toNat (pe (↑e) s)) = true) ∧ ∀ (k : Nat), k < 16 → rd (K.engPreemptPending k) s ≠ t) ∧
    (∃ (e : Fin 16) (s : State), acceptsNow (↑e) s = true ∧ (pe (↑e) s).req = true ∧ (pe (↑e) s).dmaEvt = false ∧ (pe
      (↑e) s).late = [] ∧ (pe (↑e) s).stores = [] ∧ (pe (↑e) s).cached = false ∧ wordDefined (Pe.memWord 2 (pe (↑e)
      s).ivec.toNat (pe (↑e) s)) = true) ∧
    (∃ (e : Fin 16) (s : State), acceptsNow (↑e) s = true ∧ (pe (↑e) s).req = false ∧ (pe (↑e) s).dmaEvt = true ∧ (pe
      (↑e) s).late = [] ∧ (pe (↑e) s).stores = [] ∧ (pe (↑e) s).cached = false ∧ wordDefined (Pe.memWord 2 (pe (↑e)
      s).ivec.toNat (pe (↑e) s)) = true) ∧
    (∃ (e : Fin 16) (s : State), acceptsNow (↑e) s = false) ∧
    (∃ (e : Fin 16) (s : State) (code : Nat), (pe (↑e) s).tended = some code ∧ peState (↑e) s = 2 ∧ (pe (↑e) s).buffer
      = [] ∧ (∀ (d : Dma), d ∈ (pe (↑e) s).dma.toList → d.busy = false) ∧ (pe (↑e) s).late = [] ∧ (pe (↑e) s).stores =
      [] ∧ taskOf (↑e) s < 4096 ∧ (tcb (taskOf (↑e) s) s).stopReq = false ∧ (tcb (taskOf (↑e) s) s).state = 2 ∧ code ≠
      255 ∧ 4096 ≤ (tcb (taskOf (↑e) s) s).next ∧ (tcb (taskOf (↑e) s) s).rpt = false) ∧
    (∃ (e : Fin 16) (s : State) (code : Nat), (pe (↑e) s).tended = some code ∧ peState (↑e) s = 2 ∧ (pe (↑e) s).buffer
      = [] ∧ (∀ (d : Dma), d ∈ (pe (↑e) s).dma.toList → d.busy = false) ∧ (pe (↑e) s).late = [] ∧ (pe (↑e) s).stores =
      [] ∧ taskOf (↑e) s < 4096 ∧ (tcb (taskOf (↑e) s) s).stopReq = false ∧ (tcb (taskOf (↑e) s) s).state = 2 ∧ code =
      255) ∧
    (∃ (e : Fin 16) (s : State), (pe (↑e) s).tended = none) ∧
    (∃ (t : Nat) (c : Tcb) (e : Nat) (s : State), s.tcbs = [(t, c)] ∧ c.state = 1 ∧ e < 20 ∧ c.mask.testBit e = true ∧
      eligible e s = true ∧ ∀ (f : Nat), f < 20 → c.mask.testBit f = true → eligible f s = true → max c.since (Tab.get 0
      e s.starter.elig) < max c.since (Tab.get 0 f s.starter.elig) ∨ max c.since (Tab.get 0 e s.starter.elig) = max
      c.since (Tab.get 0 f s.starter.elig) ∧ e ≤ f) ∧
    (∃ (t : Nat) (c : Tcb) (e : Nat) (s : State), s.tcbs = [(t, c)] ∧ c.state = 1 ∧ e < 20 ∧ c.mask.testBit e = true ∧
      eligible e s = true ∧ (∀ (f : Nat), f < 20 → c.mask.testBit f = true → eligible f s = true → max c.since (Tab.get
      0 e s.starter.elig) < max c.since (Tab.get 0 f s.starter.elig) ∨ max c.since (Tab.get 0 e s.starter.elig) = max
      c.since (Tab.get 0 f s.starter.elig) ∧ e ≤ f) ∧ ∃ (f : Nat), f ≠ e) :=
  ⟨⟨0, ⟨s1, ⟨9, ⟨0, (by decide +kernel)⟩⟩⟩⟩,
   ⟨0, ⟨s2, (by decide +kernel)⟩⟩,
   ⟨0, ⟨s3, (by decide +kernel)⟩⟩,
   ⟨0, ⟨s4, (by decide +kernel)⟩⟩,
   ⟨0, ⟨s5, (by decide +kernel)⟩⟩,
   ⟨0, ⟨s6, (by decide +kernel)⟩⟩,
   ⟨0, ⟨s4, (by decide +kernel)⟩⟩,
   ⟨9, ⟨v8, ⟨0, ⟨s7, (by decide +kernel)⟩⟩⟩⟩,
   ⟨9, ⟨v8, ⟨0, ⟨s7, ⟨(by decide +kernel), ⟨(by decide +kernel), ⟨(by decide +kernel), ⟨(by decide +kernel),
     ⟨(by decide +kernel), ⟨(by decide +kernel), ⟨1, (by decide +kernel)⟩⟩⟩⟩⟩⟩⟩⟩⟩⟩⟩⟩
end Witness.EnginesRunTasks

namespace Witness.TaskCommands
def s1 : State :=
  { objs := [(K.ethLink 0, 1), (K.startStep, 8)], sessions := [sess 1] }
def s2 : State :=
  { objs := [(K.ethLink 0, 1), (K.startStep, 8)], tcbs := [(9, { mask := 3 })],
    sessions := [{ sess 1 with tcbPtr := 9 }] }
def s3 : State :=
  { objs := [(K.ethLink 0, 1), (K.startStep, 8)], tcbs := [(9, { mask := 3, delay := 8 })],
    sessions := [{ sess 1 with tcbPtr := 9 }] }
def s4 : State :=
  { objs := [(K.ethLink 0, 1), (K.startStep, 8)], tcbs := [(9, { state := 3, mask := 3 })],
    sessions := [{ sess 1 with tcbPtr := 9 }] }
def s5 : State :=
  { objs := [(K.ethLink 0, 1), (K.startStep, 8)], tcbs := [(9, { state := 2, mask := 3 })],
    sessions := [{ sess 1 with tcbPtr := 9 }] }
def s6 : State :=
  { objs := [(K.ethLink 0, 1), (K.startStep, 8)], tcbs := [(9, { state := 2, mask := 3, rpt := true })],
    sessions := [{ sess 1 with tcbPtr := 9 }] }
def s7 : State :=
  { objs := [(K.ethLink 0, 1), (K.startStep, 8)], tcbs := [(9, { state := 1 })],
    sessions := [{ sess 1 with tcbPtr := 9 }] }
def s8 : State :=
  { objs := [(K.ethLink 0, 1), (K.startStep, 8)], tcbs := [(9, { state := 2 })],
    sessions := [{ sess 1 with tcbPtr := 9 }] }
def s9 : State :=
  { objs := [(K.ethLink 0, 1), (K.startStep, 8)], tcbs := [(9, { state := 3 })],
    sessions := [{ sess 1 with tcbPtr := 9 }] }
def s10 : State :=
  { objs := [(K.ethLink 0, 1), (K.startStep, 8)], tcbs := [(9, { state := 4 })],
    sessions := [{ sess 1 with tcbPtr := 9 }] }
theorem witness_TaskCommands :
    (HostMeets opWrite K.tcbCmd [1] 0 false fun x s => x.tcbPtr < 4096 ∧ ((tcb x.tcbPtr s).mask = 0 ∨ (tcb x.tcbPtr
      s).state = 4 ∨ (tcb x.tcbPtr s).state = 1) ∧ ∀ (k : Nat), k < 16 → rd (K.engPreemptPending k) s ≠ x.tcbPtr) ∧
    (HostMeets opWrite K.tcbCmd [1] 0 false fun x s => x.tcbPtr < 4096 ∧ ((tcb x.tcbPtr s).mask ≠ 0 ∧ (tcb x.tcbPtr
      s).state = 0 ∧ (tcb x.tcbPtr s).delay = 0) ∧ ∀ (k : Nat), k < 16 → rd (K.engPreemptPending k) s ≠ x.tcbPtr) ∧
    (HostMeets opWrite K.tcbCmd [1] 0 false fun x s => x.tcbPtr < 4096 ∧ ((tcb x.tcbPtr s).mask ≠ 0 ∧ (tcb x.tcbPtr
      s).state = 0 ∧ (tcb x.tcbPtr s).delay ≠ 0) ∧ ∀ (k : Nat), k < 16 → rd (K.engPreemptPending k) s ≠ x.tcbPtr) ∧
    (HostMeets opWrite K.tcbCmd [1] 0 false fun x s => x.tcbPtr < 4096 ∧ ((tcb x.tcbPtr s).mask ≠ 0 ∧ (tcb x.tcbPtr
      s).state = 3) ∧ ∀ (k : Nat), k < 16 → rd (K.engPreemptPending k) s ≠ x.tcbPtr) ∧
    (HostMeets opWrite K.tcbCmd [1] 0 false fun x s => x.tcbPtr < 4096 ∧ ((tcb x.tcbPtr s).mask ≠ 0 ∧ (tcb x.tcbPtr
      s).state = 2 ∧ (tcb x.tcbPtr s).rpt = false) ∧ ∀ (k : Nat), k < 16 → rd (K.engPreemptPending k) s ≠ x.tcbPtr) ∧
    (HostMeets opWrite K.tcbCmd [1] 0 false fun x s => x.tcbPtr < 4096 ∧ ((tcb x.tcbPtr s).mask ≠ 0 ∧ (tcb x.tcbPtr
      s).state = 2 ∧ (tcb x.tcbPtr s).rpt = true) ∧ ∀ (k : Nat), k < 16 → rd (K.engPreemptPending k) s ≠ x.tcbPtr) ∧
    (HostMeets opWrite K.tcbCmd [2] 0 false fun x s => x.tcbPtr < 4096 ∧ ((tcb x.tcbPtr s).state = 1 ∨ (tcb x.tcbPtr
      s).state = 3) ∧ ∀ (k : Nat), k < 16 → rd (K.engPreemptPending k) s ≠ x.tcbPtr) ∧
    (HostMeets opWrite K.tcbCmd [2] 0 false fun x s => x.tcbPtr < 4096 ∧ (tcb x.tcbPtr s).state = 2 ∧ ∀ (k : Nat), k <
      16 → rd (K.engPreemptPending k) s ≠ x.tcbPtr) ∧
    (HostMeets opWrite K.tcbCmd [2] 0 false fun x s => x.tcbPtr < 4096 ∧ ((tcb x.tcbPtr s).state = 0 ∨ (tcb x.tcbPtr
      s).state = 4) ∧ ∀ (k : Nat), k < 16 → rd (K.engPreemptPending k) s ≠ x.tcbPtr) ∧
    (HostMeets opWrite K.tcbCmd [3] 0 false fun x s => x.tcbPtr < 4096 ∧ ((tcb x.tcbPtr s).state ≠ 2 ∧ ((tcb x.tcbPtr
      s).state = 3 → 0 < (tcb x.tcbPtr s).left)) ∧ ∀ (k : Nat), k < 16 → rd (K.engPreemptPending k) s ≠ x.tcbPtr) ∧
    (HostMeets opWrite K.tcbCmd [3] 0 false fun x s => x.tcbPtr < 4096 ∧ ((tcb x.tcbPtr s).state = 3 ∧ (tcb x.tcbPtr
      s).left = 0) ∧ ∀ (k : Nat), k < 16 → rd (K.engPreemptPending k) s ≠ x.tcbPtr) ∧
    (HostMeets opWrite K.tcbCmd [3] 0 false fun x s => x.tcbPtr < 4096 ∧ (tcb x.tcbPtr s).state = 2 ∧ ∀ (k : Nat), k <
      16 → rd (K.engPreemptPending k) s ≠ x.tcbPtr) ∧
    (HostMeets opWrite K.tcbCmd [4] 0 false fun x s => x.tcbPtr < 4096 ∧ (tcb x.tcbPtr s).state = 4 ∧ ∀ (k : Nat), k <
      16 → rd (K.engPreemptPending k) s ≠ x.tcbPtr) ∧
    (HostMeets opWrite K.tcbCmd [4] 0 false fun x s => x.tcbPtr < 4096 ∧ (tcb x.tcbPtr s).state ≠ 4 ∧ ∀ (k : Nat), k <
      16 → rd (K.engPreemptPending k) s ≠ x.tcbPtr) :=
  ⟨hostMeets s1 (by decide +kernel) (by decide +kernel),
   hostMeets s2 (by decide +kernel) (by decide +kernel),
   hostMeets s3 (by decide +kernel) (by decide +kernel),
   hostMeets s4 (by decide +kernel) (by decide +kernel),
   hostMeets s5 (by decide +kernel) (by decide +kernel),
   hostMeets s6 (by decide +kernel) (by decide +kernel),
   hostMeets s7 (by decide +kernel) (by decide +kernel),
   hostMeets s8 (by decide +kernel) (by decide +kernel),
   hostMeets s1 (by decide +kernel) (by decide +kernel),
   hostMeets s1 (by decide +kernel) (by decide +kernel),
   hostMeets s9 (by decide +kernel) (by decide +kernel),
   hostMeets s8 (by decide +kernel) (by decide +kernel),
   hostMeets s10 (by decide +kernel) (by decide +kernel),
   hostMeets s1 (by decide +kernel) (by decide +kernel)⟩
end Witness.TaskCommands

namespace Witness.RequestsServicesAndTicks
def s1 : State :=
  { objs := [(K.peState 0, 2), (K.engTask 0, 4)],
    tcbs := [(9, { state := 1, pri := 5, mask := 1, arg := 4294967295, since := 4000 })] }
def v2 : Tcb :=
  { state := 1, pri := 5, mask := 1, arg := 4294967295, since := 4000 }
def s3 : State :=
  {}
def s4 : State :=
  { objs := [(K.engTask 16, 9)], tcbs := [(9, { service := 1 })] }
def s5 : State :=
  { objs := [(K.engTask 16, 9)], tcbs := [(9, { service := 2 })] }
def s6 : State :=
  { objs := [(K.engTask 16, 9)] }
def s7 : State :=
  { starter := { phase := 1200 } }
def s8 : State :=
  { tcbs := [(3, { state := 3 })] }
def s9 : State :=
  { tcbs := [(3, { mask := 1, sched := true })] }
def s10 : State :=
  { time := { sys := 1000000 } }
theorem witness_RequestsServicesAndTicks :
    (∃ (e : Fin 16) (t : Nat) (c : Tcb) (s : State), preemptor (↑e) s = some (t, c)) ∧
    (∃ (e : Fin 16) (s : State), preemptor (↑e) s = none) ∧
    (∃ (k : Fin 4) (s : State), taskOf (16 + ↑k) s < 4096 ∧ (tcb (taskOf (16 + ↑k) s) s).next = 65535 ∧ (tcb (taskOf
      (16 + ↑k) s) s).rpt = false ∧ (tcb (taskOf (16 + ↑k) s) s).stopReq = false ∧ (tcb (taskOf (16 + ↑k) s) s).service
      = 1) ∧
    (∃ (k : Fin 4) (s : State), taskOf (16 + ↑k) s < 4096 ∧ (tcb (taskOf (16 + ↑k) s) s).next = 65535 ∧ (tcb (taskOf
      (16 + ↑k) s) s).rpt = false ∧ (tcb (taskOf (16 + ↑k) s) s).stopReq = false ∧ (tcb (taskOf (16 + ↑k) s) s).service
      = 2 ∧ ∀ (x : Session), x ∈ s.sessions → x.subs = []) ∧
    (∃ (k : Fin 4) (s : State), taskOf (16 + ↑k) s < 4096 ∧ (tcb (taskOf (16 + ↑k) s) s).next = 65535 ∧ (tcb (taskOf
      (16 + ↑k) s) s).rpt = false ∧ (tcb (taskOf (16 + ↑k) s) s).stopReq = false ∧ (tcb (taskOf (16 + ↑k) s) s).service
      ≠ 1) ∧
    (∃ (k : Fin 4) (s : State), taskOf (16 + ↑k) s < 4096 ∧ (tcb (taskOf (16 + ↑k) s) s).next = 65535 ∧ (tcb (taskOf
      (16 + ↑k) s) s).rpt = false ∧ (tcb (taskOf (16 + ↑k) s) s).stopReq = false ∧ (tcb (taskOf (16 + ↑k) s) s).service
      ≠ 2) ∧
    (∃ (s : State), s.starter.tickNs ≤ s.starter.phase ∧ anyExpiry s = false) ∧
    (∃ (s : State), s.starter.phase < s.starter.tickNs) ∧
    (∃ (s : State) (task : BitVec 12), firstExpiry s = some task.toNat ∧ (tcb task.toNat s).state = 3 ∧ (tcb task.toNat
      s).left = 0) ∧
    (∃ (s : State) (task : BitVec 12), firstExpiry s = some task.toNat ∧ (tcb task.toNat s).sched = true ∧ (tcb
      task.toNat s).toGo = 0 ∧ (tcb task.toNat s).mask ≠ 0 ∧ (tcb task.toNat s).state = 0) ∧
    (∃ (s : State), firstExpiry s = none) ∧
    (∃ (s : State), s.starter.window + 1000000 ≤ s.time.sys) ∧
    (∃ (s : State), s.time.sys < s.starter.window + 1000000) :=
  ⟨⟨0, ⟨9, ⟨v2, ⟨s1, (by decide +kernel)⟩⟩⟩⟩,
   ⟨1, ⟨s3, (by decide +kernel)⟩⟩,
   ⟨0, ⟨s4, (by decide +kernel)⟩⟩,
   ⟨0, ⟨s5, (by decide +kernel)⟩⟩,
   ⟨0, ⟨s6, (by decide +kernel)⟩⟩,
   ⟨0, ⟨s6, (by decide +kernel)⟩⟩,
   ⟨s7, (by decide +kernel)⟩,
   ⟨s3, (by decide +kernel)⟩,
   ⟨s8, (by decide +kernel)⟩,
   ⟨s9, (by decide +kernel)⟩,
   ⟨s3, (by decide +kernel)⟩,
   ⟨s10, (by decide +kernel)⟩,
   ⟨s3, (by decide +kernel)⟩⟩
end Witness.RequestsServicesAndTicks

namespace Witness.ResultQueues
/-- One record of a stream waits in the buffer of engine 0. -/
def rq (n streams : Nat) (q : List (Nat × RQueue)) : State :=
  { objs := [(K.rqStreams, streams), (K.dramReady, 1), (K.dramMappedBytes, 2 ^ 37), (K.rqSpillSize, 2 ^ 32)], queues := q
    pes := [(0, { buffer := [(n, List.replicate 8 1)] })] }
def hs (q : List (Nat × RQueue)) : State :=
  { objs := [(K.ethLink 0, 1), (K.startStep, 8)], queues := q, sessions := [{ sess 1 with qPtr := 5 }] }
/-- The one item of queue 5 is in DRAM. -/
def hd : State := { hs [(5, { items := [{ words := [1], slot := some 0 }] })] with
  objs := [(K.ethLink 0, 1), (K.startStep, 8), (K.dramReady, 1)] }
theorem witness_ResultQueues :
    (∃ (e : Fin 16) (s : State), nextSource s ≠ some ↑e) ∧
    (∃ (e : Fin 16) (q : Nat) (w : List Word) (rest : List (Nat × List Word)) (s : State), nextSource s = some ↑e ∧ (pe
      (↑e) s).buffer = (q, w) :: rest ∧ ((q % 4096 < rd K.rqStreams s ∧ q < 262144 ∧ BitVec.toNat (w.headD 0) / 65536 ≠
      65535) ∧ ((rqueue q s).items = [] ∧ rd K.rqStreams s ≤ 512 ∨ (rqueue q s).items ≠ [] ∧ 0 < cacheFree s)) ∧
      ((rqueue q s).items.length ≠ (rqueue q s).level ∨ (rqueue q s).level = 4294967295)) ∧
    (∃ (e : Fin 16) (q : Nat) (w : List Word) (rest : List (Nat × List Word)) (s : State), nextSource s = some ↑e ∧ (pe
      (↑e) s).buffer = (q, w) :: rest ∧ ((q % 4096 < rd K.rqStreams s ∧ q < 262144 ∧ BitVec.toNat (w.headD 0) / 65536 ≠
      65535) ∧ dramSlots s = true ∧ ((rqueue q s).items = [] ∧ 512 < rd K.rqStreams s ∨ (rqueue q s).items ≠ [] ∧
      cacheFree s = 0 ∧ 0 < spillFree s)) ∧ ((rqueue q s).items.length ≠ (rqueue q s).level ∨ (rqueue q s).level =
      4294967295)) ∧
    (∃ (e : Fin 16) (q : Nat) (w : List Word) (rest : List (Nat × List Word)) (s : State), nextSource s = some ↑e ∧ (pe
      (↑e) s).buffer = (q, w) :: rest ∧ ((q % 4096 < rd K.rqStreams s ∧ q < 262144 ∧ BitVec.toNat (w.headD 0) / 65536 ≠
      65535) ∧ ((rqueue q s).items = [] ∧ rd K.rqStreams s ≤ 512 ∨ (rqueue q s).items ≠ [] ∧ 0 < cacheFree s)) ∧ (rqueue
      q s).items.length = (rqueue q s).level ∧ (rqueue q s).level ≠ 4294967295 ∧ ∀ (x : Session), x ∈ s.sessions →
      x.subs = []) ∧
    (∃ (e : Fin 16) (q : Nat) (w : List Word) (rest : List (Nat × List Word)) (s : State), nextSource s = some ↑e ∧ (pe
      (↑e) s).buffer = (q, w) :: rest ∧ (q % 4096 < rd K.rqStreams s ∧ q < 262144 ∧ BitVec.toNat (w.headD 0) / 65536 ≠
      65535) ∧ ((rqueue q s).items = [] ∧ 512 < rd K.rqStreams s ∧ dramSlots s = false ∨ (rqueue q s).items ≠ [] ∧
      cacheFree s = 0 ∧ (spillFree s = 0 ∨ dramSlots s = false))) ∧
    (∃ (e : Fin 16) (q : Nat) (w : List Word) (rest : List (Nat × List Word)) (s : State), nextSource s = some ↑e ∧ (pe
      (↑e) s).buffer = (q, w) :: rest ∧ ¬(q % 4096 < rd K.rqStreams s ∧ q < 262144 ∧ BitVec.toNat (w.headD 0) / 65536 ≠
      65535)) ∧
    (HostMeets opRead K.qRead [] 0 false fun x s => (rqueue x.qPtr s).items ≠ [] ∧ (∀ (i : Item), i ∈ (rqueue x.qPtr
      s).items → i.slot = none) ∧ 1 ≤ min x.readMax (answerMax x s / 32)) ∧
    (HostMeets opRead K.qRead [] 0 false fun x s => (rqueue x.qPtr s).items = []) ∧
    (∃ (delivered : Nat), HostMeets opRead K.qRead [] 0 false fun x s => (∃ (w : List Word) (j : Nat), (rqueue x.qPtr
      s).items = [{ words := w, slot := some j }]) ∧ rd K.dramReady s = 1 ∧ 0 < delivered ∧ 1 ≤ min x.readMax (answerMax
      x s / 32) ∧ ∀ (y : Session), y ∈ s.sessions → y.subs = []) ∧
    (HostMeets opRead K.qRead [] 0 false fun x s => (rqueue x.qPtr s).items ≠ [] ∧ (∀ (i : Item), i ∈ (rqueue x.qPtr
      s).items → i.inDram = true) ∧ 1 ≤ min x.readMax (answerMax x s / 32)) ∧
    (HostMeets opWrite K.qClear [1] 0 false fun _ _ => True) ∧
    (HostMeets opWrite K.qClear [0] 0 false fun _ _ => True) ∧
    (∃ (p : Bytes), List.length p = 8 ∧ HostMeets opWrite K.rqHitSites p 0 false fun _ _ => True) ∧
    (∃ (p : Bytes), List.length p = 512 ∧ HostMeets opWrite K.qHitMap p 0 false fun _ _ => True) :=
  ⟨⟨1, rq 5 512 [], by decide +kernel⟩,
   ⟨0, 5, List.replicate 8 1, [], rq 5 512 [], by decide +kernel⟩,
   ⟨0, 5, List.replicate 8 1, [], rq 5 4096 [], by decide +kernel⟩,
   ⟨0, 5, List.replicate 8 1, [], rq 5 512 [(5, { level := 0 })], by decide +kernel⟩,
   ⟨0, 5, List.replicate 8 1, [], { rq 5 4096 [] with rqm := { noSpill := true } }, by decide +kernel⟩,
   ⟨0, 262144, List.replicate 8 1, [], rq 262144 512 [], by decide +kernel⟩,
   hostMeets (hs [(5, { items := [{ words := [1] }] })]) (by decide +kernel) (by decide +kernel),
   hostMeets (hs []) (by decide +kernel) (by decide +kernel),
   ⟨1, hostMeets hd (by decide +kernel) ⟨⟨_, _, rfl⟩,
     by decide +kernel, by decide +kernel, by decide +kernel, by decide +kernel⟩⟩,
   hostMeets (hs [(5, { items := [{ words := [1], slot := some 0 }] })]) (by decide +kernel) (by decide +kernel),
   hostMeets (hs []) (by decide +kernel) trivial,
   hostMeets (hs []) (by decide +kernel) trivial,
   ⟨List.replicate 8 0, by decide +kernel, hostMeets (hs []) (by decide +kernel) trivial⟩,
   ⟨List.replicate 512 0, by decide +kernel, hostMeets (hs []) (by decide +kernel) trivial⟩⟩
end Witness.ResultQueues

namespace Witness.NetworkTime
def s1 : State :=
  { flt := { active := [1] } }
def s2 : State :=
  {}
def s3 : State :=
  { time := { newSel := some 1 } }
def s4 : State :=
  { objs := [(K.tdEnable 0, 0), (K.tdEnable 1, 0)], time := { fenceSw := true } }
def s5 : State :=
  { objs := [(K.timeHoldover, 1), (K.tdEnable 0, 0), (K.tdEnable 1, 0)] }
def s6 : State :=
  { objs := [(K.ethLink 0, 1), (K.tdServo 0, 0), (K.startStep, 8)], sessions := [{ sess 1 with expert := true }] }
def s7 : State :=
  { objs := [(K.ethLink 0, 1), (K.startStep, 8)], sessions := [{ sess 1 with expert := true }] }
def s8 : State :=
  { objs := [(K.ethLink 0, 1), (K.tdServo 0, 0), (K.startStep, 8)], sessions := [sess 1] }
def s9 : State :=
  { objs := [(K.ethLink 0, 1), (K.startStep, 8)], sessions := [sess 1] }
def s10 : State :=
  { objs := [(K.ethLink 0, 1), (K.tdEnable 0, 0), (K.startStep, 8)], sessions := [sess 1] }
theorem witness_NetworkTime :
    (∃ (s : State), s.flt.active.contains 1 = true) ∧
    (∃ (s : State), s.flt.active.contains 1 = false ∧ ((∀ (i : Nat), i < 16 → (timer i s).cmp = none ∧ (timer i
      s).period = none ∧ (timer i s).mode = none) ∧ ∀ (e : Nat), e < 16 → undefinedNext e s = false) ∧ s.time.sel ≤ 1 ∧
      rd K.timeHoldover s = 0 ∧ s.time.fenceSw = false ∧ switchDue s = none) ∧
    (∃ (s : State), s.flt.active.contains 1 = false ∧ ((∀ (i : Nat), i < 16 → (timer i s).cmp = none ∧ (timer i
      s).period = none ∧ (timer i s).mode = none) ∧ ∀ (e : Nat), e < 16 → undefinedNext e s = false) ∧ s.time.sel ≤ 1 ∧
      rd K.timeHoldover s = 0 ∧ ∃ (d : Nat), switchDue s = some d ∧ d ≤ 1) ∧
    (∃ (s : State), s.flt.active.contains 1 = false ∧ ((∀ (i : Nat), i < 16 → (timer i s).cmp = none ∧ (timer i
      s).period = none ∧ (timer i s).mode = none) ∧ ∀ (e : Nat), e < 16 → undefinedNext e s = false) ∧ s.time.sel ≤ 1 ∧
      rd K.timeHoldover s = 0 ∧ s.time.fenceSw = true ∧ switchDue s = none) ∧
    (∃ (s : State), s.flt.active.contains 1 = false ∧ ((∀ (i : Nat), i < 16 → (timer i s).cmp = none ∧ (timer i
      s).period = none ∧ (timer i s).mode = none) ∧ ∀ (e : Nat), e < 16 → undefinedNext e s = false) ∧ rd K.timeHoldover
      s = 1 ∧ switchDue s = none ∧ ∀ (d : Nat), d ≤ 1 → ¬((tdStage d s).moved = true ∨ (tdStage d s).set.isSome = true)) ∧
    (∃ (d : Fin 2) (p : Bytes), List.length p = 8 ∧ HostMeets opWrite (K.tdInc ↑d) p 1 true fun _ s => (rd (K.tdServo
      ↑d) s = 0 ∧ fenced (40 + ↑d) s = false) ∧ 17162689315 ≤ leNat p ∧ leNat p ≤ 17197049053) ∧
    (∃ (d : Fin 2) (p : Bytes), List.length p = 8 ∧ HostMeets opWrite (K.tdInc ↑d) p 1 true fun _ _ => leNat p <
      17162689315 ∨ 17197049053 < leNat p) ∧
    (∃ (d : Fin 2) (p : Bytes), List.length p = 8 ∧ HostMeets opWrite (K.tdInc ↑d) p 1 true fun _ s => ¬(rd (K.tdServo
      ↑d) s = 0 ∧ fenced (40 + ↑d) s = false) ∧ 17162689315 ≤ leNat p ∧ leNat p ≤ 17197049053) ∧
    (∃ (d : Fin 2) (p : Bytes), List.length p = 8 ∧ HostMeets opWrite (K.tdOffset ↑d) p 1 true fun _ s => rd (K.tdServo
      ↑d) s = 0 ∧ fenced (40 + ↑d) s = false) ∧
    (∃ (d : Fin 2) (p : Bytes), List.length p = 8 ∧ HostMeets opWrite (K.tdOffsetFs ↑d) p 1 false fun _ s => rd
      (K.tdServo ↑d) s = 0 ∧ fenced (40 + ↑d) s = false) ∧
    (∃ (d : Fin 2) (p : Bytes), List.length p = 8 ∧ HostMeets opWrite (K.tdOffset ↑d) p 1 true fun _ s => ¬(rd
      (K.tdServo ↑d) s = 0 ∧ fenced (40 + ↑d) s = false)) ∧
    (∃ (d : Fin 2) (p : Bytes), List.length p = 4 ∧ HostMeets opWrite (K.tdIncPpb ↑d) p 1 false fun _ s => (rd
      (K.tdServo ↑d) s = 0 ∧ fenced (40 + ↑d) s = false) ∧ -1000000 ≤ toSigned 32 (leNat p) ∧ toSigned 32 (leNat p) ≤
      1000000) ∧
    (∃ (d : Fin 2) (p : Bytes), List.length p = 12 ∧ HostMeets opWrite (K.tdSet ↑d) p 1 false fun _ s => rd (K.tdServo
      ↑d) s = 0 ∧ fenced (40 + ↑d) s = false) ∧
    (∃ (d : Fin 2) (p : Bytes), List.length p = 12 ∧ HostMeets opWrite (K.tdSet ↑d) p 1 false fun _ s => ¬(rd
      (K.tdServo ↑d) s = 0 ∧ fenced (40 + ↑d) s = false)) ∧
    (∃ (v : Byte), HostMeets opWrite K.timeActiveSel [v] 1 false fun _ s => BitVec.toNat v ≤ 1 ∧ rd (K.tdEnable
      (BitVec.toNat v)) s = 1 ∧ fenced (40 + BitVec.toNat v) s = false) ∧
    (∃ (v : Byte), HostMeets opWrite K.timeActiveSel [v] 1 false fun _ s => BitVec.toNat v ≤ 1 ∧ ¬(rd (K.tdEnable
      (BitVec.toNat v)) s = 1 ∧ fenced (40 + BitVec.toNat v) s = false)) ∧
    (∃ (v : Byte), HostMeets opWrite K.timeActiveSel [v] 1 false fun _ _ => 2 ≤ BitVec.toNat v) :=
  ⟨⟨s1, (by decide +kernel)⟩,
   ⟨s2, (by decide +kernel)⟩,
   ⟨s3, (by decide +kernel)⟩,
   ⟨s4, (by decide +kernel)⟩,
   ⟨s5, (by decide +kernel)⟩,
   ⟨0, ⟨[0, 0, 0, 0, 4, 0, 0, 0], ⟨(by decide +kernel), (hostMeets s6 (by decide +kernel) (by decide +kernel))⟩⟩⟩,
   ⟨0, ⟨[34, 219, 249, 254, 3, 0, 0, 0], ⟨(by decide +kernel), (hostMeets s7 (by decide +kernel)
     (by decide +kernel))⟩⟩⟩,
   ⟨0, ⟨[0, 0, 0, 0, 4, 0, 0, 0], ⟨(by decide +kernel), (hostMeets s7 (by decide +kernel) (by decide +kernel))⟩⟩⟩,
   ⟨0, ⟨[0, 0, 0, 0, 4, 0, 0, 0], ⟨(by decide +kernel), (hostMeets s6 (by decide +kernel) (by decide +kernel))⟩⟩⟩,
   ⟨0, ⟨[0, 0, 0, 0, 4, 0, 0, 0], ⟨(by decide +kernel), (hostMeets s8 (by decide +kernel) (by decide +kernel))⟩⟩⟩,
   ⟨0, ⟨[0, 0, 0, 0, 4, 0, 0, 0], ⟨(by decide +kernel), (hostMeets s7 (by decide +kernel) (by decide +kernel))⟩⟩⟩,
   ⟨0, ⟨[64, 66, 15, 0], ⟨(by decide +kernel), (hostMeets s8 (by decide +kernel) (by decide +kernel))⟩⟩⟩,
   ⟨0, ⟨([5] ++ List.replicate 10 0 ++ [128]), ⟨(by decide +kernel), (hostMeets s8 (by decide +kernel)
     (by decide +kernel))⟩⟩⟩,
   ⟨0, ⟨([5] ++ List.replicate 10 0 ++ [128]), ⟨(by decide +kernel), (hostMeets s9 (by decide +kernel)
     (by decide +kernel))⟩⟩⟩,
   ⟨0, (hostMeets s9 (by decide +kernel) (by decide +kernel))⟩,
   ⟨0, (hostMeets s10 (by decide +kernel) (by decide +kernel))⟩,
   ⟨2, (hostMeets s9 (by decide +kernel) (by decide +kernel))⟩⟩
end Witness.NetworkTime

namespace Witness.TimersFireAndMiss
def s1 : State :=
  { objs := [(K.tmrCmp 3, 1099511627776), (K.tmrState 3, 1)], time := { act := 280375465082880 } }
def s2 : State :=
  { objs := [(K.runState 0, 2), (K.runStartSrc 0, 35), (K.tmrCmp 3, 1099511627776), (K.tmrState 3, 1),
             (K.clkStatus, 15)],
    time := { act := 281474976705656 } }
def s3 : State :=
  { objs := [(K.tmrMode 3, 1), (K.tmrState 3, 1)] }
def s4 : State :=
  { objs := [(K.tmrMode 3, 2), (K.tmrState 3, 1)] }
def s5 : State :=
  { objs := [(K.tmrCmp 3, 1099511627776)] }
def s6 : State :=
  { }
def s7 : State :=
  { objs := [(K.ethLink 0, 1), (K.startStep, 8)], sessions := [sess 1] }
def s8 : State :=
  { objs := [(K.ethLink 0, 1), (K.startStep, 8)], sessions := [{ sess 1 with expert := true }] }
theorem witness_TimersFireAndMiss :
    (∃ (i : Fin 16) (s : State), (rd (K.tmrState ↑i) s = 1 ∧ (timer (↑i) s).judged = false) ∧ 0 < timerDiff (↑i) s ∧
      timerDiff (↑i) s ≤ 256 * 2 ^ 32 ∧ (∀ (l : Nat), l < 16 → ¬(runState l s = 2 ∧ rd (K.runStartSrc l) s = 32 + ↑i) ∧
      (seq l s).blks = [] ∧ (seq l s).queue = []) ∧ rd (K.tmrTout ↑i) s = 0 ∧ rd (K.tmrRelay ↑i) s = 0) ∧
    (∃ (i : Fin 16) (s : State) (g : Fin 16), (rd (K.tmrState ↑i) s = 1 ∧ (timer (↑i) s).judged = false) ∧ 0 <
      timerDiff (↑i) s ∧ timerDiff (↑i) s ≤ 256 * 2 ^ 32 ∧ members (↑g) s = [↑g] ∧ leader (↑g) s = ↑g ∧ runState (↑g) s
      = 2 ∧ rd (K.runStartSrc ↑g) s = 32 + ↑i ∧ (seq (↑g) s).blks = [] ∧ (seq (↑g) s).queue = [] ∧ tclkLocked s = true ∧
      (seq (↑g) s).haltAt = none ∧ (∀ (l : Nat), l < 16 → l ≠ ↑g → runState l s ≠ 2 ∧ (seq l s).blks = [] ∧ (seq l
      s).queue = []) ∧ rd (K.tmrTout ↑i) s = 0 ∧ rd (K.tmrRelay ↑i) s = 0) ∧
    (∃ (i : Fin 16) (s : State), (rd (K.tmrState ↑i) s = 1 ∧ (timer (↑i) s).judged = false) ∧ timerDiff (↑i) s ≤ 0 ∧ rd
      (K.tmrMode ↑i) s = 1) ∧
    (∃ (i : Fin 16) (s : State), (rd (K.tmrState ↑i) s = 1 ∧ (timer (↑i) s).judged = false) ∧ timerDiff (↑i) s ≤ 0 ∧ rd
      (K.tmrMode ↑i) s = 2 ∧ 0 < rd (K.tmrPeriod ↑i) s) ∧
    (∃ (i : Fin 16) (s : State), 0 < timerDiff (↑i) s) ∧
    (∃ (i : Fin 16) (s : State), timerDiff (↑i) s ≤ 0) ∧
    (∃ (i : Fin 16) (s : State), rd (K.tmrState ↑i) s ≠ 1) ∧
    (∃ (i : Fin 16) (p : Bytes), List.length p = 1 ∧ HostMeets opWrite (8404992 + 256 * ↑i + 1) p 0 false fun _ _ =>
      leNat p ≤ 2) ∧
    (∃ (i : Fin 16) (p : Bytes), List.length p = 8 ∧ HostMeets opWrite (8404992 + 256 * ↑i + 2) p 1 true fun _ _ =>
      True) ∧
    (∃ (i : Fin 16) (p : Bytes), List.length p = 8 ∧ HostMeets opWrite (8404992 + 256 * ↑i + 4) p 1 true fun _ _ =>
      1000 * 2 ^ 24 ≤ leNat p ∧ leNat p ≤ 2 ^ 63) ∧
    (∃ (i : Fin 16) (p : Bytes), List.length p = 8 ∧ HostMeets opWrite (8404992 + 256 * ↑i + 5) p 0 false fun _ _ =>
      periodOk (fsPeriod (leNat p)) = true) ∧
    (∃ (i : Fin 16) (p : Bytes), List.length p = 8 ∧ HostMeets opWrite (8404992 + 256 * ↑i + 4) p 1 true fun _ _ =>
      leNat p < 1000 * 2 ^ 24 ∨ 2 ^ 63 < leNat p) ∧
    (∃ (i : Fin 16) (p : Bytes), List.length p = 12 ∧ HostMeets opWrite (8404992 + 256 * ↑i + 3) p 0 false fun _ _ =>
      True) :=
  ⟨⟨3, ⟨s1, (by decide +kernel)⟩⟩,
   ⟨3, ⟨s2, (by decide +kernel)⟩⟩,
   ⟨3, ⟨s3, (by decide +kernel)⟩⟩,
   ⟨3, ⟨s4, (by decide +kernel)⟩⟩,
   ⟨3, ⟨s5, (by decide +kernel)⟩⟩,
   ⟨0, ⟨s6, (by decide +kernel)⟩⟩,
   ⟨0, ⟨s6, (by decide +kernel)⟩⟩,
   ⟨0, ⟨[0], ⟨(by decide +kernel), (hostMeets s7 (by decide +kernel) (by decide +kernel))⟩⟩⟩,
   ⟨0, ⟨[0, 0, 0, 232, 3, 0, 0, 0], ⟨(by decide +kernel), (hostMeets s8 (by decide +kernel) (by decide +kernel))⟩⟩⟩,
   ⟨0, ⟨[0, 0, 0, 232, 3, 0, 0, 0], ⟨(by decide +kernel), (hostMeets s8 (by decide +kernel) (by decide +kernel))⟩⟩⟩,
   ⟨0, ⟨[0, 0, 0, 232, 3, 0, 0, 0], ⟨(by decide +kernel), (hostMeets s7 (by decide +kernel) (by decide +kernel))⟩⟩⟩,
   ⟨0, ⟨[255, 255, 255, 231, 3, 0, 0, 0], ⟨(by decide +kernel), (hostMeets s8 (by decide +kernel)
     (by decide +kernel))⟩⟩⟩,
   ⟨0, ⟨[77, 0, 0, 0, 0, 0, 4, 0, 0, 0, 0, 64], ⟨(by decide +kernel), (hostMeets s7 (by decide +kernel)
     (by decide +kernel))⟩⟩⟩⟩
end Witness.TimersFireAndMiss

namespace Witness.PtpMessagesAndTimeouts
def s1 : State :=
  { objs := [(K.ethLink 2, 1), (K.ptpEnable 1, 1), (K.ptpPort 1, 2), (K.ptpDomainNumber 1, 7),
             (K.ptpPortState 1, 9)] }
def v2 : PtpEvent :=
  { dom := 1, number := 7, transport := 1, kind := 0, twoStep := true, stamp := 12345, origin := 5 }
def s3 : State :=
  { objs := [(K.ethLink 2, 1), (K.tdServo 1, 0), (K.ptpEnable 1, 1), (K.ptpPort 1, 2), (K.ptpDomainNumber 1, 7),
             (K.ptpPortState 1, 9)] }
def v4 : PtpEvent :=
  { dom := 1, number := 7, transport := 1, kind := 0, twoStep := false, stamp := 12345, origin := 5 }
def s5 : State :=
  { objs := [(K.ethLink 2, 1), (K.ptpEnable 1, 1), (K.ptpPort 1, 2), (K.ptpDomainNumber 1, 7),
             (K.ptpDelayMech 1, 1)] }
def v6 : PtpEvent :=
  { dom := 1, number := 7, transport := 1, kind := 3, twoStep := true, stamp := 12345, origin := 5 }
def s7 : State :=
  { objs := [(K.ethLink 2, 1), (K.ptpEnable 1, 1), (K.ptpPort 1, 2), (K.ptpDomainNumber 1, 7),
             (K.ptpDelayMech 1, 1)],
    ptps := [(1, { p1 := some 4 })] }
def v8 : PtpEvent :=
  { dom := 1, number := 7, transport := 1, kind := 3, twoStep := false, stamp := 12345, origin := 5 }
def s9 : State :=
  { objs := [(K.ethLink 2, 1), (K.ptpEnable 1, 1), (K.ptpPort 1, 2), (K.ptpDomainNumber 1, 7),
             (K.ptpPortState 1, 6)] }
def v10 : PtpEvent :=
  { dom := 1, number := 7, transport := 1, kind := 1, twoStep := true, stamp := 12345, origin := 5 }
def s11 : State :=
  { objs := [(K.ethLink 2, 1), (K.ptpEnable 1, 1), (K.ptpPort 1, 2), (K.ptpDomainNumber 1, 7)] }
def v12 : PtpEvent :=
  { dom := 1, number := 7, transport := 1, kind := 2, twoStep := true, stamp := 12345, origin := 5 }
def s13 : State :=
  { }
def v14 : PtpEvent :=
  { dom := 0, number := 7, transport := 1, kind := 0, twoStep := true, stamp := 12345, origin := 5 }
def v15 : Announce :=
  { sender := [1, 2, 3], priority1 := 100, clockClass := 6, accuracy := 33, variance := 20061, priority2 := 128,
    grandmaster := 1234605616436508552, steps := 0, utc := 37 }
def s16 : State :=
  { objs := [(K.ethLink 2, 1), (K.ptpEnable 1, 1), (K.ptpPort 1, 2), (K.ptpDomainNumber 1, 7),
             (K.ptpPortState 1, 9)],
    ptps := [(1, { t1 := some 1, t2 := some 7, t3 := some 37 })] }
def s17 : State :=
  { objs := [(K.ethLink 2, 1), (K.ptpEnable 1, 1), (K.ptpPort 1, 2), (K.ptpDomainNumber 1, 7)],
    ptps := [(1, { p1 := some 4, p2 := some 5, p4 := some 9 })] }
def s18 : State :=
  { objs := [(K.ptpEnable 1, 1), (K.ptpPortState 1, 9)] }
theorem witness_PtpMessagesAndTimeouts :
    (∃ (port : Fin 4) (m : PtpEvent) (s : State), ptpTakes (↑m.dom) (↑port) m.number m.transport s = true ∧ m.kind = 0
      ∧ m.twoStep = true ∧ isSlave (↑m.dom) s = true) ∧
    (∃ (port : Fin 4) (m : PtpEvent) (s : State), ptpTakes (↑m.dom) (↑port) m.number m.transport s = true ∧ m.kind = 0
      ∧ m.twoStep = false ∧ isSlave (↑m.dom) s = true ∧ rd (K.tdServo ↑m.dom) s = 0) ∧
    (∃ (port : Fin 4) (m : PtpEvent) (s : State), ptpTakes (↑m.dom) (↑port) m.number m.transport s = true ∧ m.kind = 3
      ∧ m.twoStep = true ∧ rd (K.ptpDelayMech ↑m.dom) s = 1) ∧
    (∃ (port : Fin 4) (m : PtpEvent) (s : State), ptpTakes (↑m.dom) (↑port) m.number m.transport s = true ∧ ∃ (a :
      Int), m.kind = 3 ∧ m.twoStep = false ∧ rd (K.ptpDelayMech ↑m.dom) s = 1 ∧ (ptp (↑m.dom) s).p1 = some a) ∧
    (∃ (port : Fin 4) (m : PtpEvent) (s : State), ptpTakes (↑m.dom) (↑port) m.number m.transport s = true ∧ (m.kind = 1
      ∧ ¬rd (K.ptpDelayMech ↑m.dom) s = 1 ∧ rd (K.ptpPortState ↑m.dom) s = 6 ∨ m.kind = 2 ∧ rd (K.ptpDelayMech ↑m.dom) s
      = 1)) ∧
    (∃ (port : Fin 4) (m : PtpEvent) (s : State), ptpTakes (↑m.dom) (↑port) m.number m.transport s = true ∧ (m.kind = 0
      ∧ ¬isSlave (↑m.dom) s = true ∨ m.kind = 1 ∧ (rd (K.ptpDelayMech ↑m.dom) s = 1 ∨ rd (K.ptpPortState ↑m.dom) s ≠ 6)
      ∨ m.kind = 2 ∧ ¬rd (K.ptpDelayMech ↑m.dom) s = 1 ∨ m.kind = 3 ∧ (¬rd (K.ptpDelayMech ↑m.dom) s = 1 ∨ m.twoStep =
      false ∧ (ptp (↑m.dom) s).p1 = none))) ∧
    (∃ (port : Fin 4) (m : PtpEvent) (s : State), ptpTakes (↑m.dom) (↑port) m.number m.transport s = true ∧ ((m.kind =
      0 ∨ m.kind = 3 → m.twoStep = (rd (K.ptpOneStep ↑m.dom) s == 0)) ∧ (m.kind = 0 → rd (K.ptpPortState ↑m.dom) s = 6)
      ∧ (m.kind = 1 → ¬rd (K.ptpDelayMech ↑m.dom) s = 1 ∧ isSlave (↑m.dom) s = true) ∧ (m.kind = 2 ∨ m.kind = 3 → rd
      (K.ptpDelayMech ↑m.dom) s = 1)) ∧ m.kind = 1) ∧
    (∃ (port : Fin 4) (m : PtpEvent) (s : State), ptpTakes (↑m.dom) (↑port) m.number m.transport s = true ∧ ((m.kind =
      0 ∨ m.kind = 3 → m.twoStep = (rd (K.ptpOneStep ↑m.dom) s == 0)) ∧ (m.kind = 0 → rd (K.ptpPortState ↑m.dom) s = 6)
      ∧ (m.kind = 1 → ¬rd (K.ptpDelayMech ↑m.dom) s = 1 ∧ isSlave (↑m.dom) s = true) ∧ (m.kind = 2 ∨ m.kind = 3 → rd
      (K.ptpDelayMech ↑m.dom) s = 1)) ∧ m.kind = 2) ∧
    (∃ (port : Fin 4) (m : PtpEvent) (s : State), ptpTakes (↑m.dom) (↑port) m.number m.transport s = true ∧ ((m.kind =
      0 ∨ m.kind = 3 → m.twoStep = (rd (K.ptpOneStep ↑m.dom) s == 0)) ∧ (m.kind = 0 → rd (K.ptpPortState ↑m.dom) s = 6)
      ∧ (m.kind = 1 → ¬rd (K.ptpDelayMech ↑m.dom) s = 1 ∧ isSlave (↑m.dom) s = true) ∧ (m.kind = 2 ∨ m.kind = 3 → rd
      (K.ptpDelayMech ↑m.dom) s = 1)) ∧ (m.kind = 0 ∨ m.kind = 3)) ∧
    (∃ (port : Fin 4) (m : PtpEvent) (s : State), ptpTakes (↑m.dom) (↑port) m.number m.transport s = true ∧ ¬((m.kind =
      0 ∨ m.kind = 3 → m.twoStep = (rd (K.ptpOneStep ↑m.dom) s == 0)) ∧ (m.kind = 0 → rd (K.ptpPortState ↑m.dom) s = 6)
      ∧ (m.kind = 1 → ¬rd (K.ptpDelayMech ↑m.dom) s = 1 ∧ isSlave (↑m.dom) s = true) ∧ (m.kind = 2 ∨ m.kind = 3 → rd
      (K.ptpDelayMech ↑m.dom) s = 1))) ∧
    (∃ (port : Fin 4) (m : PtpEvent) (s : State), ¬ptpTakes (↑m.dom) (↑port) m.number m.transport s = true) ∧
    (∃ (port : Fin 4) (d : Fin 2) (number : BitVec 8) (transport : Fin 3) (s : State), ¬ptpTakes (↑d) (↑port) number
      transport s = true) ∧
    (∃ (port : Fin 4) (d : Fin 2) (number : BitVec 8) (transport : Fin 3) (s : State) (a : Announce), ptpTakes (↑d)
      (↑port) number transport s = true ∧ ∀ (b : Announce), (ptp (↑d) s).best = some b → b.sender = a.sender ∨
      announceBetter a b = true) ∧
    (∃ (port : Fin 4) (d : Fin 2) (number : BitVec 8) (transport : Fin 3) (s : State), ptpTakes (↑d) (↑port) number
      transport s = true ∧ isSlave (↑d) s = true ∧ rd (K.ptpDelayMech ↑d) s = 0 ∧ ∃ (a : Int) (b : Int) (c : Int), (ptp
      (↑d) s).t1 = some a ∧ (ptp (↑d) s).t2 = some b ∧ (ptp (↑d) s).t3 = some c) ∧
    (∃ (port : Fin 4) (d : Fin 2) (number : BitVec 8) (transport : Fin 3) (s : State), ptpTakes (↑d) (↑port) number
      transport s = true ∧ ∃ (a : Int) (b : Int) (c : Int), (ptp (↑d) s).p1 = some a ∧ (ptp (↑d) s).p2 = some b ∧ (ptp
      (↑d) s).p4 = some c) ∧
    (∃ (d : Fin 2) (s : State), rd (K.ptpEnable ↑d) s = 1 ∧ isSlave (↑d) s = true ∧ fenced (40 + ↑d) s = false) ∧
    (∃ (d : Fin 2) (s : State), isSlave (↑d) s = false) :=
  ⟨⟨2, ⟨v2, ⟨s1, (by decide +kernel)⟩⟩⟩,
   ⟨2, ⟨v4, ⟨s3, (by decide +kernel)⟩⟩⟩,
   ⟨2, ⟨v6, ⟨s5, (by decide +kernel)⟩⟩⟩,
   ⟨2, ⟨v8, ⟨s7, ⟨(by decide +kernel), ⟨4, (by decide +kernel)⟩⟩⟩⟩⟩,
   ⟨2, ⟨v10, ⟨s9, (by decide +kernel)⟩⟩⟩,
   ⟨2, ⟨v10, ⟨s11, (by decide +kernel)⟩⟩⟩,
   ⟨2, ⟨v10, ⟨s1, (by decide +kernel)⟩⟩⟩,
   ⟨2, ⟨v12, ⟨s5, (by decide +kernel)⟩⟩⟩,
   ⟨2, ⟨v2, ⟨s9, (by decide +kernel)⟩⟩⟩,
   ⟨2, ⟨v2, ⟨s11, (by decide +kernel)⟩⟩⟩,
   ⟨0, ⟨v14, ⟨s13, (by decide +kernel)⟩⟩⟩,
   ⟨0, ⟨0, ⟨0, ⟨0, ⟨s13, (by decide +kernel)⟩⟩⟩⟩⟩,
   ⟨2, ⟨1, ⟨7, ⟨1, ⟨s11, ⟨v15, (by decide +kernel)⟩⟩⟩⟩⟩⟩,
   ⟨2, ⟨1, ⟨7, ⟨1, ⟨s16, ⟨(by decide +kernel), ⟨(by decide +kernel), ⟨(by decide +kernel), ⟨1, ⟨7, ⟨37,
     (by decide +kernel)⟩⟩⟩⟩⟩⟩⟩⟩⟩⟩⟩,
   ⟨2, ⟨1, ⟨7, ⟨1, ⟨s17, ⟨(by decide +kernel), ⟨4, ⟨5, ⟨9, (by decide +kernel)⟩⟩⟩⟩⟩⟩⟩⟩⟩,
   ⟨1, ⟨s18, (by decide +kernel)⟩⟩,
   ⟨0, ⟨s13, (by decide +kernel)⟩⟩⟩
end Witness.PtpMessagesAndTimeouts

namespace Witness.RingTrainsAndSends
def s1 : State :=
  { objs := [(K.ethLink 0, 1), (K.rlyEnable, 1), (K.rlyLeader, 1), (K.startStep, 8)], sessions := [sess 1] }
def s2 : State :=
  { objs := [(K.ethLink 0, 1), (K.startStep, 8)], sessions := [sess 1] }
def s3 : State :=
  { objs := [(K.ethLink 0, 1), (K.rlyState, 4), (K.startStep, 8)], sessions := [sess 1] }
def s4 : State :=
  { objs := [(K.rlyEnable, 1), (K.rlyState, 1)] }
def s5 : State :=
  { objs := [(K.rlyEnable, 1)] }
def s6 : State :=
  { }
def s7 : State :=
  { objs := [(K.ethLink 0, 1), (K.rlyState, 2), (K.startStep, 8)], sessions := [sess 1] }
def s8 : State :=
  { objs := [(K.ethLink 0, 1), (K.rlyState, 2), (K.startStep, 8)],
    rly := { txq := [{ kind := 1, origin := 0, s := 0, chips := 1, groups := 0, entry := 0 },
                     { kind := 1, origin := 0, s := 0, chips := 1, groups := 0, entry := 0 },
                     { kind := 1, origin := 0, s := 0, chips := 1, groups := 0, entry := 0 },
                     { kind := 1, origin := 0, s := 0, chips := 1, groups := 0, entry := 0 },
                     { kind := 1, origin := 0, s := 0, chips := 1, groups := 0, entry := 0 },
                     { kind := 1, origin := 0, s := 0, chips := 1, groups := 0, entry := 0 },
                     { kind := 1, origin := 0, s := 0, chips := 1, groups := 0, entry := 0 },
                     { kind := 1, origin := 0, s := 0, chips := 1, groups := 0, entry := 0 }] },
    sessions := [sess 1] }
theorem witness_RingTrainsAndSends :
    (HostMeets opWrite K.rlyCmd [1] 1 false fun _ s => rd K.rlyState s ≠ 4 ∧ rd K.rlyLeader s = 1 ∧ rd K.rlyEnable s =
      1 ∧ ∀ (g : Nat), g < 16 → ¬(runState g s = 2 ∧ rd (K.runStartSrc g) s = 48)) ∧
    (HostMeets opWrite K.rlyCmd [1] 1 false fun _ s => rd K.rlyState s = 4 ∨ rd K.rlyLeader s ≠ 1 ∨ rd K.rlyEnable s ≠
      1 ∨ ∃ (g : Nat), g < 16 ∧ runState g s = 2 ∧ rd (K.runStartSrc g) s = 48) ∧
    (HostMeets opWrite K.rlyCmd [2] 1 false fun _ s => rd K.rlyState s ≠ 4) ∧
    (HostMeets opWrite K.rlyCmd [2] 1 false fun _ s => rd K.rlyState s = 4) ∧
    (∃ (code : Fin 7) (hopFs : Nat) (offsetFs : Nat) (rtt : Nat) (count : Nat) (chOp : Nat) (s : State), rd K.rlyEnable
      s = 1 ∧ rd K.rlyState s ≠ 4 ∧ code = 0 ∧ (rd K.rlyLeader s = 1 → rd K.rlyState s = 1) ∧ rtt ≤ 2560 ∧ count < 2 ^
      64 ∧ chOp < 2 ^ 16 ∧ hopFs < 2 ^ 64 ∧ offsetFs < 2 ^ 64) ∧
    (∃ (code : Fin 7) (s : State), rd K.rlyEnable s = 1 ∧ rd K.rlyState s ≠ 4 ∧ code ≠ 0) ∧
    (∃ (code : Fin 7) (rtt : Nat) (s : State), rd K.rlyEnable s = 0 ∨ rd K.rlyState s = 4 ∨ code = 0 ∧ (rd K.rlyLeader
      s = 1 ∧ rd K.rlyState s ≠ 1 ∨ 2560 < rtt)) ∧
    (∃ (p : Bytes), List.length p = 4 ∧ HostMeets opWrite K.rlyStartSend p 1 false fun _ s => True ∧ rd K.rlyState s =
      2 ∧ s.rly.txq.length < 8) ∧
    (∃ (p : Bytes), List.length p = 4 ∧ HostMeets opWrite K.rlyStartSend p 1 false fun _ s => True ∧ rd K.rlyState s =
      2 ∧ 8 ≤ s.rly.txq.length) ∧
    (∃ (p : Bytes), List.length p = 4 ∧ HostMeets opWrite K.rlyStartSend p 1 false fun _ s => True ∧ rd K.rlyState s =
      4) ∧
    (∃ (p : Bytes), List.length p = 4 ∧ HostMeets opWrite K.rlyEventSend p 1 false fun _ s => True ∧ rd K.rlyState s =
      2 ∧ s.rly.txq.length < 8) ∧
    (∃ (p : Bytes), List.length p = 4 ∧ HostMeets opWrite K.rlyEventSend p 1 false fun _ s => True ∧ rd K.rlyState s =
      2 ∧ 8 ≤ s.rly.txq.length) ∧
    (∃ (p : Bytes), List.length p = 4 ∧ HostMeets opWrite K.rlyEventSend p 1 false fun _ s => True ∧ rd K.rlyState s =
      4) ∧
    (∃ (p : Bytes), List.length p = 8 ∧ HostMeets opWrite K.rlyJumpSend p 1 false fun _ s => leAt 6 1 p < 16 ∧ rd
      K.rlyState s = 2 ∧ s.rly.txq.length < 8) ∧
    (∃ (p : Bytes), List.length p = 8 ∧ HostMeets opWrite K.rlyJumpSend p 1 false fun _ s => leAt 6 1 p < 16 ∧ rd
      K.rlyState s = 2 ∧ 8 ≤ s.rly.txq.length) ∧
    (∃ (p : Bytes), List.length p = 8 ∧ HostMeets opWrite K.rlyJumpSend p 1 false fun _ s => leAt 6 1 p < 16 ∧ rd
      K.rlyState s = 4) ∧
    (∃ (p : Bytes), List.length p = 8 ∧ HostMeets opWrite K.rlyJumpSend p 1 false fun _ _ => 16 ≤ leAt 6 1 p) :=
  ⟨hostMeets s1 (by decide +kernel) (by decide +kernel),
   hostMeets s2 (by decide +kernel) (by decide +kernel),
   hostMeets s2 (by decide +kernel) (by decide +kernel),
   hostMeets s3 (by decide +kernel) (by decide +kernel),
   ⟨0, ⟨0, ⟨0, ⟨0, ⟨0, ⟨0, ⟨s4, (by decide +kernel)⟩⟩⟩⟩⟩⟩⟩,
   ⟨2, ⟨s5, (by decide +kernel)⟩⟩,
   ⟨0, ⟨0, ⟨s6, (by decide +kernel)⟩⟩⟩,
   ⟨[1, 0, 0, 0], ⟨(by decide +kernel), (hostMeets s7 (by decide +kernel) (by decide +kernel))⟩⟩,
   ⟨[1, 0, 0, 0], ⟨(by decide +kernel), (hostMeets s8 (by decide +kernel) (by decide +kernel))⟩⟩,
   ⟨[1, 0, 0, 0], ⟨(by decide +kernel), (hostMeets s3 (by decide +kernel) (by decide +kernel))⟩⟩,
   ⟨[1, 0, 0, 0], ⟨(by decide +kernel), (hostMeets s7 (by decide +kernel) (by decide +kernel))⟩⟩,
   ⟨[1, 0, 0, 0], ⟨(by decide +kernel), (hostMeets s8 (by decide +kernel) (by decide +kernel))⟩⟩,
   ⟨[1, 0, 0, 0], ⟨(by decide +kernel), (hostMeets s3 (by decide +kernel) (by decide +kernel))⟩⟩,
   ⟨[1, 2, 3, 0, 1, 0, 2, 0], ⟨(by decide +kernel), (hostMeets s7 (by decide +kernel) (by decide +kernel))⟩⟩,
   ⟨[1, 2, 3, 0, 1, 0, 2, 0], ⟨(by decide +kernel), (hostMeets s8 (by decide +kernel) (by decide +kernel))⟩⟩,
   ⟨[1, 2, 3, 0, 1, 0, 2, 0], ⟨(by decide +kernel), (hostMeets s3 (by decide +kernel) (by decide +kernel))⟩⟩,
   ⟨[1, 2, 3, 0, 1, 0, 20, 0], ⟨(by decide +kernel), (hostMeets s2 (by decide +kernel) (by decide +kernel))⟩⟩⟩
end Witness.RingTrainsAndSends

namespace Witness.RingFramesTravel
def s1 : State :=
  { objs := [(K.rlyEnable, 1), (K.rlyState, 2)] }
def s2 : State :=
  { objs := [(K.rlyEnable, 1)] }
def s3 : State :=
  { }
def v4 : RelayFrame :=
  { lane0 := { bits := 13292279957857347599524780380398554216 },
    lane1 := { bits := 10633823966279326983230456482242777153 },
    lane2 := { bits := 10633823966279326983230456482242777153 },
    lane3 := { bits := 10633823966279326983230456482242777153 } }
def v5 : RelayFrame :=
  { lane0 := { bits := 15950735949432015020940745703186761567 },
    lane1 := { bits := 10633823966279326983230456482242777153 },
    lane2 := { bits := 10633823966279326983230456482242777153 },
    lane3 := { bits := 10633823966279326983230456482242777153 } }
def s6 : State :=
  { objs := [(K.rlyEnable, 1), (K.rlyState, 1)] }
def v7 : RelayFrame :=
  { lane0 := { bits := 14621507953639845625401039802710390545 },
    lane1 := { bits := 10633823966279326983230456482242777153 },
    lane2 := { bits := 10633823966279326983230456482242777153 },
    lane3 := { bits := 10633823966279326983230456482242777153 } }
def v8 : RelayFrame :=
  { lane0 := { bits := 18609191941003329358158816892864715638 },
    lane1 := { bits := 10633823966279326983230456482242777153 },
    lane2 := { bits := 10633823966279326983230456482242777153 },
    lane3 := { bits := 10633823966279326983230456482242777153 } }
def s9 : State :=
  { objs := [(K.rlyEnable, 1), (K.rlyState, 2)], rly := { base := 18446744073709551316 } }
theorem witness_RingFramesTravel :
    (∃ (v : Nat), v < 2 ^ 107) ∧
    (∃ (v : Nat), v < 2 ^ 107 ∧ ∃ (i : Nat), i < 123) ∧
    (∃ (c : Nat), c < 16) ∧
    (∃ (s : State), rd K.rlyEnable s = 1 ∧ rd K.rlyState s = 2 ∧ s.rly.fwd.length = 3 ∧ s.rly.held.length = 3) ∧
    (∃ (s : State), rd K.rlyEnable s = 1 ∧ rd K.rlyState s ≠ 2 ∧ (rd K.rlyState s = 4 → s.rly.poison.isSome = true) ∧
      s.rly.fwd = [none, none, none] ∧ s.rly.held = [false, false, false] ∧ s.rly.txq = []) ∧
    (∃ (s : State), rd K.rlyEnable s = 0 ∨ rd K.rlyState s = 4 ∧ s.rly.poison = none) ∧
    (∃ (f : RelayFrame) (s : State), rd K.rlyEnable s = 1 ∧ rd K.rlyLeader s ≤ 1 ∧ (blockGood (laneBefore s.rly.rx 0)
      f.lane0 = true ∧ blockGood (laneBefore s.rly.rx 1) f.lane1 = true ∧ blockGood (laneBefore s.rly.rx 2) f.lane2 =
      true ∧ blockGood (laneBefore s.rly.rx 3) f.lane3 = true ∧ contentOf (laneBefore s.rly.rx 0) f.lane0 / 2 ^ 105 ≠ 3
      ∧ ∀ (v : Nat), v ∈ [contentOf (laneBefore s.rly.rx 1) f.lane1, contentOf (laneBefore s.rly.rx 2) f.lane2,
      contentOf (laneBefore s.rly.rx 3) f.lane3] → v / 2 ^ 104 ≤ 4 ∧ slotBad v = false) ∧ rd K.rlyState s = 2 ∧
      ¬(contentOf (laneBefore s.rly.rx 0) f.lane0 / 2 ^ 105 = 2 ∧ rd K.rlyLeader s ≠ 1) ∧ (contentOf (laneBefore
      s.rly.rx 0) f.lane0).testBit 104 = false) ∧
    (∃ (f : RelayFrame) (s : State), rd K.rlyEnable s = 1 ∧ rd K.rlyLeader s ≤ 1 ∧ (blockGood (laneBefore s.rly.rx 0)
      f.lane0 = true ∧ blockGood (laneBefore s.rly.rx 1) f.lane1 = true ∧ blockGood (laneBefore s.rly.rx 2) f.lane2 =
      true ∧ blockGood (laneBefore s.rly.rx 3) f.lane3 = true ∧ contentOf (laneBefore s.rly.rx 0) f.lane0 / 2 ^ 105 ≠ 3
      ∧ ∀ (v : Nat), v ∈ [contentOf (laneBefore s.rly.rx 1) f.lane1, contentOf (laneBefore s.rly.rx 2) f.lane2,
      contentOf (laneBefore s.rly.rx 3) f.lane3] → v / 2 ^ 104 ≤ 4 ∧ slotBad v = false) ∧ (contentOf (laneBefore
      s.rly.rx 0) f.lane0 / 2 ^ 105 = 2 ∧ rd K.rlyLeader s ≠ 1) ∧ rd K.rlyState s ≠ 1 ∧ rd K.rlyState s ≠ 4) ∧
    (∃ (f : RelayFrame) (s : State), rd K.rlyEnable s = 1 ∧ (blockGood (laneBefore s.rly.rx 0) f.lane0 = true ∧
      blockGood (laneBefore s.rly.rx 1) f.lane1 = true ∧ blockGood (laneBefore s.rly.rx 2) f.lane2 = true ∧ blockGood
      (laneBefore s.rly.rx 3) f.lane3 = true ∧ contentOf (laneBefore s.rly.rx 0) f.lane0 / 2 ^ 105 ≠ 3 ∧ ∀ (v : Nat), v
      ∈ [contentOf (laneBefore s.rly.rx 1) f.lane1, contentOf (laneBefore s.rly.rx 2) f.lane2, contentOf (laneBefore
      s.rly.rx 3) f.lane3] → v / 2 ^ 104 ≤ 4 ∧ slotBad v = false) ∧ rd K.rlyState s = 1) ∧
    (∃ (f : RelayFrame) (s : State), rd K.rlyEnable s = 1 ∧ rd K.rlyLeader s ≤ 1 ∧ (blockGood (laneBefore s.rly.rx 0)
      f.lane0 = true ∧ blockGood (laneBefore s.rly.rx 1) f.lane1 = true ∧ blockGood (laneBefore s.rly.rx 2) f.lane2 =
      true ∧ blockGood (laneBefore s.rly.rx 3) f.lane3 = true ∧ contentOf (laneBefore s.rly.rx 0) f.lane0 / 2 ^ 105 ≠ 3
      ∧ ∀ (v : Nat), v ∈ [contentOf (laneBefore s.rly.rx 1) f.lane1, contentOf (laneBefore s.rly.rx 2) f.lane2,
      contentOf (laneBefore s.rly.rx 3) f.lane3] → v / 2 ^ 104 ≤ 4 ∧ slotBad v = false) ∧ ¬(contentOf (laneBefore
      s.rly.rx 0) f.lane0 / 2 ^ 105 = 2 ∧ rd K.rlyLeader s ≠ 1) ∧ (contentOf (laneBefore s.rly.rx 0) f.lane0).testBit
      104 = true ∧ rd K.rlyState s ≠ 1 ∧ rd K.rlyState s ≠ 4 ∧ (rd K.rlyState s = 0 → s.rly.poison = none)) ∧
    (∃ (f : RelayFrame) (s : State), rd K.rlyEnable s = 1 ∧ ¬(blockGood (laneBefore s.rly.rx 0) f.lane0 = true ∧
      blockGood (laneBefore s.rly.rx 1) f.lane1 = true ∧ blockGood (laneBefore s.rly.rx 2) f.lane2 = true ∧ blockGood
      (laneBefore s.rly.rx 3) f.lane3 = true ∧ contentOf (laneBefore s.rly.rx 0) f.lane0 / 2 ^ 105 ≠ 3 ∧ ∀ (v : Nat), v
      ∈ [contentOf (laneBefore s.rly.rx 1) f.lane1, contentOf (laneBefore s.rly.rx 2) f.lane2, contentOf (laneBefore
      s.rly.rx 3) f.lane3] → v / 2 ^ 104 ≤ 4 ∧ slotBad v = false) ∧ (rd K.rlyState s = 2 ∨ rd K.rlyState s = 0 ∧
      s.rly.poison.isSome = true)) ∧
    (∃ (f : RelayFrame) (s : State), rd K.rlyEnable s = 1 ∧ ¬(blockGood (laneBefore s.rly.rx 0) f.lane0 = true ∧
      blockGood (laneBefore s.rly.rx 1) f.lane1 = true ∧ blockGood (laneBefore s.rly.rx 2) f.lane2 = true ∧ blockGood
      (laneBefore s.rly.rx 3) f.lane3 = true ∧ contentOf (laneBefore s.rly.rx 0) f.lane0 / 2 ^ 105 ≠ 3 ∧ ∀ (v : Nat), v
      ∈ [contentOf (laneBefore s.rly.rx 1) f.lane1, contentOf (laneBefore s.rly.rx 2) f.lane2, contentOf (laneBefore
      s.rly.rx 3) f.lane3] → v / 2 ^ 104 ≤ 4 ∧ slotBad v = false) ∧ ¬(rd K.rlyState s = 2 ∨ rd K.rlyState s = 0 ∧
      s.rly.poison.isSome = true)) ∧
    (∃ (s : State), rd K.rlyEnable s = 0) ∧
    (∃ (s : State), rd K.rlyEnable s = 1 ∧ (rd K.rlyState s = 2 ∨ rd K.rlyState s = 0 ∧ s.rly.poison.isSome = true) ∧
      s.rly.rxDue + (rd K.rlyHopFs s + 624999) / 625000 + 32 ≤ ringCount s) ∧
    (∃ (s : State), rd K.rlyEnable s = 1 ∧ (rd K.rlyState s = 2 ∨ rd K.rlyState s = 0 ∧ s.rly.poison.isSome = true) ∧
      ringCount s < s.rly.rxDue + (rd K.rlyHopFs s + 624999) / 625000 + 32) :=
  ⟨⟨0, (by decide +kernel)⟩,
   ⟨0, ⟨(by decide +kernel), ⟨0, (by decide +kernel)⟩⟩⟩,
   ⟨0, (by decide +kernel)⟩,
   ⟨s1, (by decide +kernel)⟩,
   ⟨s2, (by decide +kernel)⟩,
   ⟨s3, (by decide +kernel)⟩,
   ⟨v4, ⟨s1, (by decide +kernel)⟩⟩,
   ⟨v5, ⟨s2, (by decide +kernel)⟩⟩,
   ⟨v5, ⟨s6, (by decide +kernel)⟩⟩,
   ⟨v7, ⟨s2, (by decide +kernel)⟩⟩,
   ⟨v8, ⟨s1, (by decide +kernel)⟩⟩,
   ⟨v8, ⟨s2, (by decide +kernel)⟩⟩,
   ⟨s3, (by decide +kernel)⟩,
   ⟨s9, (by decide +kernel)⟩,
   ⟨s1, (by decide +kernel)⟩⟩
end Witness.RingFramesTravel

namespace Witness.RingMessagesLand
def s1 : State :=
  { rly := { landing := [{ kind := 1, origin := 2, s := 900, chips := 8, groups := 4, entry := 2 }] } }
def v2 : Msg :=
  { kind := 1, origin := 2, s := 900, chips := 8, groups := 4, entry := 2 }
def s3 : State :=
  { rly := { landing := [{ kind := 1, origin := 2, s := 700, chips := 8, groups := 4, entry := 2 }] } }
def v4 : Msg :=
  { kind := 1, origin := 2, s := 700, chips := 8, groups := 4, entry := 2 }
def s5 : State :=
  { objs := [(K.rlyState, 2)],
    rly := { landing := [{ kind := 1, origin := 2, s := 700, chips := 7, groups := 4, entry := 2 }] } }
def v6 : Msg :=
  { kind := 1, origin := 2, s := 700, chips := 7, groups := 4, entry := 2 }
def s7 : State :=
  { objs := [(K.rlyState, 2), (K.rlyPosition, 3)],
    rly := { landing := [{ kind := 1, origin := 2, s := 700, chips := 8, groups := 4, entry := 2 }] } }
def s8 : State :=
  { objs := [(K.rlyState, 2), (K.rlyPosition, 3)],
    rly := { landing := [{ kind := 3, origin := 2, s := 700, chips := 8, groups := 4, entry := 2 }] } }
def v9 : Msg :=
  { kind := 3, origin := 2, s := 700, chips := 8, groups := 4, entry := 2 }
def s10 : State :=
  { objs := [(K.runState 2, 3), (K.rlyState, 2), (K.rlyPosition, 3)],
    rly := { landing := [{ kind := 2, origin := 2, s := 700, chips := 8, groups := 4, entry := 2 }] } }
def v11 : Msg :=
  { kind := 2, origin := 2, s := 700, chips := 8, groups := 4, entry := 2 }
def s12 : State :=
  { objs := [(K.rlyState, 2), (K.rlyPosition, 3)],
    rly := { landing := [{ kind := 2, origin := 2, s := 700, chips := 8, groups := 4, entry := 2 }] } }
def s13 : State :=
  { objs := [(K.rlyState, 2)],
    rly := { landing := [{ kind := 4, origin := 2, s := 700, chips := 8, groups := 4, entry := 2 }] } }
def v14 : Msg :=
  { kind := 4, origin := 2, s := 700, chips := 8, groups := 4, entry := 2 }
def s15 : State :=
  { objs := [(K.rlyState, 2)], rly := { results := [(700, 65519), (9, 9)] } }
def s16 : State :=
  { rly := { results := [(700, 65535)] } }
def s17 : State :=
  { }
theorem witness_RingMessagesLand :
    (∃ (m : Msg) (s : State), firstMsg s.rly.landing = some m ∧ m.kind ∈ [1, 2, 3, 4] ∧ ¬(s.rly.poison = none ∧ rd
      K.rlyState s = 2 ∨ ∃ (p : Nat), s.rly.poison = some p ∧ m.s < p)) ∧
    (∃ (m : Msg) (s : State), firstMsg s.rly.landing = some m ∧ ∃ (k : Nat), k ∈ [1, 2, 3, 4] ∧ k ≠ m.kind) ∧
    (∃ (m : Msg) (s : State), firstMsg s.rly.landing = some m ∧ (s.rly.poison = none ∧ rd K.rlyState s = 2 ∨ ∃ (p :
      Nat), s.rly.poison = some p ∧ m.s < p) ∧ m.kind ∈ [1, 2, 3] ∧ m.chips.testBit (rd K.rlyPosition s) = false) ∧
    (∃ (m : Msg) (s : State), firstMsg s.rly.landing = some m ∧ (s.rly.poison = none ∧ rd K.rlyState s = 2 ∨ ∃ (p :
      Nat), s.rly.poison = some p ∧ m.s < p) ∧ m.kind = 1 ∧ m.chips.testBit (rd K.rlyPosition s) = true) ∧
    (∃ (m : Msg) (s : State), firstMsg s.rly.landing = some m ∧ (s.rly.poison = none ∧ rd K.rlyState s = 2 ∨ ∃ (p :
      Nat), s.rly.poison = some p ∧ m.s < p) ∧ m.kind = 3 ∧ m.chips.testBit (rd K.rlyPosition s) = true) ∧
    (∃ (m : Msg) (s : State), firstMsg s.rly.landing = some m ∧ ∃ (g : Nat), (s.rly.poison = none ∧ rd K.rlyState s = 2
      ∨ ∃ (p : Nat), s.rly.poison = some p ∧ m.s < p) ∧ m.kind = 2 ∧ m.chips.testBit (rd K.rlyPosition s) = true ∧ g <
      16 ∧ leadersOf (bitsOf m.groups 16) s = [g] ∧ (filling g s = true ∨ busyState (runState g s) = true)) ∧
    (∃ (m : Msg) (s : State), firstMsg s.rly.landing = some m ∧ ∃ (g : Nat), (s.rly.poison = none ∧ rd K.rlyState s = 2
      ∨ ∃ (p : Nat), s.rly.poison = some p ∧ m.s < p) ∧ m.kind = 2 ∧ m.chips.testBit (rd K.rlyPosition s) = true ∧ g <
      16 ∧ leadersOf (bitsOf m.groups 16) s = [g] ∧ ¬(filling g s = true ∨ busyState (runState g s) = true)) ∧
    (∃ (m : Msg) (s : State), firstMsg s.rly.landing = some m ∧ (s.rly.poison = none ∧ rd K.rlyState s = 2 ∨ ∃ (p :
      Nat), s.rly.poison = some p ∧ m.s < p) ∧ m.kind = 4) ∧
    (∃ (count : Nat) (res : Nat) (rest : List (Nat × Nat)) (s : State), s.rly.results = (count, res) :: rest ∧ rd
      K.rlyState s = 2 ∧ (s.rly.poison = none ∧ rd K.rlyState s = 2 ∨ ∃ (p : Nat), s.rly.poison = some p ∧ count < p)) ∧
    (∃ (count : Nat) (res : Nat) (rest : List (Nat × Nat)) (s : State), s.rly.results = (count, res) :: rest ∧ (rd
      K.rlyState s ≠ 2 ∨ ¬(s.rly.poison = none ∧ rd K.rlyState s = 2 ∨ ∃ (p : Nat), s.rly.poison = some p ∧ count < p))) ∧
    (∃ (s : State), s.rly.landing = [] ∧ ∃ (c : Instr), c ∈ [Instr.relayStart, Instr.relayJump, Instr.relayEvent,
      Instr.relayFail]) :=
  ⟨⟨v2, ⟨s1, (by decide +kernel)⟩⟩,
   ⟨v4, ⟨s3, (by decide +kernel)⟩⟩,
   ⟨v6, ⟨s5, (by decide +kernel)⟩⟩,
   ⟨v4, ⟨s7, (by decide +kernel)⟩⟩,
   ⟨v9, ⟨s8, (by decide +kernel)⟩⟩,
   ⟨v11, ⟨s10, ⟨(by decide +kernel), ⟨2, (by decide +kernel)⟩⟩⟩⟩,
   ⟨v11, ⟨s12, ⟨(by decide +kernel), ⟨2, (by decide +kernel)⟩⟩⟩⟩,
   ⟨v14, ⟨s13, (by decide +kernel)⟩⟩,
   ⟨700, ⟨65519, ⟨[(9, 9)], ⟨s15, (by decide +kernel)⟩⟩⟩⟩,
   ⟨700, ⟨65535, ⟨[], ⟨s16, (by decide +kernel)⟩⟩⟩⟩,
   ⟨s17, ⟨(by decide +kernel), ⟨.relayFail, (by decide +kernel)⟩⟩⟩⟩
end Witness.RingMessagesLand

namespace Witness.LinksComeUp
def s1 : State :=
  { objs := [(K.ethLink 0, 1), (K.startStep, 8)], sessions := [sess 1] }
def s2 : State :=
  { objs := [(K.ethLink 0, 1), (K.jesdDevclkHz, 50000000), (K.startStep, 8)], sessions := [sess 1] }
def s3 : State :=
  { objs := [(K.ethLink 0, 1), (K.jtxState, 5), (K.startStep, 8)], sessions := [sess 1] }
def s4 : State :=
  { objs := [(K.ethLink 0, 1), (K.jrxDest, 1), (K.jrxBase, 0), (K.startStep, 8)], sessions := [sess 1] }
def s5 : State :=
  { objs := [(K.ethLink 0, 1), (K.jrxBase, 4160), (K.startStep, 8)], sessions := [sess 1] }
def s6 : State :=
  { objs := [(K.jtxState, 2), (K.jrxState, 2)] }
def s7 : State :=
  { objs := [(K.jtxState, 2)] }
def s8 : State :=
  { }
def s9 : State :=
  { objs := [(K.jtxState, 4)], jtx := { lemc := some { edge := 0, seen := 0, on := 7 } } }
def s10 : State :=
  { objs := [(K.jesdSysrefMode, 2), (K.jtxState, 4)], jtx := { lemc := some { edge := 0, seen := 0, on := 7 } } }
def s11 : State :=
  { objs := [(K.jesdSysrefMode, 0), (K.jtxState, 4)], jtx := { lemc := some { edge := 0, seen := 0, on := 7 } } }
def s12 : State :=
  { objs := [(K.jesdDevclkHz, 400000000)] }
def s13 : State :=
  { objs := [(K.jrxState, 3)] }
def s14 : State :=
  { objs := [(K.jrxState, 4)] }
theorem witness_LinksComeUp :
    (HostMeets opWrite K.jtxEn [1] 1 false fun _ s => rd K.jtxState s ≠ 5 ∧ rd K.jtxEn s = 0 ∧ linkOk K.jtxParams s =
      true) ∧
    (HostMeets opWrite K.jtxEn [1] 1 false fun _ s => rd K.jtxState s ≠ 5 ∧ rd K.jtxEn s = 0 ∧ linkOk K.jtxParams s =
      false) ∧
    (HostMeets opWrite K.jtxEn [0] 1 false fun _ s => rd K.jtxState s ≠ 5 ∧ ∀ (r : DReq), r ∈ s.dram.reqs → r.port ≠ 2) ∧
    (HostMeets opWrite K.jtxEn [0] 1 false fun _ s => rd K.jtxState s = 5) ∧
    (HostMeets opWrite K.jrxEn [1] 1 false fun _ s => rd K.jrxState s ≠ 5 ∧ rd K.jrxEn s = 0 ∧ linkOk K.jrxParams s =
      true ∧ rxRegionOk s = true) ∧
    (HostMeets opWrite K.jrxEn [1] 1 false fun _ s => rd K.jrxState s ≠ 5 ∧ rd K.jrxEn s = 0 ∧ (linkOk K.jrxParams s =
      false ∨ rxRegionOk s = false)) ∧
    (HostMeets opWrite K.jrxEn [0] 1 false fun _ s => rd K.jrxState s ≠ 5) ∧
    (∃ (hz : Nat), 50000000 ≤ hz ∧ hz ≤ 800000000) ∧
    (∃ (s : State), rd K.jtxState s = 2 ∧ rd K.jrxState s = 2) ∧
    (∃ (s : State), rd K.jtxState s = 2 ∧ (rd K.jrxState s < 2 ∨ rd K.jrxState s = 5)) ∧
    (∃ (edge : Nat) (s : State), rd K.jtxState s ≠ 2 ∧ rd K.jrxState s ≠ 2 ∧ (rd K.jtxState s = 4 → ∀ (x : Lemc),
      s.jtx.lemc = some x → (↑edge - ↑x.edge) * ↑(linkParam K.jtxParams 4 s) % ↑(max 1 (linkParam K.jtxParams 3 s *
      2112)) = 0) ∧ (rd K.jrxState s = 3 ∨ rd K.jrxState s = 4 → ∀ (x : Lemc), s.jrx.lemc = some x → (↑edge - ↑x.edge) *
      ↑(linkParam K.jrxParams 4 s) % ↑(max 1 (linkParam K.jrxParams 3 s * 2112)) = 0)) ∧
    (∃ (edge : Nat) (s : State), rd K.jtxState s ≠ 2 ∧ rd K.jrxState s ≠ 2 ∧ ¬((rd K.jtxState s = 4 → ∀ (x : Lemc),
      s.jtx.lemc = some x → (↑edge - ↑x.edge) * ↑(linkParam K.jtxParams 4 s) % ↑(max 1 (linkParam K.jtxParams 3 s *
      2112)) = 0) ∧ (rd K.jrxState s = 3 ∨ rd K.jrxState s = 4 → ∀ (x : Lemc), s.jrx.lemc = some x → (↑edge - ↑x.edge) *
      ↑(linkParam K.jrxParams 4 s) % ↑(max 1 (linkParam K.jrxParams 3 s * 2112)) = 0)) ∧ rd K.jesdSysrefMode s = 1) ∧
    (∃ (edge : Nat) (s : State), rd K.jtxState s ≠ 2 ∧ rd K.jrxState s ≠ 2 ∧ ¬((rd K.jtxState s = 4 → ∀ (x : Lemc),
      s.jtx.lemc = some x → (↑edge - ↑x.edge) * ↑(linkParam K.jtxParams 4 s) % ↑(max 1 (linkParam K.jtxParams 3 s *
      2112)) = 0) ∧ (rd K.jrxState s = 3 ∨ rd K.jrxState s = 4 → ∀ (x : Lemc), s.jrx.lemc = some x → (↑edge - ↑x.edge) *
      ↑(linkParam K.jrxParams 4 s) % ↑(max 1 (linkParam K.jrxParams 3 s * 2112)) = 0)) ∧ rd K.jesdSysrefMode s = 2) ∧
    (∃ (edge : Nat) (s : State), rd K.jtxState s ≠ 2 ∧ rd K.jrxState s ≠ 2 ∧ ¬((rd K.jtxState s = 4 → ∀ (x : Lemc),
      s.jtx.lemc = some x → (↑edge - ↑x.edge) * ↑(linkParam K.jtxParams 4 s) % ↑(max 1 (linkParam K.jtxParams 3 s *
      2112)) = 0) ∧ (rd K.jrxState s = 3 ∨ rd K.jrxState s = 4 → ∀ (x : Lemc), s.jrx.lemc = some x → (↑edge - ↑x.edge) *
      ↑(linkParam K.jrxParams 4 s) % ↑(max 1 (linkParam K.jrxParams 3 s * 2112)) = 0)) ∧ rd K.jesdSysrefMode s = 0) ∧
    (∃ (k : Nat) (s : State), 0 < laneRate k s ∧ 0 < linkParam k 3 s) ∧
    (∃ (s : State), rd K.jrxState s = 3) ∧
    (∃ (s : State), rd K.jrxState s ≠ 3) ∧
    (∃ (s : State), rd K.jrxState s = 4) ∧
    (∃ (s : State), rd K.jrxState s ≠ 4) :=
  ⟨hostMeets s1 (by decide +kernel) (by decide +kernel),
   hostMeets s2 (by decide +kernel) (by decide +kernel),
   hostMeets s1 (by decide +kernel) (by decide +kernel),
   hostMeets s3 (by decide +kernel) (by decide +kernel),
   hostMeets s4 (by decide +kernel) (by decide +kernel),
   hostMeets s5 (by decide +kernel) (by decide +kernel),
   hostMeets s1 (by decide +kernel) (by decide +kernel),
   ⟨300000000, (by decide +kernel)⟩,
   ⟨s6, (by decide +kernel)⟩,
   ⟨s7, (by decide +kernel)⟩,
   ⟨0, ⟨s8, (by decide +kernel)⟩⟩,
   ⟨1, ⟨s9, (by decide +kernel)⟩⟩,
   ⟨1, ⟨s10, (by decide +kernel)⟩⟩,
   ⟨1, ⟨s11, (by decide +kernel)⟩⟩,
   ⟨0, ⟨s12, (by decide +kernel)⟩⟩,
   ⟨s13, (by decide +kernel)⟩,
   ⟨s8, (by decide +kernel)⟩,
   ⟨s14, (by decide +kernel)⟩,
   ⟨s8, (by decide +kernel)⟩⟩
end Witness.LinksComeUp

namespace Witness.SourcesAndReceiver
def im : SrcImg := { page := 3, chans := 1, nco := false, samples := 32, dataOff := 64, next := 0, first := 0 }
/-- A source in play at position 0, or as given. -/
def src (j : Jtx) : State :=
  { objs := [(K.jtxState, 4), (K.jtxPlay, 2), (K.jtxGroup, 0xFF)]
    jtx := { j with imgs := [im], asked := 100, closed := true, buffer := [(0, List.replicate 64 7)] } }
def sp : State := src { pos := 1 }
def sa : State := src { pos := 0 }
def sf : State := src { ftwNew := some (900, 0) }
def si : State :=
  { src { startAt := some 0 } with objs := [(K.jtxState, 4), (K.jtxPlay, 1), (K.jtxGroup, 0xFF)] }
def s1 : State :=
  { objs := [(K.ethLink 0, 1), (K.dramMappedBytes, 2 ^ 37), (K.jtxEn, 1), (K.jtxFirstPage, 3), (K.startStep, 8)],
    sessions := [sess 1] }
def s2 : State :=
  { objs := [(K.ethLink 0, 1), (K.jtxPlay, 2), (K.startStep, 8)], sessions := [sess 1] }
def s3 : State :=
  { objs := [(K.ethLink 0, 1), (K.jtxPlay, 1), (K.startStep, 8)], sessions := [sess 1] }
def s4 : State :=
  { objs := [(K.ethLink 0, 1), (K.startStep, 8)], sessions := [sess 1] }
def s5 : State :=
  { jtx := { arming := true,
             imgs := [{ page := 3, chans := 4, nco := false, samples := 32, dataOff := 64, next := 0,
                        first := 0 }],
             closed := true,
             buffer := [(0, [101, 200, 146, 181, 30, 122, 248, 92, 203, 238, 2, 112, 165, 10, 25, 251,
                             109, 164, 167, 119, 154, 210, 185, 48, 183, 109, 239, 109, 52, 247, 1, 157,
                             242, 23, 23, 200, 185, 15, 58, 127, 235, 64, 16, 155, 166, 37, 55, 242, 154,
                             225, 105, 93, 215, 194, 188, 57, 201, 215, 53, 177, 175, 246, 231, 10]),
                        (1, [46, 225, 181, 221, 132, 144, 247, 224, 219, 239, 254, 150, 11, 238, 78, 145,
                             127, 123, 215, 170, 111, 44, 101, 216, 26, 144, 186, 218, 74, 125, 135, 239,
                             84, 141, 137, 237, 227, 22, 10, 230, 197, 203, 12, 154, 247, 94, 79, 16, 61,
                             73, 128, 107, 124, 20, 206, 105, 15, 78, 27, 166, 111, 117, 29, 254]),
                        (2, [247, 250, 215, 4, 234, 166, 247, 100, 235, 241, 251, 189, 114, 209, 132, 39,
                             146, 83, 6, 221, 68, 135, 16, 129, 126, 179, 133, 71, 95, 2, 14, 64, 181, 3,
                             250, 19, 13, 29, 218, 76, 158, 87, 8, 154, 71, 152, 103, 45, 225, 177, 152,
                             121, 33, 103, 224, 153, 86, 198, 2, 156, 48, 244, 83, 243]),
                        (3, [193, 19, 249, 43, 79, 188, 246, 233, 251, 243, 247, 227, 217, 181, 185, 188,
                             165, 42, 53, 16, 25, 226, 187, 42, 225, 214, 80, 179, 117, 136, 148, 146, 23,
                             120, 108, 57, 55, 35, 171, 178, 119, 226, 4, 154, 152, 209, 127, 75, 132, 24,
                             176, 135, 199, 185, 241, 200, 156, 62, 233, 145, 241, 115, 137, 232])] } }
def s6 : State :=
  { }
def s7 : State :=
  { objs := [(K.jesdDevclkHz, 400000000), (K.jtxState, 5)] }
def s8 : State :=
  { objs := [(K.jtxState, 5)] }
def s9 : State :=
  { objs := [(K.jtxState, 4)] }
def s10 : State :=
  { objs := [(K.jtxState, 4), (K.jtxPlay, 2)],
    jtx := { imgs := [{ page := 3, chans := 4, nco := false, samples := 32, dataOff := 64, next := 0,
                        first := 0 }],
             closed := true, pos := 128 } }
def v11 : SrcImg :=
  { page := 3, chans := 4, nco := false, samples := 32, dataOff := 64, next := 0, first := 0 }
def s12 : State :=
  { objs := [(K.jtxState, 4), (K.jtxPlay, 2)],
    jtx := { imgs := [{ page := 3, chans := 4, nco := false, samples := 32, dataOff := 64, next := 0,
                        first := 4 }] } }
def v13 : SrcImg :=
  { page := 3, chans := 4, nco := false, samples := 32, dataOff := 64, next := 0, first := 4 }
def s14 : State :=
  { objs := [(K.ethLink 0, 1), (K.startStep, 8)], sessions := [{ sess 1 with expert := true }] }
def s15 : State :=
  { objs := [(K.ethLink 0, 1), (K.jtxPlay, 2), (K.startStep, 8)], sessions := [{ sess 1 with expert := true }] }
def s16 : State :=
  { objs := [(K.ethLink 0, 1), (K.jtxPlay, 2), (K.jtxNcoFtw, 1099511627785), (K.startStep, 8)],
    sessions := [{ sess 1 with expert := true }] }
def s17 : State :=
  { objs := [(K.ethLink 0, 1), (K.jesdDevclkHz, 400000000), (K.startStep, 8)], sessions := [sess 1] }
def s18 : State :=
  { objs := [(K.ethLink 0, 1), (K.jrxEn, 1), (K.startStep, 8)], sessions := [sess 1] }
def s19 : State :=
  { objs := [(K.ethLink 0, 1), (K.jrxEn, 1), (K.startStep, 8)], jrx := { stopAt := some (0, true) },
    sessions := [sess 1] }
def s20 : State :=
  { objs := [(K.jrxState, 4)] }
def s21 : State :=
  { objs := [(K.jrxState, 4)], jrx := { capturing := true } }
def s22 : State :=
  { objs := [(K.jrxState, 4)], jrx := { capturing := true, part := [1, 2, 3, 4, 5, 6, 7] } }
def s23 : State :=
  { objs := [(K.jrxState, 4), (K.jrxDest, 1)], blobs := [(10493954, [1, 2, 1, 1, 20])], jrx := { capturing := true } }
def s24 : State :=
  { objs := [(K.jrxState, 4), (K.jrxMode, 1), (K.jrxRecUnits, 5)],
    jrx := { recorded := 4, part := [1, 2, 3, 4, 5, 6, 7], stopAt := some (0, true) } }
theorem witness_SourcesAndReceiver :
    (HostMeets opWrite K.jtxCmd [1] 1 false fun _ s => (rd K.jtxEn s = 1 ∧ rd K.jtxState s ≠ 5 ∧ rd K.jtxPlay s = 0 ∧
      s.jtx.arming = false) ∧ (∀ (r : DReq), r ∈ s.dram.reqs → r.port ≠ 2) ∧ mapped (4096 * rd K.jtxFirstPage s) 64 s =
      true) ∧
    (HostMeets opWrite K.jtxCmd [1] 1 false fun _ s => ¬(rd K.jtxEn s = 1 ∧ rd K.jtxState s ≠ 5 ∧ rd K.jtxPlay s = 0 ∧
      s.jtx.arming = false)) ∧
    (HostMeets opWrite K.jtxCmd [2] 1 false fun _ s => rd K.jtxPlay s = 1) ∧
    (HostMeets opWrite K.jtxCmd [2] 1 false fun _ s => rd K.jtxPlay s ≠ 1) ∧
    (HostMeets opWrite K.jtxCmd [3] 1 false fun _ s => ∀ (r : DReq), r ∈ s.dram.reqs → r.port ≠ 2) ∧
    (∃ (s : State), s.jtx.arming = true ∧ s.jtx.imgs ≠ [] ∧ (s.jtx.closed = true ∨ min 8192 (chainEnd s) = 8192) ∧
      List.length s.jtx.buffer = min 8192 (chainEnd s)) ∧
    (∃ (s : State), s.jtx.arming = false ∨ ¬(s.jtx.imgs ≠ [] ∧ (s.jtx.closed = true ∨ min 8192 (chainEnd s) = 8192) ∧
      List.length s.jtx.buffer = min 8192 (chainEnd s))) ∧
    (∃ (s : State), rd K.jtxState s = 5 ∧ rd K.jesdDevclkHz s ≠ 0) ∧
    (∃ (s : State), rd K.jtxState s = 5 ∧ rd K.jesdDevclkHz s = 0) ∧
    (∃ (s : State), rd K.jtxState s = 4 ∧ rd K.jtxPlay s ≠ 2 ∧ (rd K.jtxPlay s = 1 → ∀ (a : Nat), s.jtx.startAt = some
      a → s.now < a)) ∧
    (∃ (s : State), rd K.jtxState s < 4) ∧
    (∃ (s : State) (i : SrcImg) (rest : List SrcImg), rd K.jtxState s = 4 ∧ dropPlayed s.jtx.pos s.jtx.imgs = i :: rest
      ∧ rd K.jtxPlay s = 2 ∧ s.jtx.pos = (i.first + i.bursts) * 32 ∧ rest = [] ∧ s.jtx.closed = true ∧ ∀ (r : DReq), r ∈
      s.dram.reqs → r.port ≠ 2) ∧
    (∃ (s : State) (i : SrcImg) (rest : List SrcImg), rd K.jtxState s = 4 ∧ dropPlayed s.jtx.pos s.jtx.imgs = i :: rest
      ∧ rd K.jtxPlay s = 2 ∧ (s.jtx.pos = (i.first + i.bursts) * 32 ∧ s.jtx.closed = false ∨ s.jtx.pos ≠ (i.first +
      i.bursts) * 32 ∧ ∃ (c : Nat), c < i.chans ∧ sourceVal (s.jtx.pos + c) s = none)) ∧
    (∃ (s : State) (i : SrcImg) (rest : List SrcImg) (v : Nat → Nat), rd K.jtxState s = 4 ∧ dropPlayed s.jtx.pos
      s.jtx.imgs = i :: rest ∧ rd K.jtxPlay s = 2 ∧ i.first * 32 < s.jtx.pos ∧ s.jtx.closed = true ∧ chainEnd s ≤
      s.jtx.asked ∧ 0 < i.chans ∧ s.jtx.pos + i.chans ≤ (i.first + i.bursts) * 32 ∧ ∀ (c : Nat), c < i.chans → sourceVal
      (s.jtx.pos + c) s = some (v c)) ∧
    (∃ (s : State) (i : SrcImg) (rest : List SrcImg) (v : Nat → Nat), rd K.jtxState s = 4 ∧ dropPlayed s.jtx.pos
      s.jtx.imgs = i :: rest ∧ rd K.jtxPlay s = 2 ∧ s.jtx.pos = i.first * 32 ∧ (s.jtx.closed = true ∧ chainEnd s ≤
      s.jtx.asked ∧ 0 < i.chans ∧ s.jtx.pos + i.chans ≤ (i.first + i.bursts) * 32 ∧ ∀ (c : Nat), c < i.chans → sourceVal
      (s.jtx.pos + c) s = some (v c)) ∧ (rd K.jtxGroup s ≠ 255 ∨ s.jtx.ftwNew = none)) ∧
    (∃ (s : State) (i : SrcImg) (rest : List SrcImg) (v : Nat → Nat), rd K.jtxState s = 4 ∧ dropPlayed s.jtx.pos
      s.jtx.imgs = i :: rest ∧ rd K.jtxPlay s = 2 ∧ ∃ (f : Nat) (a : Nat), s.jtx.pos = i.first * 32 ∧ (s.jtx.closed =
      true ∧ chainEnd s ≤ s.jtx.asked ∧ 0 < i.chans ∧ s.jtx.pos + i.chans ≤ (i.first + i.bursts) * 32 ∧ ∀ (c : Nat), c <
      i.chans → sourceVal (s.jtx.pos + c) s = some (v c)) ∧ rd K.jtxGroup s = 255 ∧ s.jtx.ftwNew = some (f, a) ∧ f < 2 ^
      48) ∧
    (∃ (s : State) (i : SrcImg) (rest : List SrcImg) (v : Nat → Nat), rd K.jtxState s = 4 ∧ dropPlayed s.jtx.pos
      s.jtx.imgs = i :: rest ∧ ∃ (a : Nat), rd K.jtxPlay s = 1 ∧ s.jtx.startAt = some a ∧ a ≤ s.now ∧ s.jtx.pos =
      i.first * 32 ∧ (s.jtx.closed = true ∧ chainEnd s ≤ s.jtx.asked ∧ 0 < i.chans ∧ s.jtx.pos + i.chans ≤ (i.first +
      i.bursts) * 32 ∧ ∀ (c : Nat), c < i.chans → sourceVal (s.jtx.pos + c) s = some (v c)) ∧ (rd K.jtxGroup s ≠ 255 ∨
      s.jtx.ftwNew = none)) ∧
    (∃ (i : Nat) (s : State), i < linkParam K.jtxParams 0 s) ∧
    (∃ (p : Bytes), List.length p = 8 ∧ leNat p < 2 ^ 48 ∧ HostMeets opWrite K.jtxNcoFtw p 1 true fun _ s => rd
      K.jtxPlay s = 0) ∧
    (∃ (p : Bytes), List.length p = 8 ∧ leNat p < 2 ^ 48 ∧ HostMeets opWrite K.jtxNcoFtw p 1 true fun _ s => rd
      K.jtxPlay s ≠ 0 ∧ leNat p ≠ rd K.jtxNcoFtw s) ∧
    (∃ (p : Bytes), List.length p = 8 ∧ leNat p < 2 ^ 48 ∧ HostMeets opWrite K.jtxNcoFtw p 1 true fun _ s => rd
      K.jtxPlay s ≠ 0 ∧ leNat p = rd K.jtxNcoFtw s) ∧
    (∃ (p : Bytes), List.length p = 8 ∧ HostMeets opWrite K.jtxNcoFreqHz p 1 false fun _ s => rd K.jtxPlay s = 0 ∧
      (sampleRate K.jtxParams s).fst ≠ 0 ∧ (2 * (leNat p * 2 ^ 48 * (sampleRate K.jtxParams s).snd) + 1000 * (sampleRate
      K.jtxParams s).fst) / (2 * (1000 * (sampleRate K.jtxParams s).fst)) < 2 ^ 48) ∧
    (HostMeets opWrite K.jrxCmd [1] 1 false fun _ s => rd K.jrxEn s = 1 ∧ rd K.jrxState s ≠ 5 ∧ ∀ (x : Nat × Bool),
      s.jrx.stopAt = some x → x.fst ≠ sysCycle s) ∧
    (HostMeets opWrite K.jrxCmd [1] 1 false fun _ s => rd K.jrxEn s = 1 ∧ rd K.jrxState s ≠ 5 ∧ ∃ (x : Nat × Bool),
      s.jrx.stopAt = some x ∧ x.fst = sysCycle s) ∧
    (HostMeets opWrite K.jrxCmd [1] 1 false fun _ s => rd K.jrxEn s ≠ 1 ∨ rd K.jrxState s = 5) ∧
    (HostMeets opWrite K.jrxCmd [2] 1 false fun _ _ => True) ∧
    (∃ (vals : List (BitVec 16)) (s : State), rd K.jrxState s ≠ 4 ∨ vals.length ≠ linkParam K.jrxParams 1 s) ∧
    (∃ (vals : List (BitVec 16)) (s : State), rd K.jrxState s = 4 ∧ vals.length = linkParam K.jrxParams 1 s ∧ (captures
      (linkParam K.jrxParams 1 s) s = false ∨ fenced (if rd K.jrxDest s = 0 then rd K.jrxUnit s else 16 + rd K.jrxUnit
      s) s = true ∨ s.now < s.jrx.base)) ∧
    (∃ (vals : List (BitVec 16)) (s : State), (rd K.jrxState s = 4 ∧ vals.length = linkParam K.jrxParams 1 s ∧ fenced
      (if rd K.jrxDest s = 0 then rd K.jrxUnit s else 16 + rd K.jrxUnit s) s = false ∧ s.jrx.base ≤ s.now) ∧
      s.jrx.capturing = true ∧ (rd K.jrxMode s = 0 ∨ 0 < rd K.jrxRecUnits s) ∧ (s.jrx.part ++ List.map (fun (x : BitVec
      16) => x.toNat) vals).length < if rd K.jrxDest s = 0 then 8 else 2) ∧
    (∃ (vals : List (BitVec 16)) (s : State), (rd K.jrxState s = 4 ∧ vals.length = linkParam K.jrxParams 1 s ∧ fenced
      (if rd K.jrxDest s = 0 then rd K.jrxUnit s else 16 + rd K.jrxUnit s) s = false ∧ s.jrx.base ≤ s.now) ∧
      s.jrx.capturing = true ∧ (rd K.jrxMode s = 0 ∨ 0 < rd K.jrxRecUnits s) ∧ (if rd K.jrxDest s = 0 then 8 else 2) ≤
      (s.jrx.part ++ List.map (fun (x : BitVec 16) => x.toNat) vals).length ∧ (s.jrx.part ++ List.map (fun (x : BitVec
      16) => x.toNat) vals).length < 2 * if rd K.jrxDest s = 0 then 8 else 2) ∧
    (∃ (vals : List (BitVec 16)) (s : State), (rd K.jrxState s = 4 ∧ vals.length = linkParam K.jrxParams 1 s ∧ fenced
      (if rd K.jrxDest s = 0 then rd K.jrxUnit s else 16 + rd K.jrxUnit s) s = false ∧ s.jrx.base ≤ s.now) ∧
      s.jrx.capturing = true ∧ rd K.jrxDest s ≠ 0 ∧ rd K.jrxMode s = 0 ∧ s.jrx.part = [] ∧ linkParam K.jrxParams 1 s % 2
      = 0 ∧ 0 < linkParam K.jrxParams 1 s ∧ (rd K.jrxWr s + linkParam K.jrxParams 1 s / 2 < rd K.jrxLen s / 2 ∨ rd
      K.jrxLen s / 2 ≤ rd K.jrxWr s ∧ rd K.jrxWr s + linkParam K.jrxParams 1 s / 2 < rd K.jrxLen s)) ∧
    (∃ (vals : List (BitVec 16)) (s : State), s.jrx.capturing = false ∧ s.jrx.stopAt = some (sysCycle s, true) ∧ (rd
      K.jrxState s = 4 ∧ vals.length = linkParam K.jrxParams 1 s ∧ fenced (if rd K.jrxDest s = 0 then rd K.jrxUnit
      s else 16 + rd K.jrxUnit s) s = false ∧ s.jrx.base ≤ s.now) ∧ endsRecord (linkParam K.jrxParams 1 s) s = true) :=
  ⟨hostMeets s1 (by decide +kernel) (by decide +kernel),
   hostMeets s2 (by decide +kernel) (by decide +kernel),
   hostMeets s3 (by decide +kernel) (by decide +kernel),
   hostMeets s4 (by decide +kernel) (by decide +kernel),
   hostMeets s4 (by decide +kernel) (by decide +kernel),
   ⟨s5, (by decide +kernel)⟩,
   ⟨s6, (by decide +kernel)⟩,
   ⟨s7, (by decide +kernel)⟩,
   ⟨s8, (by decide +kernel)⟩,
   ⟨s9, (by decide +kernel)⟩,
   ⟨s6, (by decide +kernel)⟩,
   ⟨s10, ⟨v11, ⟨[], (by decide +kernel)⟩⟩⟩,
   ⟨s12, ⟨v13, ⟨[], (by decide +kernel)⟩⟩⟩,
   ⟨sp, im, [], fun c => (sourceVal (sp.jtx.pos + c) sp).getD 0,
     by decide +kernel, by decide +kernel, by decide +kernel⟩,
   ⟨sa, im, [], fun c => (sourceVal (sa.jtx.pos + c) sa).getD 0,
     by decide +kernel, by decide +kernel, by decide +kernel⟩,
   ⟨sf, im, [], fun c => (sourceVal (sf.jtx.pos + c) sf).getD 0,
     by decide +kernel, by decide +kernel, by decide +kernel, 900, 0, by decide +kernel⟩,
   ⟨si, im, [], fun c => (sourceVal (si.jtx.pos + c) si).getD 0,
     by decide +kernel, by decide +kernel, 0, by decide +kernel⟩,
   ⟨0, ⟨s6, (by decide +kernel)⟩⟩,
   ⟨[9, 0, 0, 0, 0, 1, 0, 0], ⟨(by decide +kernel), ⟨(by decide +kernel), (hostMeets s14 (by decide +kernel)
     (by decide +kernel))⟩⟩⟩,
   ⟨[135, 214, 18, 0, 0, 0, 0, 0], ⟨(by decide +kernel), ⟨(by decide +kernel), (hostMeets s15 (by decide +kernel)
     (by decide +kernel))⟩⟩⟩,
   ⟨[9, 0, 0, 0, 0, 1, 0, 0], ⟨(by decide +kernel), ⟨(by decide +kernel), (hostMeets s16 (by decide +kernel)
     (by decide +kernel))⟩⟩⟩,
   ⟨[135, 214, 18, 0, 0, 0, 0, 0], ⟨(by decide +kernel), (hostMeets s17 (by decide +kernel) (by decide +kernel))⟩⟩,
   hostMeets s18 (by decide +kernel) (by decide +kernel),
   hostMeets s19 (by decide +kernel) (by decide +kernel),
   hostMeets s4 (by decide +kernel) (by decide +kernel),
   hostMeets s4 (by decide +kernel) (by decide +kernel),
   ⟨[], ⟨s6, (by decide +kernel)⟩⟩,
   ⟨[1], ⟨s20, (by decide +kernel)⟩⟩,
   ⟨[1], ⟨s21, (by decide +kernel)⟩⟩,
   ⟨[1], ⟨s22, (by decide +kernel)⟩⟩,
   ⟨[32769, 7], ⟨s23, (by decide +kernel)⟩⟩,
   ⟨[1], ⟨s24, (by decide +kernel)⟩⟩⟩
end Witness.SourcesAndReceiver

namespace Witness.CalibrationRuns
def sc : State :=
  { objs := [(K.calGrpTemp (sensorOf 7), 500), (K.startStep, 9)], cal := { slot := 7 }
    otp := { factory := [(42, 10, 20, -30, 40)] } }
def sn : State :=
  { objs := [(K.startStep, 9)], cal := { slot := 7, paths := [(42, { invalid := 2 })] } }
/-- Two paths of channel 50 lag, the second for longer. -/
def sl : State := { cal := { lagAt := [(300, 9), (301, 5)] } }
theorem lagsFirst {q b : Nat} (h : Tab.find (6 * 50 + q) sl.cal.lagAt = some b) : 5 ≤ b := by
  simp only [sl, Tab.find] at h
  split at h
  · cases h; decide
  · split at h
    · cases h; decide
    · cases h
def s1 : State :=
  { objs := [(K.fltFenced, 1), (K.startStep, 9)], cal := { slot := 7 } }
def s2 : State :=
  { objs := [(K.startStep, 5)] }
def s3 : State :=
  { objs := [(K.startStep, 9)] }
def s4 : State :=
  { otp := { factory := [(42, 10, 20, -30, 40), (46, 14, 8, -30, 40), (47, 15, 5, -30, 40)] } }
def s5 : State :=
  { objs := [(K.sysMode 4, 3)],
    otp := { factory := [(1560, 10, 20, -30, 40), (1564, 14, 8, -30, 40), (1565, 15, 5, -30, 40)] } }
def s6 : State :=
  { objs := [(K.runState 3, 3)], now := 100000, seqs := [(3, { live := true })] }
def s7 : State :=
  { objs := [(K.sysCalHold 7, 1)] }
theorem witness_CalibrationRuns :
    (∃ (x : CalPath), x.step = 32) ∧
    (∃ (slot : Fin 264) (s : State), ↑slot = s.cal.slot ∧ 9 ≤ rd K.startStep s ∧ ¬(↑slot < 256 → fenced (↑slot / 16) s
      = false)) ∧
    (∃ (slot : Fin 264), ∃ (found : List (Option (Int × Nat))), ∃ (s : State), ↑slot = s.cal.slot ∧ 9 ≤ rd K.startStep
      s ∧ (↑slot < 256 → fenced (↑slot / 16) s = false) ∧ ∀ (p : Nat), p < pathsOf ↑slot → (∀ (v : Int) (k : Nat),
      found[p]?.join = some (v, k) → targetOk (interpolated (factory (↑slot) p s) (reading (↑slot) s) + if 256 ≤ ↑slot ∧
      rd (K.sysCalHold (↑slot - 256)) s = 1 then (calPath (↑slot) p s).r else (calPath (↑slot) p s).r - v) = true) ∧
      (found[p]?.join = none → (calPath (↑slot) p s).invalid ≠ 2)) ∧
    (∃ (slot : Fin 264), ∃ (found : List (Option (Int × Nat))), ∃ (s : State), ↑slot = s.cal.slot ∧ 9 ≤ rd K.startStep
      s ∧ (↑slot < 256 → fenced (↑slot / 16) s = false) ∧ ↑slot < 256 ∧ found = [none] ∧ (calPath (↑slot) 0 s).invalid =
      2 ∧ ∀ (p : Nat), 0 < p → p < pathsOf ↑slot → (calPath (↑slot) p s).invalid ≠ 2) ∧
    (∃ (g : Fin 16) (v : Int) (s : State), -32768 ≤ v ∧ v ≤ 32767 ∧ 4 ≤ rd K.startStep s ∧ (∀ (n : Nat), n ∈ slotsOf ↑g
      → ∀ (p : Nat), p < pathsOf n → targetOk (interpolated (factory n p s) v + (calPath n p s).r) = true) ∧ (∀ (m :
      Nat), m < 16 → (if m = ↑g then v else toSigned 16 (rd (K.thsTemp m) s)) < 824) ∧ rd K.startFail s ≠ 5) ∧
    (∃ (g : Fin 16) (v : Int) (s : State), -32768 ≤ v ∧ v ≤ 32767 ∧ 4 ≤ rd K.startStep s ∧ (∀ (n : Nat), n ∈ slotsOf ↑g
      → ∀ (p : Nat), p < pathsOf n → targetOk (interpolated (factory n p s) v + (calPath n p s).r) = true) ∧ (∃ (m :
      Nat), m < 16 ∧ 840 ≤ if m = ↑g then v else toSigned 16 (rd (K.thsTemp m) s)) ∧ (∀ (m : Nat), m < 16 → (if m =
      ↑g then v else toSigned 16 (rd (K.thsTemp m) s)) < 880) ∧ rd K.startFail s ≠ 5) ∧
    (∃ (g : Fin 16) (v : Int) (s : State), -32768 ≤ v ∧ v ≤ 32767 ∧ 4 ≤ rd K.startStep s ∧ (∀ (n : Nat), n ∈ slotsOf ↑g
      → ∀ (p : Nat), p < pathsOf n → targetOk (interpolated (factory n p s) v + (calPath n p s).r) = true) ∧ (∃ (m :
      Nat), m < 16 ∧ 920 ≤ if m = ↑g then v else toSigned 16 (rd (K.thsTemp m) s)) ∧ 8 ≤ rd K.startStep s) ∧
    (∃ (g : Fin 16) (v : Int) (s : State), -32768 ≤ v ∧ v ≤ 32767 ∧ 4 ≤ rd K.startStep s ∧ (∀ (n : Nat), n ∈ slotsOf ↑g
      → ∀ (p : Nat), p < pathsOf n → targetOk (interpolated (factory n p s) v + (calPath n p s).r) = true) ∧ (∃ (m :
      Nat), m < 16 ∧ 920 ≤ if m = ↑g then v else toSigned 16 (rd (K.thsTemp m) s)) ∧ rd K.startStep s < 8 ∧ rd
      K.startFail s = 0 ∧ s.flt.active.contains 17 = false) ∧
    (∃ (slot : Fin 264) (p : Fin 6) (s : State), ↑p < pathsOf ↑slot ∧ calHeld (↑slot) s = false ∧ targetOk (target
      (↑slot) (↑p) s) = true ∧ jumps (↑slot) s = true ∧ target (↑slot) (↑p) s ≠ (calPath (↑slot) (↑p) s).c) ∧
    (∃ (slot : Fin 264) (p : Fin 6) (s : State), ↑p < pathsOf ↑slot ∧ calHeld (↑slot) s = false ∧ targetOk (target
      (↑slot) (↑p) s) = true ∧ jumps (↑slot) s = false ∧ target (↑slot) (↑p) s ≠ (calPath (↑slot) (↑p) s).c ∧
      atCycleStart (↑slot) s = true ∧ pathQuiet (↑slot) (↑p) s = true ∧ ∀ (m : Nat), (calPath (↑slot) (↑p) s).moved =
      some m → m + 65536 ≤ s.now) ∧
    (∃ (slot : Fin 264) (p : Fin 6) (s : State), ↑p < pathsOf ↑slot ∧ calHeld (↑slot) s = false ∧ targetOk (target
      (↑slot) (↑p) s) = true ∧ jumps (↑slot) s = false ∧ (atCycleStart (↑slot) s = false ∨ pathQuiet (↑slot) (↑p) s =
      false ∨ ∃ (m : Nat), (calPath (↑slot) (↑p) s).moved = some m ∧ s.now < m + 65536)) ∧
    (∃ (slot : Fin 264) (s : State), calHeld (↑slot) s = true) ∧
    (∃ (n : Fin 256) (s : State) (p : Nat) (a : Nat), (p < pathsOf ↑n ∧ Tab.find (6 * ↑n + p) s.cal.lagAt = some a) ∧
      (∀ (q b : Nat), q < pathsOf ↑n ∧ Tab.find (6 * ↑n + q) s.cal.lagAt = some b → a ≤ b) ∧ s.cal.lagging.contains ↑n =
      false ∧ (mode (↑n / 16) s = 2 → ↑n % 2 = 0) ∧ fenced (↑n / 16) s = false) ∧
    (∃ (n : Fin 256) (s : State), s.cal.lagging.contains ↑n = true ∨ fenced (↑n / 16) s = true ∨ mode (↑n / 16) s = 2 ∧
      ↑n % 2 = 1 ∨ ∀ (p a : Nat), ¬(p < pathsOf ↑n ∧ Tab.find (6 * ↑n + p) s.cal.lagAt = some a)) :=
  ⟨⟨{}, (by decide +kernel)⟩,
   ⟨7, ⟨s1, (by decide +kernel)⟩⟩,
   ⟨7, [some (0, 32)], sc, by decide +kernel, by decide +kernel, by decide +kernel, fun p _ =>
    ⟨fun v k h => by
        rcases p with _ | p <;> simp at h
        rw [← h.1]; decide +kernel,
      fun h => by
        rcases p with _ | p
        · simp at h
        · show (0 : Nat) ≠ 2; decide⟩⟩,
   ⟨7, [none], sn, by decide +kernel, by decide +kernel, by decide +kernel, by decide +kernel, rfl, by decide +kernel, fun p h0 _ => by
    rcases p with _ | p
    · cases h0
    · show (Tab.get ({} : CalPath) (6 * 7 + (p + 1)) [(42, { invalid := 2 })]).invalid ≠ 2
      simp [Tab.get]⟩,
   ⟨0, ⟨823, ⟨s2, (by decide +kernel)⟩⟩⟩,
   ⟨3, ⟨840, ⟨s3, (by decide +kernel)⟩⟩⟩,
   ⟨0, ⟨920, ⟨s3, (by decide +kernel)⟩⟩⟩,
   ⟨0, ⟨920, ⟨s2, (by decide +kernel)⟩⟩⟩,
   ⟨7, ⟨0, ⟨s4, (by decide +kernel)⟩⟩⟩,
   ⟨260, ⟨0, ⟨s5, (by decide +kernel)⟩⟩⟩,
   ⟨50, ⟨0, ⟨s6, (by decide +kernel)⟩⟩⟩,
   ⟨263, ⟨s7, (by decide +kernel)⟩⟩,
   ⟨50, sl, 1, 5,
     by decide +kernel, fun q b h => lagsFirst h.2, by decide +kernel, by decide +kernel, by decide +kernel⟩,
   ⟨51, {}, .inr (.inr (.inr fun p a h => by simp [Tab.find] at h))⟩⟩
end Witness.CalibrationRuns

namespace Witness.SystemRecords
def s1 : State :=
  { objs := [(K.ethLink 0, 1), (K.startStep, 8)],
    cal := { paths := [(1566, { c := 23, r := -2, conv := true }), (1567, { c := -505, r := -2, conv := true })] },
    sessions := [sess 1] }
def s2 : State :=
  { objs := [(K.ethLink 0, 1), (K.startStep, 8)], sessions := [sess 1] }
def s3 : State :=
  { objs := [(K.ethLink 0, 1), (K.sysMode 5, 1), (K.startStep, 8)], sessions := [{ sess 1 with expert := true }] }
def s4 : State :=
  { objs := [(K.ethLink 0, 1), (K.startStep, 8)], sessions := [{ sess 1 with expert := true }] }
def s5 : State :=
  { objs := [(K.ethLink 0, 1), (K.startStep, 8)], sessions := [{ sess 1 with expert := true }],
    otp := { uidTag := 3735928559 } }
theorem witness_SystemRecords :
    (∃ (k : Fin 8), HostMeets opRead (K.sysCalRec ↑k) [] 0 false fun _ s => slotStatus (256 + ↑k) s = 1) ∧
    (∃ (k : Fin 8), HostMeets opRead (K.sysCalRec ↑k) [] 0 false fun _ s => slotStatus (256 + ↑k) s ≠ 1) ∧
    (∃ (k : Fin 8) (b : Bytes), List.length b = 32 ∧ HostMeets opWrite (K.sysCalRec ↑k) b 1 true fun _ s => rd
      (K.sysMode ↑k) s ≠ 0 ∨ rd (K.sysCalHold ↑k) s ≠ 0) ∧
    (∃ (k : Fin 8) (b : Bytes), List.length b = 32 ∧ ReqMeets opWrite (K.sysCalRec ↑k) b fun _ x s => indexExists
      (K.sysCalRec ↑k) s = true ∧ 1 ≤ x.role ∧ x.expert = true ∧ rd (K.sysMode ↑k) s = 0 ∧ rd (K.sysCalHold ↑k) s = 0 ∧
      ¬(leAt 0 4 b = 1263813441 ∧ leAt 4 1 b = 1 ∧ leAt 5 1 b = ↑k ∧ leAt 6 2 b = 0 ∧ leAt 14 2 b = 0 ∧ leAt 20 8 b = 0)) ∧
    (∃ (k : Fin 8) (b : Bytes), List.length b = 32 ∧ ReqMeets opWrite (K.sysCalRec ↑k) b fun _ x s => indexExists
      (K.sysCalRec ↑k) s = true ∧ 1 ≤ x.role ∧ x.expert = true ∧ rd (K.sysMode ↑k) s = 0 ∧ rd (K.sysCalHold ↑k) s = 0 ∧
      (leAt 0 4 b = 1263813441 ∧ leAt 4 1 b = 1 ∧ leAt 5 1 b = ↑k ∧ leAt 6 2 b = 0 ∧ leAt 14 2 b = 0 ∧ leAt 20 8 b = 0)
      ∧ ¬leAt 28 4 b = crc32c (List.take 28 b)) ∧
    (∃ (k : Fin 8) (b : Bytes), List.length b = 32 ∧ ReqMeets opWrite (K.sysCalRec ↑k) b fun _ x s => indexExists
      (K.sysCalRec ↑k) s = true ∧ 1 ≤ x.role ∧ x.expert = true ∧ rd (K.sysMode ↑k) s = 0 ∧ rd (K.sysCalHold ↑k) s = 0 ∧
      (leAt 0 4 b = 1263813441 ∧ leAt 4 1 b = 1 ∧ leAt 5 1 b = ↑k ∧ leAt 6 2 b = 0 ∧ leAt 14 2 b = 0 ∧ leAt 20 8 b = 0)
      ∧ leAt 28 4 b = crc32c (List.take 28 b) ∧ ¬leAt 8 4 b = s.otp.uidTag) ∧
    (∃ (k : Fin 8) (b : Bytes), List.length b = 32 ∧ ReqMeets opWrite (K.sysCalRec ↑k) b fun _ x s => indexExists
      (K.sysCalRec ↑k) s = true ∧ 1 ≤ x.role ∧ x.expert = true ∧ rd (K.sysMode ↑k) s = 0 ∧ rd (K.sysCalHold ↑k) s = 0 ∧
      (leAt 0 4 b = 1263813441 ∧ leAt 4 1 b = 1 ∧ leAt 5 1 b = ↑k ∧ leAt 6 2 b = 0 ∧ leAt 14 2 b = 0 ∧ leAt 20 8 b = 0)
      ∧ leAt 28 4 b = crc32c (List.take 28 b) ∧ leAt 8 4 b = s.otp.uidTag ∧ ¬(targetOk (interpolated (factory (256 + ↑k)
      0 s) (reading (256 + ↑k) s) + toSigned 16 (leAt (16 + 2 * 0) 2 b)) = true ∧ targetOk (interpolated (factory (256 +
      ↑k) 1 s) (reading (256 + ↑k) s) + toSigned 16 (leAt (16 + 2 * 1) 2 b)) = true)) ∧
    (∃ (k : Fin 8) (b : Bytes), List.length b = 32 ∧ HostMeets opWrite (K.sysCalRec ↑k) b 1 true fun _ s => rd
      (K.sysMode ↑k) s = 0 ∧ rd (K.sysCalHold ↑k) s = 0 ∧ (leAt 0 4 b = 1263813441 ∧ leAt 4 1 b = 1 ∧ leAt 5 1 b = ↑k ∧
      leAt 6 2 b = 0 ∧ leAt 14 2 b = 0 ∧ leAt 20 8 b = 0) ∧ leAt 28 4 b = crc32c (List.take 28 b) ∧ leAt 8 4 b =
      s.otp.uidTag ∧ targetOk (interpolated (factory (256 + ↑k) 0 s) (reading (256 + ↑k) s) + toSigned 16 (leAt (16 + 2
      * 0) 2 b)) = true ∧ targetOk (interpolated (factory (256 + ↑k) 1 s) (reading (256 + ↑k) s) + toSigned 16 (leAt (16
      + 2 * 1) 2 b)) = true) ∧
    (∃ (k : Fin 8) (v : Byte), BitVec.toNat v ≤ 1 ∧ HostMeets opWrite (K.sysCalHold ↑k) [v] 1 false fun _ _ => True) :=
  ⟨⟨5, (hostMeets s1 (by decide +kernel) (by decide +kernel))⟩,
   ⟨0, (hostMeets s2 (by decide +kernel) (by decide +kernel))⟩,
   ⟨5, ⟨[65, 67, 84, 75, 1, 5, 0, 0, 239, 190, 173, 222, 99, 0, 0, 0, 5, 0, 7, 0, 0, 0, 0, 0, 0, 0, 0, 0, 199, 196,
     101, 228], ⟨(by decide +kernel), (hostMeets s3 (by decide +kernel) (by decide +kernel))⟩⟩⟩,
   ⟨0, ⟨[65, 67, 84, 75, 1, 5, 0, 0, 239, 190, 173, 222, 99, 0, 0, 0, 5, 0, 7, 0, 0, 0, 0, 0, 0, 0, 0, 0, 199, 196,
     101, 228], ⟨(by decide +kernel), (reqMeets s4 (by decide +kernel) (by decide +kernel))⟩⟩⟩,
   ⟨5, ⟨[65, 67, 84, 75, 1, 5, 0, 0, 239, 190, 173, 222, 99, 0, 0, 0, 5, 0, 7, 0, 0, 0, 0, 0, 0, 0, 0, 0, 199, 196,
     101, 0], ⟨(by decide +kernel), (reqMeets s4 (by decide +kernel) (by decide +kernel))⟩⟩⟩,
   ⟨5, ⟨[65, 67, 84, 75, 1, 5, 0, 0, 224, 190, 173, 222, 99, 0, 0, 0, 5, 0, 7, 0, 0, 0, 0, 0, 0, 0, 0, 0, 237, 201,
     93, 223], ⟨(by decide +kernel), (reqMeets s4 (by decide +kernel) (by decide +kernel))⟩⟩⟩,
   ⟨5, ⟨[65, 67, 84, 75, 1, 5, 0, 0, 239, 190, 173, 222, 99, 0, 0, 0, 5, 0, 232, 253, 0, 0, 0, 0, 0, 0, 0, 0, 196,
     202, 103, 250], ⟨(by decide +kernel), (reqMeets s5 (by decide +kernel) (by decide +kernel))⟩⟩⟩,
   ⟨5, ⟨[65, 67, 84, 75, 1, 5, 0, 0, 239, 190, 173, 222, 99, 0, 0, 0, 5, 0, 7, 0, 0, 0, 0, 0, 0, 0, 0, 0, 199, 196,
     101, 228], ⟨(by decide +kernel), (hostMeets s5 (by decide +kernel) (by decide +kernel))⟩⟩⟩,
   ⟨0, ⟨0, ⟨(by decide +kernel), (hostMeets s2 (by decide +kernel) (by decide +kernel))⟩⟩⟩⟩
end Witness.SystemRecords

namespace Witness.FaultsAreCollected
/-- A spilled item stands in DRAM. -/
def sq : State :=
  { objs := [(K.startStep, 8)], queues := [(5, { items := [{ words := [1], slot := some 0 }] })] }
def sg : State :=
  { objs := [(K.startStep, 8), (K.runState 0, 3)], seqs := [(0, { live := true, played := 5 })] }
def s1 : State :=
  { objs := [(K.startStep, 9)] }
def s2 : State :=
  { objs := [(K.startStep, 9)], flt := { active := [8, 1, 300] } }
def s3 : State :=
  { objs := [(K.startStep, 5)] }
def s4 : State :=
  { objs := [(K.ethLink 0, 1)] }
def s5 : State :=
  { }
def s6 : State :=
  { objs := [(K.startFail, 5)] }
def s7 : State :=
  { fltins := [(2, { active := true })] }
def s8 : State :=
  { fltins := [(2, { ended := some 993 })] }
theorem witness_FaultsAreCollected :
    (∃ (id : BitVec 9) (f : FaultSrc) (s : State), faultSrc id.toNat = some f ∧ 4 < id.toNat ∧ id.toNat ≠ 20 ∧ 8 ≤ rd
      K.startStep s ∧ ¬(192 ≤ id.toNat ∧ id.toNat ≤ 199 ∧ id.toNat % 2 = 0) ∧ faultClass id.toNat f s ≠ 0 ∧ suppressed
      id.toNat s = false ∧ (id.toNat = 42 → usedSlots s = []) ∧ (256 ≤ id.toNat → id.toNat % 16 = 0 → (seq (leader
      ((id.toNat - 256) / 16) s) s).live = false) ∧ s.flt.active.contains id.toNat = false) ∧
    (∃ (id : BitVec 9) (f : FaultSrc) (s : State), faultSrc id.toNat = some f ∧ 4 < id.toNat ∧ id.toNat ≠ 20 ∧ 8 ≤ rd
      K.startStep s ∧ ¬(192 ≤ id.toNat ∧ id.toNat ≤ 199 ∧ id.toNat % 2 = 0) ∧ (faultClass id.toNat f s = 0 ∨ suppressed
      id.toNat s = true ∨ s.flt.active.contains id.toNat = true)) ∧
    (∃ (id : BitVec 9) (f : FaultSrc) (s : State), faultSrc id.toNat = some f ∧ id.toNat = 42 ∧ 8 ≤ rd K.startStep s ∧
      usedSlots s ≠ [] ∧ s.flt.active.contains 42 = false) ∧
    (∃ (id : BitVec 9) (f : FaultSrc) (s : State), faultSrc id.toNat = some f ∧ ∃ (g : Nat), g < 16 ∧ id.toNat = 256 +
      16 * g ∧ leader g s = g ∧ 8 ≤ rd K.startStep s ∧ suppressed id.toNat s = false ∧ runState g s = 3 ∧ (seq g s).live
      = true ∧ (seq g s).stopped = none ∧ (seq g s).dead = none ∧ 0 < (seq g s).played ∧ s.flt.active.contains id.toNat
      = false) ∧
    (∃ (id : BitVec 9) (f : FaultSrc) (s : State), faultSrc id.toNat = some f ∧ id.toNat ≤ 4 ∧ 3 ≤ rd K.startStep s ∧
      rd K.startStep s < 8 ∧ s.flt.active.contains id.toNat = false) ∧
    (∃ (id : BitVec 9) (f : FaultSrc) (s : State), faultSrc id.toNat = some f ∧ (8 ≤ id.toNat ∧ id.toNat ≤ 14) ∧ 3 ≤ rd
      K.startStep s ∧ rd K.startStep s < 8 ∧ s.flt.active.contains id.toNat = false) ∧
    (∃ (id : BitVec 9) (f : FaultSrc) (s : State), faultSrc id.toNat = some f ∧ id.toNat = 20 ∧ 8 ≤ rd K.startStep s) ∧
    (∃ (id : BitVec 9) (f : FaultSrc) (s : State), faultSrc id.toNat = some f ∧ (192 ≤ id.toNat ∧ id.toNat ≤ 199 ∧
      id.toNat % 2 = 0) ∧ rd (K.ethLink ((id.toNat - 192) / 2)) s = 1 ∧ s.flt.active.contains id.toNat = false) ∧
    (∃ (id : BitVec 9) (f : FaultSrc) (s : State), faultSrc id.toNat = some f ∧ 4 < id.toNat ∧ id.toNat ≠ 16 ∧ id.toNat
      ≠ 17 ∧ ¬(28 ≤ id.toNat ∧ id.toNat ≤ 31) ∧ rd K.startFail s ≠ 5) ∧
    (∃ (id : BitVec 9) (f : FaultSrc) (s : State), faultSrc id.toNat = some f ∧ (8 ≤ id.toNat ∧ id.toNat ≤ 14) ∧ rd
      K.startFail s = 5 ∧ ∀ (m : Nat), m ∈ s.flt.active → m ≠ id.toNat → ¬(8 ≤ m ∧ m ≤ 14 ∨ m = 17)) ∧
    (∃ (i : Fin 4) (s : State), (fltin (↑i) s).active = true) ∧
    (∃ (i : Fin 4) (cycle : Nat) (s : State), (fltin (↑i) s).active = false ∧ ∀ (e : Nat), (fltin (↑i) s).ended = some
      e → e + 8 ≤ max cycle s.time.sys) ∧
    (∃ (i : Fin 4) (cycle : Nat) (s : State) (e : Nat), (fltin (↑i) s).active = false ∧ (fltin (↑i) s).ended = some e ∧
      max cycle s.time.sys < e + 8) ∧
    (∃ (i : Fin 4) (s : State), (fltin (↑i) s).active = true ∧ rd K.startFail s ≠ 5) :=
  ⟨⟨481, ⟨{ level := false, cls := 1, units := [] }, ⟨s1, (by decide +kernel)⟩⟩⟩,
   ⟨8, ⟨{ level := true, cls := 3, units := [] }, ⟨s2, (by decide +kernel)⟩⟩⟩,
   ⟨42, { level := false, cls := 2, units := [] }, sq,
     by decide +kernel, by decide +kernel, by decide +kernel, by decide +kernel, by decide +kernel⟩,
   ⟨256, { level := false, cls := 2, units := [] }, sg,
     by decide +kernel, 0, by decide +kernel, by decide +kernel, by decide +kernel, by decide +kernel, by decide +kernel, by decide +kernel, by decide +kernel, by decide +kernel, by decide +kernel, by decide +kernel, by decide +kernel⟩,
   ⟨0, ⟨{ level := true, cls := 3, units := [] }, ⟨s3, (by decide +kernel)⟩⟩⟩,
   ⟨8, ⟨{ level := true, cls := 3, units := [] }, ⟨s3, (by decide +kernel)⟩⟩⟩,
   ⟨20, ⟨{ level := false, cls := 3, units := [] }, ⟨s1, (by decide +kernel)⟩⟩⟩,
   ⟨192, ⟨{ level := true, cls := 1, units := [] }, ⟨s4, (by decide +kernel)⟩⟩⟩,
   ⟨481, ⟨{ level := false, cls := 1, units := [] }, ⟨s5, (by decide +kernel)⟩⟩⟩,
   ⟨8, ⟨{ level := true, cls := 3, units := [] }, ⟨s6, (by decide +kernel)⟩⟩⟩,
   ⟨2, ⟨s7, (by decide +kernel)⟩⟩,
   ⟨0, ⟨993, ⟨s5, (by decide +kernel)⟩⟩⟩,
   ⟨2, ⟨993, ⟨s8, ⟨993, (by decide +kernel)⟩⟩⟩⟩,
   ⟨2, ⟨s7, (by decide +kernel)⟩⟩⟩
end Witness.FaultsAreCollected

namespace Witness.ReactionsFence
def sr (n : Nat) : State := { flt := { pendU := [n] } }
def so : State := { objs := [(K.fltFenced, 14 * 2 ^ 36)], flt := { pendU := [193] } }
def s1 : State :=
  {}
def s2 : State :=
  { flt := { pendU := [46] } }
def s3 : State :=
  { flt := { pendU := [204] } }
def s4 : State :=
  { flt := { pendF := true } }
def s5 : State :=
  { flt := { window := true } }
def s6 : State :=
  { flt := { cDue := true } }
def s7 : State :=
  { flt := { window := true }, sessions := [{ sess 1 with subs := [{ key := 12582913, ptr := 4294967295 }] }] }
def v8 : Session :=
  { sess 1 with subs := [{ key := 12582913, ptr := 4294967295 }] }
def s9 : State :=
  { flt := { cDue := true }, sessions := [{ sess 1 with subs := [{ key := 12582913, ptr := 4294967295 }] }] }
theorem witness_ReactionsFence :
    (∃ (s : State), s.flt.pendU = [] ∧ s.flt.pendF = false) ∧
    (∃ (s : State), s.flt.pendU ≠ [] ∧ s.flt.pendF = false ∧ rd K.fltFatal s = 0 ∧ ∀ (n : Nat), n ∈ s.flt.pendU → n ≠
      41 ∧ reactUnits n s = []) ∧
    (∃ (s : State) (g : Fin 16), s.flt.pendU = [262 + 16 * g.val] ∧ s.flt.pendF = false ∧ rd K.fltFatal s = 0 ∧ fenced
      g s = false ∧ leader (leader g s) s = leader g s) ∧
    (∃ (s : State), s.flt.pendU = [204] ∧ s.flt.pendF = false ∧ rd K.fltFatal s = 0 ∧ fenced 42 s = false) ∧
    (∃ (s : State) (p : Fin 4), s.flt.pendU = [193 + 2 * p.val] ∧ s.flt.pendF = false ∧ rd K.fltFatal s = 0 ∧ fenced
      (36 + p) s = false ∧ ∃ i, i < 4 ∧ i ≠ p.val ∧ fenced (36 + i) s = false) ∧
    (∃ (s : State) (p : Fin 4), s.flt.pendU = [193 + 2 * p.val] ∧ s.flt.pendF = false ∧ rd K.fltFatal s = 0 ∧ fenced
      (36 + p) s = false ∧ ∀ i, i < 4 → i ≠ p.val → fenced (36 + i) s = true) ∧
    (∃ (s : State), s.flt.pendF = true ∧ s.flt.pendU = [] ∧ rd K.fltFatal s = 0 ∧ ∀ (g : Nat), g < 16 → leader (leader
      g s) s = leader g s ∧ fenced g s = false) ∧
    (∃ (s : State), (∀ (x : Session), x ∈ s.sessions → x.subs = []) ∧ s.flt.window = true) ∧
    (∃ (s : State), (∀ (x : Session), x ∈ s.sessions → x.subs = []) ∧ s.flt.cDue = true) ∧
    (∃ (id : BitVec 16) (x : Session) (s : State), s.sessions = [x] ∧ x.id = id ∧ x.auth = false ∧ x.pend = [] ∧ (∃ (u
      : Subscr), u ∈ x.subs ∧ u.key = K.fltSticky ∧ u.ptr = 4294967295) ∧ s.flt.window = true) ∧
    (∃ (id : BitVec 16) (x : Session) (s : State), s.sessions = [x] ∧ x.id = id ∧ x.auth = false ∧ x.pend = [] ∧ (∃ (u
      : Subscr), u ∈ x.subs ∧ u.key = K.fltSticky ∧ u.ptr = 4294967295) ∧ s.flt.cDue = true) ∧
    (∃ (s : State), s.flt.window = false) ∧
    (∃ (s : State), s.flt.cDue = false) :=
  ⟨⟨s1, (by decide +kernel)⟩,
   ⟨s2, (by decide +kernel)⟩,
   ⟨sr 502, 15, by decide +kernel⟩,
   ⟨s3, (by decide +kernel)⟩,
   ⟨sr 199, 3, by decide +kernel, by decide +kernel, by decide +kernel, by decide +kernel, 0, by decide +kernel⟩,
   ⟨so, 0, by decide +kernel⟩,
   ⟨s4, (by decide +kernel)⟩,
   ⟨s5, (by decide +kernel)⟩,
   ⟨s6, (by decide +kernel)⟩,
   ⟨1, ⟨v8, ⟨s7, (by decide +kernel)⟩⟩⟩,
   ⟨1, ⟨v8, ⟨s9, (by decide +kernel)⟩⟩⟩,
   ⟨s1, (by decide +kernel)⟩,
   ⟨s1, (by decide +kernel)⟩⟩
end Witness.ReactionsFence

namespace Witness.FencesAreReleased
def s1 : State :=
  { objs := [(K.ethLink 0, 1), (K.startStep, 8)], sessions := [sess 1] }
def s2 : State :=
  { objs := [(K.ethLink 0, 1), (K.startStep, 8)],
    flt := { sticky := 6703903964971298549787012499102923063739682910296196688861780723897917991371259574669382837492829874896484322759179276063017390760354584736553530686439431,
             active := [300] },
    sessions := [sess 1] }
def s3 : State :=
  { objs := [(K.ethLink 0, 1), (K.fltFenced, 2 ^ 64 - 1), (K.startStep, 8)], flt := { window := true },
    sessions := [sess 1] }
def s4 : State :=
  { objs := [(K.ethLink 0, 1), (K.runState 9, 3), (K.fltFenced, 2 ^ 64 - 1), (K.startStep, 8)], sessions := [sess 1] }
def s5 : State :=
  { objs := [(K.ethLink 0, 1), (K.fltFenced, 9223372036854775808), (K.startStep, 8)], flt := { active := [17] },
    sessions := [sess 1] }
def s6 : State :=
  { objs := [(K.ethLink 0, 1), (K.fltFenced, 2 ^ 64 - 1), (K.fltFatal, 1), (K.startStep, 8)],
    flt := { covered := [42, 35, 3, 4, 5, 16, 44, 45, 63, 62, 255, 0] }, sessions := [sess 1] }
def s7 : State :=
  { objs := [(K.ethLink 0, 1), (K.fltFenced, 2 ^ 64 - 1), (K.startStep, 8)], sessions := [sess 1] }
theorem witness_FencesAreReleased :
    (∃ (p : Bytes), List.length p = 64 ∧ HostMeets opWrite K.fltSticky p 1 false fun _ s => ∀ (n : Nat), n ∈
      s.flt.active → (leNat p).testBit n = false) ∧
    (∃ (p : Bytes), List.length p = 64 ∧ ∃ (n : Nat) (f : FaultSrc), faultSrc n = some f ∧ (leNat p).testBit n = true ∧
      HostMeets opWrite K.fltSticky p 1 false fun _ s => s.flt.active = [n] ∧ s.flt.sticky.testBit n = true) ∧
    (∃ (v : Byte), ReqMeets opWrite K.fltRelease [v] fun _ x s => indexExists K.fltRelease s = true ∧ 1 ≤ x.role ∧
      ¬(BitVec.toNat v ≤ 44 ∨ BitVec.toNat v = 63)) ∧
    (∃ (v : Byte), ReqMeets opWrite K.fltRelease [v] fun _ x s => indexExists K.fltRelease s = true ∧ 1 ≤ x.role ∧
      (BitVec.toNat v ≤ 44 ∨ BitVec.toNat v = 63) ∧ fenced (BitVec.toNat v) s = false) ∧
    (∃ (v : Byte), ReqMeets opWrite K.fltRelease [v] fun _ x s => indexExists K.fltRelease s = true ∧ 1 ≤ x.role ∧
      (BitVec.toNat v ≤ 44 ∨ BitVec.toNat v = 63) ∧ fenced (BitVec.toNat v) s = true ∧ s.flt.window = true) ∧
    (∃ (v : Byte), ReqMeets opWrite K.fltRelease [v] fun _ x s => indexExists K.fltRelease s = true ∧ 1 ≤ x.role ∧ (32
      ≤ BitVec.toNat v ∧ BitVec.toNat v < 36) ∧ fenced (BitVec.toNat v) s = true ∧ s.flt.window = false ∧ ∃ (g : Nat), g
      < 16 ∧ (busyState (runState g s) = true ∨ rd (K.runArmBusy g) s = 1)) ∧
    (∃ (v : Byte), ReqMeets opWrite K.fltRelease [v] fun _ x s => indexExists K.fltRelease s = true ∧ 1 ≤ x.role ∧
      BitVec.toNat v = 63 ∧ fenced (BitVec.toNat v) s = true ∧ s.flt.window = false ∧ fatalHolds s = true) ∧
    (∃ (v : Byte), ReqMeets opWrite K.fltRelease [v] fun _ x s => indexExists K.fltRelease s = true ∧ 1 ≤ x.role ∧
      (BitVec.toNat v ≤ 44 ∨ BitVec.toNat v = 63) ∧ BitVec.toNat v ≠ 63 ∧ fenced (BitVec.toNat v) s = true ∧
      s.flt.window = false ∧ (32 ≤ BitVec.toNat v ∧ BitVec.toNat v < 36 → ¬∃ (g : Nat), g < 16 ∧ (busyState (runState g
      s) = true ∨ rd (K.runArmBusy g) s = 1)) ∧ rd K.fltFatal s = 1 ∧ s.flt.covered.contains (BitVec.toNat v) = true) ∧
    (∃ (v : Byte), HostMeets opWrite K.fltRelease [v] 1 false fun _ s => BitVec.toNat v = 42 ∧ fenced (BitVec.toNat v)
      s = true ∧ s.flt.window = false ∧ (rd K.fltFatal s = 0 ∨ s.flt.covered.contains (BitVec.toNat v) = false)) ∧
    (∃ (v : Byte), HostMeets opWrite K.fltRelease [v] 1 false fun _ s => 36 ≤ BitVec.toNat v ∧ BitVec.toNat v ≤ 39 ∧
      fenced (BitVec.toNat v) s = true ∧ s.flt.window = false ∧ (rd K.fltFatal s = 0 ∨ s.flt.covered.contains
      (BitVec.toNat v) = false)) ∧
    (∃ (v : Byte), HostMeets opWrite K.fltRelease [v] 1 false fun _ s => (32 ≤ BitVec.toNat v ∧ BitVec.toNat v < 36) ∧
      (fenced (BitVec.toNat v) s = true ∧ s.flt.window = false ∧ (rd K.fltFatal s = 0 ∨ s.flt.covered.contains
      (BitVec.toNat v) = false)) ∧ ¬∃ (g : Nat), g < 16 ∧ (busyState (runState g s) = true ∨ rd (K.runArmBusy g) s = 1)) ∧
    (∃ (v : Byte), HostMeets opWrite K.fltRelease [v] 1 false fun _ s => BitVec.toNat v < 16 ∧ leader (BitVec.toNat v)
      s = BitVec.toNat v ∧ fenced (BitVec.toNat v) s = true ∧ s.flt.window = false ∧ (rd K.fltFatal s = 0 ∨
      s.flt.covered.contains (BitVec.toNat v) = false)) :=
  ⟨⟨([0, 0, 0, 16] ++ List.replicate 59 0 ++ [128]), ⟨(by decide +kernel), (hostMeets s1 (by decide +kernel)
     (by decide +kernel))⟩⟩,
   ⟨([1] ++ List.replicate 36 0 ++ [16] ++ List.replicate 26 0), ⟨(by decide +kernel), ⟨300,
     ⟨{ level := false, cls := 2, units := [2] }, ⟨(by decide +kernel), ⟨(by decide +kernel), (hostMeets s2
     (by decide +kernel) (by decide +kernel))⟩⟩⟩⟩⟩⟩,
   ⟨45, (reqMeets s1 (by decide +kernel) (by decide +kernel))⟩,
   ⟨42, (reqMeets s1 (by decide +kernel) (by decide +kernel))⟩,
   ⟨42, (reqMeets s3 (by decide +kernel) (by decide +kernel))⟩,
   ⟨32, (reqMeets s4 (by decide +kernel) (by decide +kernel))⟩,
   ⟨63, (reqMeets s5 (by decide +kernel) (by decide +kernel))⟩,
   ⟨42, (reqMeets s6 (by decide +kernel) (by decide +kernel))⟩,
   ⟨42, (hostMeets s7 (by decide +kernel) (by decide +kernel))⟩,
   ⟨37, (hostMeets s7 (by decide +kernel) (by decide +kernel))⟩,
   ⟨32, (hostMeets s7 (by decide +kernel) (by decide +kernel))⟩,
   ⟨3, (hostMeets s7 (by decide +kernel) (by decide +kernel))⟩⟩
end Witness.FencesAreReleased

namespace Witness.SecurityKeysAndSeals
def s1 : State :=
  { objs := [(K.ethLink 0, 1), (K.secState, 1), (K.startStep, 8)], sessions := [{ sess 3 with expert := true }] }
def s2 : State :=
  { objs := [(K.ethLink 0, 1), (K.startStep, 8)], sessions := [{ sess 3 with expert := true }] }
def s3 : State :=
  { objs := [(K.ethLink 0, 1), (K.startStep, 8)], sessions := [{ sess 3 with expert := true }],
    sec := { keks := [(1, 77, [1, 2])] } }
def s4 : State :=
  { objs := [(K.ethLink 0, 1), (K.startStep, 8), (K.pwrVqpsUv, 5)], sessions := [{ sess 3 with expert := true }] }
def s5 : State :=
  { objs := [(K.ethLink 0, 1), (K.startStep, 8)], sessions := [{ sess 3 with expert := true }],
    otp := { officers := [(0, List.replicate 97 7)] } }
def s6 : State :=
  { objs := [(K.ethLink 0, 1), (K.startStep, 8), (K.pwrVqpsUv, 5)], sessions := [{ sess 3 with expert := true }],
    otp := { anchors := [(0, [])] } }
def s7 : State :=
  { grps := [(2, { fetches := [{ kind := .sealedImage 3, todo := [] }] })] }
theorem witness_SecurityKeysAndSeals :
    (∃ (k : Fin 4) (p : Bytes), List.length p = 145 ∧ leAt 0 1 p = 1 ∧ ReqMeets opWrite (K.secKek ↑k) p fun _ x s =>
      indexExists (K.secKek ↑k) s = true ∧ 2 ≤ x.role ∧ x.expert = true ∧ rd K.secState s = 1 ∧ Tab.find (↑k) s.sec.keks
      = none) ∧
    (∃ (k : Fin 4) (p : Bytes), List.length p = 145 ∧ leAt 0 1 p = 1 ∧ HostMeets opWrite (K.secKek ↑k) p 2 true fun _ s
      => rd K.secState s ≠ 1 ∨ Tab.find (↑k) s.sec.keks ≠ none) ∧
    (∃ (i : Fin 64) (p : Bytes), List.length p = 48 ∧ leAt 0 1 p ≤ 3 ∧ ReqMeets opWrite (K.skLoad ↑i) p fun _ x s =>
      indexExists (K.skLoad ↑i) s = true ∧ 2 ≤ x.role ∧ x.expert = true ∧ rd K.secState s ≠ 2 ∧ (keySlot (↑i) s).loaded
      = false ∧ Tab.find (leAt 0 1 p) s.sec.keks ≠ none) ∧
    (∃ (i : Fin 64) (p : Bytes), List.length p = 48 ∧ leAt 0 1 p ≤ 3 ∧ HostMeets opWrite (K.skLoad ↑i) p 2 true fun _ s
      => rd K.secState s = 2 ∨ (keySlot (↑i) s).loaded = true ∨ Tab.find (leAt 0 1 p) s.sec.keks = none) ∧
    (∃ (i : Fin 64), HostMeets opWrite (K.skClear ↑i) [1] 2 true fun _ s => rd K.secState s ≠ 2) ∧
    (∃ (k : Fin 4) (p : Bytes), List.length p = 97 ∧ HostMeets opWrite (K.secOfficerKey ↑k) p 2 true fun _ s => rd
      K.secState s ≠ 2 ∧ (rd K.pwrVqpsUv s ≠ 0 ∧ s.flt.active.contains 13 = false) ∧ Tab.find (↑k) s.otp.officers = none
      ∧ s.otp.officersRevoked.testBit ↑k = false) ∧
    (∃ (k : Fin 4) (p : Bytes), List.length p = 97 ∧ ↑k = 0 ∧ HostMeets opWrite (K.secOfficerKey ↑k) p 1 true fun _ s
      => (rd K.secState s ≠ 2 ∧ (rd K.pwrVqpsUv s ≠ 0 ∧ s.flt.active.contains 13 = false) ∧ Tab.find (↑k) s.otp.officers
      = none ∧ s.otp.officersRevoked.testBit ↑k = false) ∧ s.otp.officers = [] ∧ s.otp.officersRevoked = 0) ∧
    (∃ (k : Fin 4) (p : Bytes), List.length p = 97 ∧ HostMeets opWrite (K.secOfficerKey ↑k) p 2 true fun _ s => ¬(rd
      K.secState s ≠ 2 ∧ (rd K.pwrVqpsUv s ≠ 0 ∧ s.flt.active.contains 13 = false) ∧ Tab.find (↑k) s.otp.officers = none
      ∧ s.otp.officersRevoked.testBit ↑k = false)) ∧
    (∃ (v : Byte), HostMeets opWrite K.secOfficerRevoke [v] 2 true fun _ s => rd K.secState s ≠ 2 ∧ (BitVec.toNat v &&&
      heldMask s.otp.officers = 0 ∨ ∃ (k : Nat), (heldMask s.otp.officers).testBit k = true ∧ (s.otp.officersRevoked |||
      BitVec.toNat v &&& heldMask s.otp.officers).testBit k = false)) ∧
    (∃ (v : Byte), HostMeets opWrite K.secOfficerRevoke [v] 2 true fun _ s => rd K.secState s ≠ 2 ∧ ¬(BitVec.toNat v
      &&& heldMask s.otp.officers = 0 ∨ ∃ (k : Nat), (heldMask s.otp.officers).testBit k = true ∧ (s.otp.officersRevoked
      ||| BitVec.toNat v &&& heldMask s.otp.officers).testBit k = false)) ∧
    (∃ (v : Byte), HostMeets opWrite K.secAnchorRevoke [v] 3 true fun _ s => rd K.secState s ≠ 2 ∧ (rd K.pwrVqpsUv s ≠
      0 ∧ s.flt.active.contains 13 = false) ∧ (BitVec.toNat v &&& heldMask s.otp.anchors = 0 ∨ ∃ (k : Nat), (heldMask
      s.otp.anchors).testBit k = true ∧ (s.otp.anchorsRevoked ||| BitVec.toNat v &&& heldMask s.otp.anchors).testBit k =
      false)) ∧
    (∃ (v : Byte), HostMeets opWrite K.secAnchorRevoke [v] 3 true fun _ s => rd K.secState s ≠ 2 ∧ (rd K.pwrVqpsUv s ≠
      0 ∧ s.flt.active.contains 13 = false) ∧ ¬(BitVec.toNat v &&& heldMask s.otp.anchors = 0 ∨ ∃ (k : Nat), (heldMask
      s.otp.anchors).testBit k = true ∧ (s.otp.anchorsRevoked ||| BitVec.toNat v &&& heldMask s.otp.anchors).testBit k =
      false)) ∧
    (∃ (v : Byte), HostMeets opWrite K.secMinLevelSet [v] 2 true fun _ s => rd K.secState s ≠ 2 ∧ (rd K.pwrVqpsUv s ≠ 0
      ∧ s.flt.active.contains 13 = false) ∧ rd K.mcMinLevel s < BitVec.toNat v) ∧
    (∃ (v : Byte), HostMeets opWrite K.secMinLevelSet [v] 2 true fun _ s => BitVec.toNat v ≤ rd K.mcMinLevel s) ∧
    (∃ (g : Fin 16) (page : Nat) (x : Fetch) (s : State), leader (↑g) s = ↑g ∧ x.kind = FetchKind.sealedImage page ∧
      List.find? (fun (x : Fetch) => (match x.kind with | FetchKind.sealedImage _ => true | _ => false) &&
      x.todo.isEmpty && x.out == 0 && !x.bad) (grp (↑g) s).fetches = some x) :=
  ⟨⟨0, ⟨[1, 0, 0, 0, 9, 8, 7, 6, 3, 3, 3, 3, 3, 3, 3, 3, 3, 3, 3, 3, 3, 3, 3, 3, 3, 3, 3, 3, 3, 3, 3, 3, 3, 3, 3, 3,
     3, 3, 3, 3, 3, 3, 3, 3, 3, 3, 3, 3, 3, 3, 3, 3, 3, 3, 3, 3, 3, 3, 3, 3, 3, 3, 3, 3, 3, 3, 3, 3, 3, 3, 3, 3, 3, 3,
     3, 3, 3, 3, 3, 3, 3, 3, 3, 3, 3, 3, 3, 3, 3, 3, 3, 3, 3, 3, 3, 3, 3, 3, 3, 3, 3, 3, 3, 3, 3, 3, 3, 3, 3, 3, 3, 3,
     3, 3, 3, 3, 3, 3, 3, 3, 3, 3, 3, 3, 3, 3, 3, 3, 3, 3, 3, 3, 3, 3, 3, 3, 3, 3, 3, 3, 3, 3, 3, 3, 3],
     ⟨(by decide +kernel), ⟨(by decide +kernel), (reqMeets s1 (by decide +kernel) (by decide +kernel))⟩⟩⟩⟩,
   ⟨1, ⟨[1, 0, 0, 0, 9, 8, 7, 6, 3, 3, 3, 3, 3, 3, 3, 3, 3, 3, 3, 3, 3, 3, 3, 3, 3, 3, 3, 3, 3, 3, 3, 3, 3, 3, 3, 3,
     3, 3, 3, 3, 3, 3, 3, 3, 3, 3, 3, 3, 3, 3, 3, 3, 3, 3, 3, 3, 3, 3, 3, 3, 3, 3, 3, 3, 3, 3, 3, 3, 3, 3, 3, 3, 3, 3,
     3, 3, 3, 3, 3, 3, 3, 3, 3, 3, 3, 3, 3, 3, 3, 3, 3, 3, 3, 3, 3, 3, 3, 3, 3, 3, 3, 3, 3, 3, 3, 3, 3, 3, 3, 3, 3, 3,
     3, 3, 3, 3, 3, 3, 3, 3, 3, 3, 3, 3, 3, 3, 3, 3, 3, 3, 3, 3, 3, 3, 3, 3, 3, 3, 3, 3, 3, 3, 3, 3, 3],
     ⟨(by decide +kernel), ⟨(by decide +kernel), (hostMeets s2 (by decide +kernel) (by decide +kernel))⟩⟩⟩⟩,
   ⟨0, ⟨[1, 0, 0, 0, 9, 8, 7, 6, 3, 3, 3, 3, 3, 3, 3, 3, 3, 3, 3, 3, 3, 3, 3, 3, 3, 3, 3, 3, 3, 3, 3, 3, 3, 3, 3, 3,
     3, 3, 3, 3, 3, 3, 3, 3, 3, 3, 3, 3], ⟨(by decide +kernel), ⟨(by decide +kernel), (reqMeets s3 (by decide +kernel)
     (by decide +kernel))⟩⟩⟩⟩,
   ⟨0, ⟨[1, 0, 0, 0, 9, 8, 7, 6, 3, 3, 3, 3, 3, 3, 3, 3, 3, 3, 3, 3, 3, 3, 3, 3, 3, 3, 3, 3, 3, 3, 3, 3, 3, 3, 3, 3,
     3, 3, 3, 3, 3, 3, 3, 3, 3, 3, 3, 3], ⟨(by decide +kernel), ⟨(by decide +kernel), (hostMeets s2 (by decide +kernel)
     (by decide +kernel))⟩⟩⟩⟩,
   ⟨0, (hostMeets s2 (by decide +kernel) (by decide +kernel))⟩,
   ⟨0, ⟨(List.replicate 97 7), ⟨(by decide +kernel), (hostMeets s4 (by decide +kernel) (by decide +kernel))⟩⟩⟩,
   ⟨0, ⟨(List.replicate 97 7), ⟨(by decide +kernel), ⟨(by decide +kernel), (hostMeets s4 (by decide +kernel)
     (by decide +kernel))⟩⟩⟩⟩,
   ⟨0, ⟨(List.replicate 97 7), ⟨(by decide +kernel), (hostMeets s2 (by decide +kernel) (by decide +kernel))⟩⟩⟩,
   ⟨0, (hostMeets s2 (by decide +kernel) ⟨(by decide +kernel), (.inl (by decide +kernel))⟩)⟩,
   ⟨1, (hostMeets s5 (by decide +kernel) ⟨(by decide +kernel), (notRefused (by decide +kernel) (by decide +kernel))⟩)⟩,
   ⟨0, (hostMeets s4 (by decide +kernel) ⟨(by decide +kernel), ⟨(by decide +kernel), (.inl (by decide +kernel))⟩⟩)⟩,
   ⟨5, (hostMeets s6 (by decide +kernel) ⟨(by decide +kernel), ⟨(by decide +kernel), (notRefused (by decide +kernel)
     (by decide +kernel))⟩⟩)⟩,
   ⟨1, (hostMeets s4 (by decide +kernel) (by decide +kernel))⟩,
   ⟨0, (hostMeets s2 (by decide +kernel) (by decide +kernel))⟩,
   ⟨2, ⟨3, ⟨{ kind := .sealedImage 3, todo := [] }, ⟨s7, (by decide +kernel)⟩⟩⟩⟩⟩
end Witness.SecurityKeysAndSeals

namespace Witness.SecurityModes
def s1 : State :=
  { objs := [(K.ethLink 0, 1), (K.secState, 1), (K.startStep, 8)] }
def v2 : Req :=
  { port := 0, v6 := false, addr := 44, udp := 0, ver := 1, session := 0, seq := 77, ctr := 0, tag := 0 }
def s3 : State :=
  { objs := [(K.ethLink 0, 1), (K.startStep, 8)], sessions := [{ sess 2 with expert := true }] }
def s4 : State :=
  { objs := [(K.ethLink 0, 1), (K.startStep, 8), (K.pwrVqpsUv, 5)], sessions := [{ sess 2 with expert := true }] }
def s5 : State :=
  { objs := [(K.ethLink 0, 1), (K.startStep, 8)], sessions := [{ sess 3 with expert := true }] }
def s6 : State :=
  { objs := [(K.ethLink 0, 1), (K.secCertMode, 1), (K.startStep, 8)], sessions := [{ sess 3 with expert := true }] }
def s7 : State :=
  { objs := [(K.ethLink 0, 1), (K.secState, 2), (K.startStep, 8)], sessions := [{ sess 2 with expert := true }] }
def s8 : State :=
  { objs := [(K.ethLink 0, 1), (K.mcodeVersion, 1), (K.secState, 1), (K.startStep, 8)],
    sessions := [{ sess 2 with expert := true }] }
def s9 : State :=
  { objs := [(K.ethLink 0, 1), (K.secCertMode, 1), (K.startStep, 8)], sessions := [{ sess 2 with expert := true }] }
theorem witness_SecurityModes :
    (∃ (r : Req) (cred : Bytes) (s : State), portOpen (↑r.port) s = true ∧ overhead r.v6 + 236 ≤ mtu (↑r.port) s ∧
      r.ver = 1 ∧ r.session = 0 ∧ List.length cred = 232 ∧ leAt 1 3 cred = 0 ∧ leAt 229 3 cred = 0 ∧ List.find?
      (sameOpen r s) s.sessions = none ∧ s.sessions.length < 8 ∧ rd K.secState s = 1 ∧ s.otp.dukOff = false) ∧
    (HostMeets opWrite K.secZeroise [1] 2 true fun _ s => rd K.secState s ≠ 2 ∧ ∀ (g : Nat), g < 16 → liveSealed g s =
      false) ∧
    (HostMeets opWrite K.secZeroise [2] 2 true fun _ s => rd K.secState s ≠ 2 ∧ rd K.pwrVqpsUv s ≠ 0 ∧
      s.flt.active.contains 13 = false ∧ ∀ (g : Nat), g < 16 → liveSealed g s = false) ∧
    (HostMeets opWrite K.secZeroise [2] 2 true fun _ s => rd K.secState s ≠ 2 ∧ (rd K.pwrVqpsUv s = 0 ∨
      s.flt.active.contains 13 = true)) ∧
    (HostMeets opWrite K.secDiagLoad [1] 3 true fun _ s => rd K.secState s ≠ 2 ∧ rd K.secCertMode s = 0 ∧ ∀ (g : Nat),
      g < 16 → liveSealed g s = false) ∧
    (HostMeets opWrite K.secDiagLoad [1] 3 true fun _ s => rd K.secState s = 2 ∨ rd K.secCertMode s ≠ 0) ∧
    (∃ (failing : Nat), HostMeets opWrite K.secSelftest [1] 2 true fun _ s => failing = 0 ∧ rd K.secState s ≠ 2 ∧ ∀ (g
      : Nat), g < 16 → liveSealed g s = false) ∧
    (∃ (failing : Nat), HostMeets opWrite K.secSelftest [1] 2 true fun _ s => 0 < failing ∧ failing < 256 ∧ rd
      K.secState s ≠ 2 ∧ ∀ (g : Nat), g < 16 → liveSealed g s = false) ∧
    (HostMeets opWrite K.secSelftest [1] 2 true fun _ s => rd K.secState s = 2 ∨ ¬∀ (g : Nat), g < 16 → liveSealed g s
      = false) ∧
    (HostMeets opWrite K.secCertMode [1] 2 true fun x s => x.role = 2 ∧ rd K.secState s = 1 ∧ (rd K.mcodeVersion
      s).testBit 0 = true ∧ rd K.secDiagLoad s = 0 ∧ (∀ (y : Session), y ∈ s.sessions → y.role ≠ 3) ∧ s.sec.keks = [] ∧
      (∀ (e : Nat × KeySlot), e ∈ s.sec.slots → e.snd.loaded = false) ∧ ∀ (g : Nat), g < 16 → busyState (runState g s) =
      false) ∧
    (HostMeets opWrite K.secCertMode [1] 2 true fun x s => x.role = 2 ∧ ¬(rd K.secState s = 1 ∧ (rd K.mcodeVersion
      s).testBit 0 = true ∧ rd K.secDiagLoad s = 0 ∧ (∀ (y : Session), y ∈ s.sessions → y.role ≠ 3) ∧ s.sec.keks = [] ∧
      (∀ (e : Nat × KeySlot), e ∈ s.sec.slots → e.snd.loaded = false) ∧ ∀ (g : Nat), g < 16 → busyState (runState g s) =
      false)) ∧
    (HostMeets opWrite K.secCertMode [1] 3 true fun x _ => x.role = 3) ∧
    (HostMeets opWrite K.secCertMode [0] 3 true fun x _ => x.role = 3) ∧
    (HostMeets opWrite K.secCertMode [0] 2 true fun x s => x.role = 2 ∧ rd K.secCertMode s = 1 ∧ ∀ (g : Nat), g < 16 →
      liveSealed g s = false) ∧
    (HostMeets opWrite K.secCertMode [0] 2 true fun x s => x.role = 2 ∧ rd K.secCertMode s = 0) :=
  ⟨⟨v2, ⟨(List.replicate 232 0), ⟨s1, (by decide +kernel)⟩⟩⟩,
   hostMeets s3 (by decide +kernel) (by decide +kernel),
   hostMeets s4 (by decide +kernel) (by decide +kernel),
   hostMeets s3 (by decide +kernel) (by decide +kernel),
   hostMeets s5 (by decide +kernel) (by decide +kernel),
   hostMeets s6 (by decide +kernel) (by decide +kernel),
   ⟨0, (hostMeets s3 (by decide +kernel) (by decide +kernel))⟩,
   ⟨1, (hostMeets s3 (by decide +kernel) (by decide +kernel))⟩,
   hostMeets s7 (by decide +kernel) (by decide +kernel),
   hostMeets s8 (by decide +kernel) (by decide +kernel),
   hostMeets s3 (by decide +kernel) (by decide +kernel),
   hostMeets s5 (by decide +kernel) (by decide +kernel),
   hostMeets s5 (by decide +kernel) (by decide +kernel),
   hostMeets s9 (by decide +kernel) (by decide +kernel),
   hostMeets s3 (by decide +kernel) (by decide +kernel)⟩
end Witness.SecurityModes

namespace Witness.OtpOnlyGrows
def o : State :=
  { otp := { officers := [(0, [7])], officersRevoked := 1, anchors := [(0, [7])], anchorsRevoked := 1, dukOff := true } }
theorem witness_OtpOnlyGrows :
    (∃ (c : Instr) (s : State) (t : State), exec c s = Host.Outcome.next t ∧ ∃ (k : Nat) (p : Bytes), Tab.find k
      s.otp.officers = some p) ∧
    (∃ (c : Instr) (s : State) (t : State), exec c s = Host.Outcome.next t ∧ ∃ (i : Nat), s.otp.officersRevoked.testBit
      i = true) ∧
    (∃ (c : Instr) (s : State) (t : State), exec c s = Host.Outcome.next t ∧ ∃ (i : Nat), s.otp.anchorsRevoked.testBit
      i = true) ∧
    (∃ (c : Instr) (s : State) (t : State), exec c s = Host.Outcome.next t ∧ s.otp.dukOff = true) ∧
    (∃ (c : Instr) (s : State) (t : State), exec c s = Host.Outcome.next t) :=
  ⟨⟨.relayFail, o, _, rfl, 0, [7], (by decide +kernel)⟩,
   ⟨.relayFail, o, _, rfl, 0, (by decide +kernel)⟩,
   ⟨.relayFail, o, _, rfl, 0, (by decide +kernel)⟩,
   ⟨.relayFail, o, _, rfl, (by decide +kernel)⟩,
   ⟨.relayFail, o, _, rfl⟩⟩
end Witness.OtpOnlyGrows

namespace Witness.ResetsAndStartUp
def s1 : State :=
  {}
def s2 : State :=
  { objs := [(K.startStep, 1)] }
def s3 : State :=
  { objs := [(K.ethLink 0, 1), (K.startStep, 8)], sessions := [sess 1] }
def s4 : State :=
  { objs := [(K.startStep, 2)] }
def s5 : State :=
  { objs := [(K.startStep, 3)] }
def s6 : State :=
  { objs := [(K.startStep, 4)] }
def s7 : State :=
  { objs := [(K.startStep, 5)] }
def s8 : State :=
  { objs := [(K.startStep, 6)] }
def s9 : State :=
  { objs := [(K.dramReady, 1), (K.startStep, 7)] }
def s10 : State :=
  { objs := [(K.ethLink 0, 1), (K.startStep, 8)] }
def s11 : State :=
  { objs := [(K.fltFenced, 65534), (K.startStep, 9)],
    cal := { paths := (List.range 96).map fun i => (i, { conv := true }) } }
def s12 : State :=
  { objs := [(K.startStep, 10)] }
def s13 : State :=
  { flt := { active := [8] } }
theorem witness_ResetsAndStartUp :
    (∃ (s : State), rd K.startStep s ≠ 1) ∧
    (∃ (s : State), rd K.startStep s = 1) ∧
    (HostMeets opWrite K.resetCmd [1] 1 false fun _ _ => True) ∧
    (∃ (v : Byte), v ≠ 1 ∧ HostMeets opWrite K.resetCmd [v] 1 false fun _ _ => True) ∧
    (∃ (ok : Bool) (s : State), (rd K.startFail s = 0 ∨ rd K.startFail s = 4) ∧ (rd K.startStep s < 8 →
      s.flt.active.any holdsStart = false) ∧ rd K.startStep s = 1 ∧ ok = true) ∧
    (∃ (ok : Bool) (s : State), (rd K.startFail s = 0 ∨ rd K.startFail s = 4) ∧ (rd K.startStep s < 8 →
      s.flt.active.any holdsStart = false) ∧ rd K.startStep s = 2 ∧ ok = true ∧ s.flt.active.contains 3 = false ∧
      s.flt.active.contains 4 = false) ∧
    (∃ (ok : Bool) (s : State), (rd K.startFail s = 0 ∨ rd K.startFail s = 4) ∧ (rd K.startStep s < 8 →
      s.flt.active.any holdsStart = false) ∧ rd K.startStep s = 3 ∧ ok = true ∧ s.flt.active.contains 0 = false ∧
      s.flt.active.contains 1 = false ∧ s.flt.active.contains 2 = false) ∧
    (∃ (ok : Bool) (s : State), (rd K.startFail s = 0 ∨ rd K.startFail s = 4) ∧ (rd K.startStep s < 8 →
      s.flt.active.any holdsStart = false) ∧ rd K.startStep s = 4 ∧ ok = true) ∧
    (∃ (ok : Bool) (s : State), (rd K.startFail s = 0 ∨ rd K.startFail s = 4) ∧ (rd K.startStep s < 8 →
      s.flt.active.any holdsStart = false) ∧ rd K.startStep s = 4 ∧ ok = false) ∧
    (∃ (ok : Bool) (s : State), (rd K.startFail s = 0 ∨ rd K.startFail s = 4) ∧ (rd K.startStep s < 8 →
      s.flt.active.any holdsStart = false) ∧ rd K.startStep s = 5 ∧ ok = true) ∧
    (∃ (ok : Bool) (s : State), (rd K.startFail s = 0 ∨ rd K.startFail s = 4) ∧ (rd K.startStep s < 8 →
      s.flt.active.any holdsStart = false) ∧ rd K.startStep s = 5 ∧ ok = false) ∧
    (∃ (ok : Bool) (s : State), (rd K.startFail s = 0 ∨ rd K.startFail s = 4) ∧ (rd K.startStep s < 8 →
      s.flt.active.any holdsStart = false) ∧ rd K.startStep s = 6 ∧ ok = true ∧ s.boot.loader = false ∧ (s.boot.bootsel
      = true ∨ imageValid (flashImage 0 s) s = false ∧ imageValid (flashImage 1 s) s = false)) ∧
    (∃ (s : State), (rd K.startFail s = 0 ∨ rd K.startFail s = 4) ∧ (rd K.startStep s < 8 → s.flt.active.any holdsStart
      = false) ∧ rd K.startStep s = 7 ∧ rd K.dramReady s = 1 ∧ imageRecords s.boot.image = [] ∧ ∀ (x : Session), x ∈
      s.sessions → x.id ≠ 0) ∧
    (∃ (s : State), (rd K.startFail s = 0 ∨ rd K.startFail s = 4) ∧ (rd K.startStep s < 8 → s.flt.active.any holdsStart
      = false) ∧ rd K.startStep s = 8 ∧ rd K.startFail s = 0 ∧ ∃ (p : Nat), p < 4 ∧ rd (K.ethLink p) s = 1) ∧
    (∃ (s : State), (rd K.startFail s = 0 ∨ rd K.startFail s = 4) ∧ (rd K.startStep s < 8 → s.flt.active.any holdsStart
      = false) ∧ rd K.startStep s = 9 ∧ (∀ (g : Nat), g < 16 → fenced g s = true ∨ groupConverged g s = true) ∧ ∀ (e :
      Nat), e < 16 → rd (K.peEnableAtBoot e) s ≠ 1) ∧
    (∃ (s : State), (rd K.startFail s = 0 ∨ rd K.startFail s = 4) ∧ (rd K.startStep s < 8 → s.flt.active.any holdsStart
      = false) ∧ 10 ≤ rd K.startStep s) ∧
    (∃ (s : State), rd K.startFail s ≠ 0 ∧ rd K.startFail s ≠ 4 ∨ rd K.startStep s < 8 ∧ s.flt.active.any holdsStart =
      true) :=
  ⟨⟨s1, (by decide +kernel)⟩,
   ⟨s2, (by decide +kernel)⟩,
   hostMeets s3 (by decide +kernel) (by decide +kernel),
   ⟨0, ⟨(by decide +kernel), (hostMeets s3 (by decide +kernel) (by decide +kernel))⟩⟩,
   ⟨true, ⟨s2, (by decide +kernel)⟩⟩,
   ⟨true, ⟨s4, (by decide +kernel)⟩⟩,
   ⟨true, ⟨s5, (by decide +kernel)⟩⟩,
   ⟨true, ⟨s6, (by decide +kernel)⟩⟩,
   ⟨false, ⟨s6, (by decide +kernel)⟩⟩,
   ⟨true, ⟨s7, (by decide +kernel)⟩⟩,
   ⟨false, ⟨s7, (by decide +kernel)⟩⟩,
   ⟨true, ⟨s8, (by decide +kernel)⟩⟩,
   ⟨s9, (by decide +kernel)⟩,
   ⟨s10, (by decide +kernel)⟩,
   ⟨s11, (by decide +kernel)⟩,
   ⟨s12, (by decide +kernel)⟩,
   ⟨s13, (by decide +kernel)⟩⟩
end Witness.ResetsAndStartUp

namespace Witness.LoaderBoots
def s1 : State :=
  { objs := [(K.ethLink 0, 1)], sessions := [sess 1], boot := { loader := true } }
def s2 : State :=
  { objs := [(K.ethLink 0, 1), (K.startStep, 8)], sessions := [sess 1] }
theorem witness_LoaderBoots :
    (∃ (offset : BitVec 64) (data : Bytes), HostMeets opWriteBlock K.bootStage (blockPrefix offset.toNat 0 0 ++ data) 1
      false fun x s => (data ≠ [] ∧ List.length data ≤ maxData x.port x.v6 x.auth s ∧ offset.toNat + List.length data ≤
      16777216) ∧ s.boot.loader = true) ∧
    (∃ (offset : BitVec 64) (data : Bytes), HostMeets opWriteBlock K.bootStage (blockPrefix offset.toNat 0 0 ++ data) 1
      false fun x s => (data ≠ [] ∧ List.length data ≤ maxData x.port x.v6 x.auth s ∧ offset.toNat + List.length data ≤
      16777216) ∧ s.boot.loader = false) ∧
    (ReqMeets opWrite K.bootCmd [1] fun _ x s => indexExists K.bootCmd s = true ∧ 1 ≤ x.role ∧ x.role < 2 ∧
      s.boot.loader = true) ∧
    (HostMeets opWrite K.bootCmd [1] 1 false fun _ s => s.boot.loader = false) :=
  ⟨⟨0, ⟨[0, 1, 2], (hostMeets s1 (by decide +kernel) (by decide +kernel))⟩⟩,
   ⟨0, ⟨[0, 1, 2], (hostMeets s2 (by decide +kernel) (by decide +kernel))⟩⟩,
   (reqMeets s1 (by decide +kernel) (by decide +kernel)),
   hostMeets s2 (by decide +kernel) (by decide +kernel)⟩
end Witness.LoaderBoots

namespace Witness.JtagInstructions
def s1 : State :=
  {}
def s2 : State :=
  { objs := [(K.runState 3, 3), (K.startStep, 8)] }
def s3 : State :=
  { objs := [(K.startStep, 8)] }
def s4 : State :=
  { objs := [(K.secCertMode, 1)] }
theorem witness_JtagInstructions :
    (∃ (s : State) (code : BitVec 8), code ∈ [0, 3, 4] ∧ (rd K.startStep s < 8 ∨ ∀ (g : Nat), g < 16 → runState g s = 0
      ∨ runState g s = 6)) ∧
    (∃ (s : State) (code : BitVec 8), code ∈ [0, 3, 4] ∧ ¬(rd K.startStep s < 8 ∨ ∀ (g : Nat), g < 16 → runState g s =
      0 ∨ runState g s = 6)) ∧
    (∃ (s : State), rd K.secCertMode s = 0 ∧ (4 ≤ rd K.startStep s ∨ rd K.startStep s = 3 ∧ rd K.resetCause s ≠ 0)) ∧
    (∃ (s : State), rd K.secCertMode s = 1) ∧
    (∃ (code : BitVec 8), 4 < code.toNat ∧ code ≠ 56) ∧
    (∃ (code : BitVec 8), code.toNat ≤ 4 ∨ code = 56) :=
  ⟨⟨s1, (by decide +kernel)⟩,
   ⟨s2, (by decide +kernel)⟩,
   ⟨s3, (by decide +kernel)⟩,
   ⟨s4, (by decide +kernel)⟩,
   by decide +kernel,
   by decide +kernel⟩
end Witness.JtagInstructions

namespace Witness.CalibrationFaultAndSecurityCommandsComplete
/-- Two paths of channel 50 lag, the second for longer. -/
def sl : State := { cal := { lagAt := [(300, 9), (301, 5)] } }
theorem lagsFirst {q b : Nat} (h : Tab.find (6 * 50 + q) sl.cal.lagAt = some b) : 5 ≤ b := by
  simp only [sl, Tab.find] at h
  split at h
  · cases h; decide
  · split at h
    · cases h; decide
    · cases h
def s1 : State :=
  { objs := [(K.startStep, 9)], cal := { slot := 50 } }
def s2 : State :=
  { objs := [(K.startStep, 5)] }
def s3 : State :=
  { }
def s4 : State :=
  { objs := [(K.sysMode 4, 3)],
    otp := { factory := [(1560, 10, 20, -30, 40), (1564, 14, 8, -30, 40), (1565, 15, 5, -30, 40)] } }
def s5 : State :=
  { objs := [(K.startStep, 9)] }
def s6 : State :=
  { objs := [(K.ethLink 0, 1), (K.secState, 1), (K.startStep, 8)], sessions := [{ sess 3 with expert := true }] }
def s7 : State :=
  { objs := [(K.ethLink 0, 1), (K.startStep, 8)], sessions := [{ sess 3 with expert := true }],
    sec := { keks := [(1, 77, [1, 2])] } }
def s8 : State :=
  { objs := [(K.ethLink 0, 1), (K.startStep, 9)], sessions := [{ sess 2 with expert := true }] }
def s9 : State :=
  { objs := [(K.ethLink 0, 1), (K.startStep, 8), (K.pwrVqpsUv, 5)], sessions := [{ sess 3 with expert := true }] }
def s10 : State :=
  { objs := [(K.ethLink 0, 1), (K.startStep, 8)], sessions := [{ sess 3 with expert := true }],
    otp := { officers := [(0, List.replicate 97 7)] } }
def s11 : State :=
  { objs := [(K.ethLink 0, 1), (K.startStep, 8), (K.pwrVqpsUv, 5)], sessions := [{ sess 3 with expert := true }],
    otp := { anchors := [(0, [])] } }
def s12 : State :=
  { grps := [(2, { fetches := [{ kind := .sealedImage 3, todo := [] }] })] }
def s13 : State :=
  { objs := [(K.ethLink 0, 1), (K.startStep, 9)], sessions := [{ sess 3 with expert := true }] }
def s14 : State :=
  { objs := [(K.ethLink 0, 1), (K.mcodeVersion, 1), (K.secState, 1), (K.startStep, 8)],
    sessions := [{ sess 2 with expert := true }] }
def s15 : State :=
  { objs := [(K.ethLink 0, 1), (K.secCertMode, 1), (K.startStep, 8)], sessions := [{ sess 2 with expert := true }] }
theorem witness_CalibrationFaultAndSecurityCommandsComplete :
    (∃ (slot : Fin 264) (s : State), ↑slot = s.cal.slot ∧ 9 ≤ rd K.startStep s) ∧
    (∃ (v : Int) (s : State), -32768 ≤ v ∧ v ≤ 32767 ∧ 4 ≤ rd K.startStep s) ∧
    (∃ (slot : Fin 264) (p : Fin 6) (s : State), ↑p < pathsOf ↑slot ∧ calHeld (↑slot) s = false ∧ targetOk (target
      (↑slot) (↑p) s) = true ∧ jumps (↑slot) s = true) ∧
    (∃ (slot : Fin 264) (p : Fin 6) (s : State), ↑p < pathsOf ↑slot ∧ calHeld (↑slot) s = false ∧ targetOk (target
      (↑slot) (↑p) s) = true ∧ jumps (↑slot) s = false ∧ target (↑slot) (↑p) s ≠ (calPath (↑slot) (↑p) s).c ∧
      atCycleStart (↑slot) s = true ∧ pathQuiet (↑slot) (↑p) s = true ∧ (calPath (↑slot) (↑p) s).moved = none) ∧
    (∃ (n : Fin 256) (p : Nat) (a : Nat) (s : State), p < pathsOf ↑n ∧ Tab.find (6 * ↑n + p) s.cal.lagAt = some a ∧ (∀
      (q b : Nat), q < pathsOf ↑n → Tab.find (6 * ↑n + q) s.cal.lagAt = some b → a ≤ b) ∧ s.cal.lagging.contains ↑n =
      false ∧ ↑n % 2 = 0 ∧ fenced (↑n / 16) s = false) ∧
    (∃ (id : BitVec 9) (f : FaultSrc) (s : State), faultSrc id.toNat = some f ∧ 20 < id.toNat ∧ ¬(192 ≤ id.toNat ∧
      id.toNat ≤ 199) ∧ 8 ≤ rd K.startStep s ∧ faultClass id.toNat f s ≠ 0 ∧ suppressed id.toNat s = false ∧
      s.flt.active.contains id.toNat = false) ∧
    (∃ (id : BitVec 9) (f : FaultSrc), faultSrc id.toNat = some f ∧ 17 < id.toNat) ∧
    (∃ (i : Fin 4) (s : State), (fltin (↑i) s).active = false ∧ (fltin (↑i) s).ended = none) ∧
    (∃ (k : Fin 4) (p : Bytes) (r : Req) (x : Session) (s : State), List.length p = 145 ∧ leAt 0 1 p = 1 ∧ Admitted r
      opWrite (K.secKek ↑k) p x s ∧ indexExists (K.secKek ↑k) s = true ∧ 2 ≤ x.role ∧ x.expert = true ∧ rd K.secState s
      = 1 ∧ Tab.find (↑k) s.sec.keks = none) ∧
    (∃ (i : Fin 64) (p : Bytes) (r : Req) (x : Session) (s : State), List.length p = 48 ∧ leAt 0 1 p ≤ 3 ∧ Admitted r
      opWrite (K.skLoad ↑i) p x s ∧ indexExists (K.skLoad ↑i) s = true ∧ 2 ≤ x.role ∧ x.expert = true ∧ rd K.secState s
      ≠ 2 ∧ (keySlot (↑i) s).loaded = false ∧ Tab.find (leAt 0 1 p) s.sec.keks ≠ none) ∧
    (∃ (i : Fin 64), HostMeets opWrite (K.skClear ↑i) [1] 2 true fun _ s => rd K.secState s ≠ 2) ∧
    (∃ (k : Fin 4) (p : Bytes), List.length p = 97 ∧ HostMeets opWrite (K.secOfficerKey ↑k) p 2 true fun _ s => rd
      K.secState s ≠ 2 ∧ (rd K.pwrVqpsUv s ≠ 0 ∧ s.flt.active.contains 13 = false) ∧ Tab.find (↑k) s.otp.officers = none
      ∧ s.otp.officersRevoked.testBit ↑k = false) ∧
    (∃ (v : Byte), HostMeets opWrite K.secOfficerRevoke [v] 2 true fun _ s => rd K.secState s ≠ 2 ∧ ∃ (k : Nat),
      (heldMask s.otp.officers).testBit k = true ∧ (s.otp.officersRevoked ||| BitVec.toNat v &&& heldMask
      s.otp.officers).testBit k = false) ∧
    (∃ (v : Byte), HostMeets opWrite K.secAnchorRevoke [v] 3 true fun _ s => rd K.secState s ≠ 2 ∧ (rd K.pwrVqpsUv s ≠
      0 ∧ s.flt.active.contains 13 = false) ∧ ∃ (k : Nat), (heldMask s.otp.anchors).testBit k = true ∧
      (s.otp.anchorsRevoked ||| BitVec.toNat v &&& heldMask s.otp.anchors).testBit k = false) ∧
    (∃ (v : Byte), HostMeets opWrite K.secMinLevelSet [v] 2 true fun _ s => rd K.secState s ≠ 2 ∧ (rd K.pwrVqpsUv s ≠ 0
      ∧ s.flt.active.contains 13 = false) ∧ rd K.mcMinLevel s < BitVec.toNat v) ∧
    (∃ (g : Fin 16) (page : Nat) (x : Fetch) (s : State), leader (↑g) s = ↑g ∧ x.kind = FetchKind.sealedImage page ∧
      List.find? (fun (x : Fetch) => (match x.kind with | FetchKind.sealedImage _ => true | _ => false) &&
      x.todo.isEmpty && x.out == 0 && !x.bad) (grp (↑g) s).fetches = some x) ∧
    (HostMeets opWrite K.secDiagLoad [1] 3 true fun _ s => rd K.secState s ≠ 2 ∧ rd K.secCertMode s = 0 ∧ ∀ (g : Nat),
      g < 16 → liveSealed g s = false) ∧
    (HostMeets opWrite K.secSelftest [1] 2 true fun _ s => rd K.secState s ≠ 2 ∧ ∀ (g : Nat), g < 16 → liveSealed g s =
      false) ∧
    (HostMeets opWrite K.secZeroise [1] 2 true fun _ s => rd K.secState s ≠ 2 ∧ ∀ (g : Nat), g < 16 → liveSealed g s =
      false) ∧
    (HostMeets opWrite K.secZeroise [2] 2 true fun _ s => rd K.secState s ≠ 2 ∧ (rd K.pwrVqpsUv s ≠ 0 ∧
      s.flt.active.contains 13 = false) ∧ ∀ (g : Nat), g < 16 → liveSealed g s = false) ∧
    (HostMeets opWrite K.secCertMode [1] 2 true fun x s => x.role = 2 ∧ rd K.secState s = 1 ∧ (rd K.mcodeVersion
      s).testBit 0 = true ∧ rd K.secDiagLoad s = 0 ∧ (∀ (y : Session), y ∈ s.sessions → y.role ≠ 3) ∧ s.sec.keks = [] ∧
      (∀ (e : Nat × KeySlot), e ∈ s.sec.slots → e.snd.loaded = false) ∧ ∀ (g : Nat), g < 16 → busyState (runState g s) =
      false) ∧
    (HostMeets opWrite K.secCertMode [0] 2 true fun x s => x.role = 2 ∧ rd K.secCertMode s = 1 ∧ ∀ (g : Nat), g < 16 →
      liveSealed g s = false) :=
  ⟨⟨50, ⟨s1, (by decide +kernel)⟩⟩,
   ⟨823, ⟨s2, (by decide +kernel)⟩⟩,
   ⟨3, ⟨3, ⟨s3, (by decide +kernel)⟩⟩⟩,
   ⟨260, ⟨0, ⟨s4, (by decide +kernel)⟩⟩⟩,
   ⟨50, 1, 5, sl,
     by decide +kernel, by decide +kernel, fun _ _ _ hb => lagsFirst hb, by decide +kernel, by decide +kernel, by decide +kernel⟩,
   ⟨50, ⟨{ level := false, cls := 1, units := [] }, ⟨s5, (by decide +kernel)⟩⟩⟩,
   by decide +kernel,
   ⟨3, ⟨s3, (by decide +kernel)⟩⟩,
   ⟨0, ⟨[1, 0, 0, 0, 9, 8, 7, 6, 3, 3, 3, 3, 3, 3, 3, 3, 3, 3, 3, 3, 3, 3, 3, 3, 3, 3, 3, 3, 3, 3, 3, 3, 3, 3, 3, 3,
     3, 3, 3, 3, 3, 3, 3, 3, 3, 3, 3, 3, 3, 3, 3, 3, 3, 3, 3, 3, 3, 3, 3, 3, 3, 3, 3, 3, 3, 3, 3, 3, 3, 3, 3, 3, 3, 3,
     3, 3, 3, 3, 3, 3, 3, 3, 3, 3, 3, 3, 3, 3, 3, 3, 3, 3, 3, 3, 3, 3, 3, 3, 3, 3, 3, 3, 3, 3, 3, 3, 3, 3, 3, 3, 3, 3,
     3, 3, 3, 3, 3, 3, 3, 3, 3, 3, 3, 3, 3, 3, 3, 3, 3, 3, 3, 3, 3, 3, 3, 3, 3, 3, 3, 3, 3, 3, 3, 3, 3], ⟨_, ⟨_, ⟨s6,
     ⟨(by decide +kernel), ⟨(by decide +kernel), ⟨(admitted _ (by decide +kernel)), (by decide +kernel)⟩⟩⟩⟩⟩⟩⟩⟩,
   ⟨0, ⟨[1, 0, 0, 0, 9, 8, 7, 6, 3, 3, 3, 3, 3, 3, 3, 3, 3, 3, 3, 3, 3, 3, 3, 3, 3, 3, 3, 3, 3, 3, 3, 3, 3, 3, 3, 3,
     3, 3, 3, 3, 3, 3, 3, 3, 3, 3, 3, 3], ⟨_, ⟨_, ⟨s7, ⟨(by decide +kernel), ⟨(by decide +kernel), ⟨(admitted _
     (by decide +kernel)), (by decide +kernel)⟩⟩⟩⟩⟩⟩⟩⟩,
   ⟨3, (hostMeets s8 (by decide +kernel) (by decide +kernel))⟩,
   ⟨0, ⟨(List.replicate 97 7), ⟨(by decide +kernel), (hostMeets s9 (by decide +kernel) (by decide +kernel))⟩⟩⟩,
   ⟨0, (hostMeets s10 (by decide +kernel) ⟨(by decide +kernel), ⟨0, (by decide +kernel)⟩⟩)⟩,
   ⟨0, (hostMeets s11 (by decide +kernel) ⟨(by decide +kernel), ⟨(by decide +kernel), ⟨0, (by decide +kernel)⟩⟩⟩)⟩,
   ⟨1, (hostMeets s9 (by decide +kernel) (by decide +kernel))⟩,
   ⟨2, ⟨3, ⟨{ kind := .sealedImage 3, todo := [] }, ⟨s12, (by decide +kernel)⟩⟩⟩⟩,
   hostMeets s13 (by decide +kernel) (by decide +kernel),
   hostMeets s8 (by decide +kernel) (by decide +kernel),
   hostMeets s8 (by decide +kernel) (by decide +kernel),
   hostMeets s9 (by decide +kernel) (by decide +kernel),
   hostMeets s14 (by decide +kernel) (by decide +kernel),
   hostMeets s15 (by decide +kernel) (by decide +kernel)⟩
end Witness.CalibrationFaultAndSecurityCommandsComplete

end Sys2Proof.Tests
end

section
/-!
What a WRITE below the least period of SYS_PERIOD_FS comes to (02, table of 0x3200), and that
`Obligations.GroupAndTimingWrites` asks another answer of it. The part takes at least 625,000 fs and answers RANGE
below; the statement bounds the period by its code alone, and the fs values from 624,695 to 624,999 round to the code
1024 (R48), the least that it admits.
-/
namespace Sys2Proof.Machine
open Sys2Proof.Laws

/-! ### Little-endian values -/

/-- A value reads back from its bytes where they hold it. -/
theorem leNat_leBytes {n v : Nat} (h : v < 256 ^ n) : leNat (leBytes n v) = v := by
  induction n generalizing v with
  | zero => rw [Nat.pow_zero, Nat.lt_one_iff] at h; exact h.symm
  | succ n ih =>
    have high : v / 256 < 256 ^ n := Nat.div_lt_of_lt_mul (by rwa [Nat.pow_succ'] at h)
    rw [leBytes, leNat, ih high, BitVec.toNat_ofNat]
    omega

/-! ### Requests that their object refuses -/

/-- An admitted request's session is the one that its identifier finds. -/
theorem session_of_admitted {r : Req} {op key : Nat} {p : Bytes} {x : Session} {s : State}
    (h : Admitted r op key p x s) : session x.id s = some x := by
  obtain ⟨-, -, -, -, hx, -⟩ := h
  exact hx

/-- Receiving a request touches sessions alone. -/
theorem touched_eq (r : Req) (x : Session) (s : State) :
    touched r x s = { s with sessions := (touched r x s).sessions } := by
  unfold touched; split <;> rfl

/-- Whether an index exists does not depend on the sessions. -/
theorem indexExists_touched (key : Nat) (r : Req) (x : Session) (s : State) :
    indexExists key (touched r x s) = indexExists key s := by
  rw [touched_eq]; rfl

/-- A WRITE that its object refuses wherever its index exists, with a status other than BUSY: the command answers that
status, and beside the session's record nothing changes. -/
theorem hostRefuses_of_writeObj {c : Req → Instr} {key status : Nat} {p : Bytes}
    (hc : ∀ r s, exec (c r) s = .next (hostWrite r key p s)) (hs : status ≠ Code.busy)
    (hw : ∀ x s, indexExists key s = true → writeObj key p x s = refuse status s)
    (role : Nat) (expert : Bool) (pre : Session → State → Prop) :
    HostRefuses c opWrite key p role expert status pre := by
  intro r x s ha hi _ _ _
  have hbody := hw (self x (touched r x s)) (touched r x s) ((indexExists_touched key r x s).trans hi)
  obtain ⟨answers, rest, frame⟩ := executeReq_frame (r := r) (op := opWrite) (key := key) (len := p.length)
    (body := fun x s => writeObj key p (self x s) s) hbody hs
  refine ⟨_, hc r s, ?_⟩
  rw [hostWrite, request_admitted ha]
  refine ⟨answers, ?_, frame s (hostFrame_touched (session_of_admitted ha))⟩
  rw [rest, touched_eq]

/-- No admitted request is both executed and refused. -/
theorem not_hostDoes_of_hostRefuses {c : Req → Instr} {op key role status : Nat} {p : Bytes} {expert : Bool}
    {pre : Session → State → Prop} {post : Session → State → State → Prop} {r : Req} {x : Session} {s : State}
    (refuses : HostRefuses c op key p role expert status pre) (hs : status ≠ Code.ok) (ha : Admitted r op key p x s)
    (hi : indexExists key s = true) (hr : role ≤ x.role) (he : expert = true → x.expert = true) (hp : pre x s) :
    ¬ HostDoes c op key p role expert pre post := by
  intro does
  obtain ⟨t, ht, ⟨f, hf, -, -, -, ok⟩, -⟩ := does r x s ha hi hr he hp
  obtain ⟨u, hu, ⟨g, hg, -, -, -, no⟩, -⟩ := refuses r x s ha hi hr he hp
  obtain rfl : t = u := by rw [ht] at hu; exact Host.Outcome.next.inj hu
  obtain rfl : f = g := Option.some.inj (hf.symm.trans hg)
  exact hs (no.symm.trans ok)

/-! ### SYS_PERIOD_FS -/

/-- The row of SYS_PERIOD_FS (02, table of 0x3200). -/
def sysPeriodFsRow : ObjRow := ⟨0x3200, 8, 0x02, 1, .u64, .rw, 0, [], 0⟩

theorem objRow_sysPeriodFs : ∀ k : Fin 8, objRow (0x3200 + k.val) 2 = some sysPeriodFsRow := by decide

/-- The key of SYS_PERIOD_FS names index 0x3200 + k and subindex 2. -/
theorem sysPeriodFs_index (k : Nat) : K.sysPeriodFs k / 256 = 0x3200 + k := by unfold K.sysPeriodFs; omega

theorem sysPeriodFs_sub (k : Nat) : K.sysPeriodFs k % 256 = 2 := by unfold K.sysPeriodFs; omega

/-- Every role may write SYS_PERIOD_FS. -/
theorem roleOk_sysPeriodFs (k : Fin 8) (role : Nat) (s : State) :
    roleOk role (K.sysPeriodFs k) sysPeriodFsRow s = true := by
  have hk := k.isLt
  have officer : K.sysPeriodFs k ≠ K.secOfficerKey 0 := by unfold K.sysPeriodFs K.secOfficerKey; omega
  have expert : K.sysPeriodFs k ≠ K.sesExpert := by unfold K.sysPeriodFs K.sesExpert; omega
  have cert : K.sysPeriodFs k ≠ K.secCertMode := by unfold K.sysPeriodFs K.secCertMode; omega
  have none_needed : writeRole (K.sysPeriodFs k) sysPeriodFsRow s = 0 := by
    simp only [writeRole, sysPeriodFs_index, sysPeriodFsRow]
    rw [if_neg (by omega), if_neg (fun h => officer h.1), if_neg (by decide), if_neg (by decide), if_neg (by decide),
      if_neg expert, if_neg (by omega)]
  rw [roleOk, none_needed, decide_eq_true (Nat.zero_le role), decide_eq_false cert, Bool.and_false]
  rfl

/-- A WRITE of SYS_PERIOD_FS with eight bytes passes the checks up to its length. -/
theorem writeChecks_sysPeriodFs (k : Fin 8) (x : Session) {s : State} (hi : indexExists (K.sysPeriodFs k) s = true) :
    writeChecks x (K.sysPeriodFs k) 8 s = .ok sysPeriodFsRow := by
  have hcap : isCapIndex (0x3200 + k.val) = false := by
    rw [isCapIndex, decide_eq_false (show ¬ 0x3200 + k.val ≤ 0x0112 by omega), Bool.and_false]
  have hrow : findRow (K.sysPeriodFs k) s = .ok sysPeriodFsRow := by
    simp only [findRow, hi, Bool.not_true, Bool.false_eq_true, ↓reduceIte, sysPeriodFs_index, hcap,
      sysPeriodFs_sub, objRow_sysPeriodFs]
  simp only [writeChecks, hrow, bind, Except.bind, roleOk_sysPeriodFs]
  rfl

/-- The object's own rule refuses a period of less than 625,000 fs (02, table of 0x3200). -/
theorem writeSpecial_sysPeriodFs_of_lt (k : Fin 8) (x : Session) {v : Nat} (s : State) (hlt : v < 625000) :
    writeSpecial x (K.sysPeriodFs k) v s = some (refuse Code.range s) := by
  have hk := k.isLt
  have hv : leNat (leBytes 8 v) = v := leNat_leBytes (by omega)
  have hp : K.sysPeriodFs k ≠ K.tsPtr := by unfold K.sysPeriodFs K.tsPtr; omega
  have timing : writeSpecial x (K.sysPeriodFs k) v s = writeTiming x (K.sysPeriodFs k) v s := by
    simp only [writeSpecial, sysPeriodFs_index]
    rw [if_neg (by omega), if_neg (by omega), if_pos (by omega)]
  have body : writeTiming x (K.sysPeriodFs k) v s = some (sysTimingBody k 2 (leBytes 8 v) s) := by
    simp only [writeTiming, sysPeriodFs_index, sysPeriodFs_sub, hp]
    rw [if_neg (by omega), if_neg not_false, if_neg (by omega), if_pos (by omega), if_neg (by decide),
      if_pos (by decide), Nat.add_sub_cancel_left]
  have out : ¬ 625000 ≤ v := Nat.not_le.mpr hlt
  simp only [timing, body, sysTimingBody, need, hv, out, decide_false, Bool.false_eq_true, ↓reduceIte]

/-- A WRITE of less than 625,000 fs to SYS_PERIOD_FS passes every check before its value and is refused for it. -/
theorem writeObj_sysPeriodFs_of_lt (k : Fin 8) (x : Session) {p : Bytes} {s : State} (hp : p.length = 8)
    (hlt : leNat p < 625000) (hi : indexExists (K.sysPeriodFs k) s = true) :
    writeObj (K.sysPeriodFs k) p x s = refuse Code.range s := by
  have hk := k.isLt
  have passed : writeObj (K.sysPeriodFs k) p x s = writeNum x (K.sysPeriodFs k) sysPeriodFsRow p s := by
    have hb : K.sysPeriodFs k ≠ K.bootStage := by unfold K.sysPeriodFs K.bootStage; omega
    have hf : classF (K.sysPeriodFs k) = false := decide_eq_false (by unfold K.sysPeriodFs; omega)
    have hd : 0x3200 + k.val ≠ 0x1800 := by omega
    simp only [writeObj, sysPeriodFs_index, hb, hf, hd, hp, writeChecks_sysPeriodFs k x hi]
    rfl
  have member : memberSeq (K.sysPeriodFs k) s = false := by
    simp only [memberSeq, sysPeriodFs_index, decide_eq_false (show ¬ 0x3200 + k.val ≤ 0x204F by omega), Bool.and_false,
      Bool.false_and]
  have rule := writeSpecial_sysPeriodFs_of_lt k x s hlt
  simp only [passed, writeNum, need, sysPeriodFsRow, valueOf, ↓reduceIte, Bool.and_eq_true, ne_eq, reduceCtorEq,
    not_false_eq_true, decide_true, Bool.true_or, member, Bool.not_false, rule, ite_self]

/-- A write of less than 625,000 fs is refused with RANGE, whatever its code would be. -/
theorem hostRefuses_sysPeriodFs_of_lt (k : Fin 8) {p : Bytes} (hp : p.length = 8) (hlt : leNat p < 625000)
    (role : Nat) (expert : Bool) (pre : Session → State → Prop) :
    HostRefuses (.sysTimingWrite · k 2 p) opWrite (K.sysPeriodFs k) p role expert Code.range pre := by
  have hkey : 0x320000 + 256 * k.val + 2 = K.sysPeriodFs k := by unfold K.sysPeriodFs; omega
  refine hostRefuses_of_writeObj (fun r s => ?_) (by decide) (fun x s => writeObj_sysPeriodFs_of_lt k x hp hlt) _ _ _
  rw [← hkey]; rfl

/-! ### The counterexample -/

/-- 624,700 fs: less than the part takes, and 1024 as a code. -/
def shortPeriod : Bytes := leBytes 8 624700

/-- A host's session of role 1. -/
def shortPeriodSession : Session :=
  { id := 1, port := 0, v6 := false, addr := 1, udp := 2, role := 1, s0 := 0, opened := 0, last := 0, h := 5 }

/-- Its next request. -/
def shortPeriodReq : Req :=
  { port := 0, v6 := false, addr := 1, udp := 2, ver := 1, session := 1, seq := 6, ctr := 0, tag := 0 }

/-- A state after start-up with port 0 up, and edges of SYS0 that fit in a period of 1024: DE0 0 and DE1 512. -/
def shortPeriodState : State :=
  { objs := [(K.ethLink 0, 1), (K.startStep, 8)], blobs := [(K.sysEdge 0, leBytes 4 0 ++ leBytes 4 512)]
    sessions := [shortPeriodSession] }

theorem admitted_shortPeriodReq :
    Admitted shortPeriodReq opWrite (K.sysPeriodFs 0) shortPeriod shortPeriodSession shortPeriodState := by
  unfold Admitted; decide

/-- Refutes O12: SYS_PERIOD_FS written with 624,700 fs, whose code is 1024, answers RANGE where the statement asks for OK,
though DE0 0 and DE1 512 satisfy R49 with a period of 1024. -/
theorem not_groupAndTimingWrites : ¬ Obligations.GroupAndTimingWrites := by
  unfold Obligations.GroupAndTimingWrites
  rintro ⟨-, -, -, sys, -⟩
  obtain ⟨does, -⟩ := sys 0 2 shortPeriod sysPeriodFsRow (objRow_sysPeriodFs 0) (by decide) (by decide)
    (by decide) (by decide)
  have refuses := hostRefuses_sysPeriodFs_of_lt 0 (p := shortPeriod) (by decide) (by decide)
  exact absurd does (not_hostDoes_of_hostRefuses (refuses _ _ _) (by decide) admitted_shortPeriodReq (by decide)
    (by decide) (by decide) (by decide))

end Sys2Proof.Machine
end

section
/-!
What a cycle start of a group leaves as it is while its vector plays (02, 05): jump requests that land, dropped edges,
windows that close, judging, fetches. Each of these operations keeps one view of the state (`playView`, or `steady` where
the caches move), one lemma for each in the order in which the model builds them. What `Obligations.CyclesStart` says of a
group's chain is then read off the view and off the one update of the chain itself.
-/
namespace Sys2Proof.Machine

/-! ### The view that playing a vector keeps -/

/-- Where the chain of a sequencer stands: the range in play, the vectors played and the cycle starts. -/
structure Place where
  cur       : Option Range
  rep       : Nat
  off       : Nat
  played    : Nat
  cyc       : Nat
  lastStart : Nat
  nextAt    : Nat

/-- The place of a chain. -/
abbrev Seq.place (q : Seq) : Place := ⟨q.cur, q.rep, q.off, q.played, q.cyc, q.lastStart, q.nextAt⟩

/-- Whether an object says how a group plays: those of block 0x2000 (mode, gang, run state) and CG_BASE_PERIOD_ACT. -/
def playKey (k : Nat) : Bool := k / 256 / 16 = 0x200 || (k / 256 / 16 = 0x300 && k % 256 = 3)

/-- What the whole of a cycle start keeps beside the chain that it moves: time, what no play touches, how the groups
play, and where every chain stands. -/
structure Steady where
  now      : Nat
  sessions : List Session
  pes      : Tab Pe
  sec      : Sec
  mem      : List Host.Cell
  periods  : Tab Nat
  objs     : Nat → Nat
  place    : Nat → Place

/-- The steady part of a state. -/
def steady (s : State) : Steady :=
  { now := s.now, sessions := s.sessions, pes := s.pes, sec := s.sec, mem := s.dram.mem, periods := s.periods
    objs := fun k => if playKey k then rd k s else 0
    place := fun k => (seq k s).place }

/-- A granule in a cache but for the instant at which it was last played. -/
def Gran.content (x : Gran) : Gran := { x with played := 0 }

/-- What play needs of a group's cache: the granules that it holds, and the block errors of segments. -/
abbrev Grp.cache (x : Grp) : List Gran × List FmtErr := (x.grans.map Gran.content, x.blockErrs)

/-- The steady part of a state with the caches. -/
def playView (s : State) : Steady × (Nat → List Gran × List FmtErr) := (steady s, fun g => (grp g s).cache)

variable (s : State)

theorem steady_of_playView {s t : State} (h : playView t = playView s) : steady t = steady s := congrArg Prod.fst h

theorem cache_of_playView {s t : State} (h : playView t = playView s) (g : Nat) : (grp g t).cache = (grp g s).cache :=
  congrFun (congrArg Prod.snd h) g

theorem rd_of_steady {s t : State} (h : steady t = steady s) {k : Nat} (hk : playKey k = true) : rd k t = rd k s := by
  have := congrFun (congrArg Steady.objs h) k
  simpa only [steady, hk, if_true] using this

/-! ### The state's operations -/

@[simp] theorem playView_wr {k : Nat} (h : playKey k = false) (v : Nat) : playView (wr k v s) = playView s := by
  have hobjs : ∀ j, (if playKey j then rd j (wr k v s) else 0) = if playKey j then rd j s else 0 := by
    intro j
    by_cases hj : j = k
    · subst hj; simp only [h, Bool.false_eq_true, if_false]
    · rw [rd_wr_of_ne s hj]
  simp only [playView, steady, hobjs]
  rfl

@[simp] theorem playView_modSeq {f : Seq → Seq} (h : ∀ q, (f q).place = q.place) (k : Nat) :
    playView (modSeq k f s) = playView s := by
  have hplace : ∀ j, (seq j (modSeq k f s)).place = (seq j s).place := by
    intro j
    by_cases hj : j = k
    · subst hj; rw [seq_modSeq_self, h]
    · rw [seq_modSeq_of_ne s hj]
  simp only [playView, steady, hplace]
  rfl

@[simp] theorem playView_modGrp {f : Grp → Grp} (h : ∀ x, (f x).cache = x.cache) (k : Nat) :
    playView (modGrp k f s) = playView s := by
  have hcache : ∀ j, (grp j (modGrp k f s)).cache = (grp j s).cache := by
    intro j
    by_cases hj : j = k
    · subst hj; rw [grp_modGrp_self, h]
    · rw [grp_modGrp_of_ne s hj]
  simp only [playView, hcache]
  rfl

@[simp] theorem playView_setChan (n : Nat) (c : Chan) : playView (setChan n c s) = playView s := rfl
@[simp] theorem playView_modChan (n : Nat) (f : Chan → Chan) : playView (modChan n f s) = playView s := rfl
@[simp] theorem playView_modTrig (n : Nat) (f : Trig → Trig) : playView (modTrig n f s) = playView s := rfl
@[simp] theorem playView_modTcb (n : Nat) (f : Tcb → Tcb) : playView (modTcb n f s) = playView s := rfl
@[simp] theorem playView_free (n : Nat) : playView { s with free := n } = playView s := rfl

@[simp] theorem playView_forEach {α : Type} {f : α → State → State} (h : ∀ a s, playView (f a s) = playView s)
    (l : List α) : playView (forEach l f s) = playView s := forEach_keeps s playView f h l

@[simp] theorem playView_ite {p : Prop} {_ : Decidable p} (a b : State) :
    playView (if p then a else b) = if p then playView a else playView b := apply_ite playView p a b

@[simp] theorem playView_incSat {k : Nat} (h : playKey k = false) (w n : Nat) : playView (incSat w k n s) = playView s :=
  playView_wr s h _

@[simp] theorem playView_bump {k : Nat} (h : playKey k = false) : playView (bump k s) = playView s := playView_wr s h _

@[simp] theorem playView_bump16 {k : Nat} (h : playKey k = false) : playView (bump16 k s) = playView s := playView_wr s h _

/-- No other object counts, neither those of the sequencers, whose subindex is another, nor those from 0x3100 on. -/
theorem playKey_eq_false {k : Nat} (h : 0x201000 ≤ k) (hs : 0x301000 ≤ k ∨ k % 256 ≠ 3) : playKey k = false := by
  have h2 : k / 256 / 16 ≠ 0x200 := by omega
  have h3 : ¬ (k / 256 / 16 = 0x300 ∧ k % 256 = 3) := by omega
  simp only [playKey, h2, decide_false, Bool.false_or, ← Bool.decide_and, h3]

theorem playKey_of_le {k : Nat} (h : 0x301000 ≤ k) : playKey k = false := playKey_eq_false (by omega) (.inl h)

@[simp] theorem playKey_jtPending (l : Nat) : playKey (K.jtPending l) = false :=
  playKey_eq_false (by unfold K.jtPending; omega) (.inr (by unfold K.jtPending; omega))

@[simp] theorem playKey_jtReplaced (l : Nat) : playKey (K.jtReplaced l) = false :=
  playKey_eq_false (by unfold K.jtReplaced; omega) (.inr (by unfold K.jtReplaced; omega))

@[simp] theorem playKey_jtDiscarded (l : Nat) : playKey (K.jtDiscarded l) = false :=
  playKey_eq_false (by unfold K.jtDiscarded; omega) (.inr (by unfold K.jtDiscarded; omega))

@[simp] theorem playKey_chEdgeDrops (n : Nat) : playKey (K.chEdgeDrops n) = false :=
  playKey_of_le (by unfold K.chEdgeDrops; omega)

@[simp] theorem playKey_chFails (n : Nat) : playKey (K.chFails n) = false := playKey_of_le (by unfold K.chFails; omega)

@[simp] theorem playKey_chWindowErrs (n : Nat) : playKey (K.chWindowErrs n) = false :=
  playKey_of_le (by unfold K.chWindowErrs; omega)

@[simp] theorem playKey_failLost (g : Nat) : playKey (K.failLost g) = false :=
  playKey_of_le (by unfold K.failLost; omega)

@[simp] theorem playKey_capLost (g : Nat) : playKey (K.capLost g) = false := playKey_of_le (by unfold K.capLost; omega)

@[simp] theorem playKey_siteState (x : Nat) : playKey (K.siteState x) = false :=
  playKey_of_le (by unfold K.siteState; omega)

@[simp] theorem playKey_siteFails (x g : Nat) : playKey (K.siteFails x g) = false :=
  playKey_of_le (by unfold K.siteFails; omega)

@[simp] theorem playKey_rfLeadMinNs (g : Nat) : playKey (K.rfLeadMinNs g) = false :=
  playKey_of_le (by unfold K.rfLeadMinNs; omega)

@[simp] theorem playKey_rfReplayPasses (g : Nat) : playKey (K.rfReplayPasses g) = false :=
  playKey_of_le (by unfold K.rfReplayPasses; omega)

@[simp] theorem playKey_rfRestreamPasses (g : Nat) : playKey (K.rfRestreamPasses g) = false :=
  playKey_of_le (by unfold K.rfRestreamPasses; omega)

/-! ### Faults, posts and messages -/

theorem playView_noteFault (n cls : Nat) (level : Bool) : playView (noteFault n cls level s) = playView s :=
  playView_wr s (by decide) _

/-- Beside what it notes, a report moves the collector alone. -/
@[simp] theorem playView_raiseFault (n : Nat) : playView (raiseFault n s) = playView s := by
  unfold raiseFault
  split
  · rfl
  next f _ =>
    have note : ∀ x : Flt, playView { noteFault n (faultClass n f s) f.level s with flt := x } = playView s :=
      fun _ => playView_noteFault s n (faultClass n f s) f.level
    simp only [playView_ite, note, ite_self]

theorem playView_enterReady (t cycle : Nat) (head : Bool) : playView (enterReady t cycle head s) = playView s := rfl

@[simp] theorem playView_post (t : Nat) : playView (post t s) = playView s := by
  simp only [post, postWith, playView_ite, playView_modTcb, playView_enterReady, ite_self]

@[simp] theorem playView_relayQueue (m : Msg) : playView (relayQueue m s) = playView s := by
  have queued : ∀ x : Relay, playView { s with rly := x } = playView s := fun _ => rfl
  simp only [relayQueue, playView_ite, playView_bump s (show playKey K.rlyTxDropped = false by decide), queued, ite_self]

/-! ### Jump requests (R146, R152) -/

@[simp] theorem playView_armMaps (l t : Nat) : playView (armMaps l t s) = playView s := by simp [armMaps, sendJump]

@[simp] theorem playView_acceptJump (l e t : Nat) (src : JumpSrc) : playView (acceptJump l e t src s) = playView s := by
  simp [acceptJump]

@[simp] theorem playView_rejectJump (l : Nat) (r : JumpReq) : playView (rejectJump l r s) = playView s := by
  simp [rejectJump]

@[simp] theorem playView_landJumps (l t : Nat) : playView (landJumps l t s) = playView s := by
  simp [landJumps, landJump]

/-! ### Edges placed and dropped (R28, R35) -/

@[simp] theorem playView_countDrop (n : Nat) : playView (countDrop n s) = playView s := by
  simp [countDrop, edgeConflict]

@[simp] theorem playView_placeEdge (n : Nat) (ghost : Bool) (e : Edge) : playView (placeEdge n ghost e s) = playView s := by
  simp [placeEdge]

@[simp] theorem playView_placeFree (n : Nat) (e : Edge) : playView (placeFree n e s) = playView s := rfl

@[simp] theorem playView_modJudge (g vec : Nat) (f : Judge → Judge) : playView (modJudge g vec f s) = playView s := by
  simp [modJudge]

@[simp] theorem playView_failVec (n vec : Nat) (w : Bool) : playView (failVec n vec w s) = playView s :=
  playView_modJudge ..

@[simp] theorem playView_dropCarry (n cyc start : Nat) : playView (dropCarry n cyc start s) = playView s := by
  refine (playView_forEach _ (fun e s => ?_) _).trans (playView_modChan s n _)
  dsimp only
  split <;> simp

/-! ### Windows that close (R54, R59) -/

@[simp] theorem playView_departure (n vec len : Nat) : playView (departure n vec len s) = playView s := by
  simp [departure]

@[simp] theorem playView_closeWindow (n : Nat) (w : CmpWin) : playView (closeWindow n w s) = playView s := by
  unfold closeWindow
  dsimp only
  split <;> simp

@[simp] theorem playView_closeTdc (n vec : Nat) : playView (closeTdc n vec s) = playView s := by simp [closeTdc]

@[simp] theorem playView_expireWindows (n t : Nat) : playView (expireWindows n t s) = playView s := by
  simp [expireWindows]

/-! ### Judging (R57, R66, R71–R79) -/

@[simp] theorem playView_pushRecord (g e : Nat) : playView (pushRecord g e s) = playView s := by
  unfold pushRecord
  dsimp only
  split
  · simp
  · split <;> simp

@[simp] theorem playView_siteFail (site : Nat) : playView (siteFail site s) = playView s := by simp [siteFail]

@[simp] theorem playView_writeSlot (g site e : Nat) : playView (writeSlot g site e s) = playView s := by
  unfold writeSlot
  dsimp only
  split <;> simp

@[simp] theorem playView_siteRecord (g site : Nat) (mk : Bool → Nat) : playView (siteRecord g site mk s) = playView s := by
  simp [siteRecord]

@[simp] theorem playView_stageEntries (g : Nat) (es : List Nat) : playView (stageEntries g es s) = playView s := by
  simp [stageEntries]

@[simp] theorem playView_countFails (g : Nat) (j : Judge) : playView (countFails g j s) = playView s := by
  simp [countFails]

@[simp] theorem playView_logFails (g : Nat) (j : Judge) : playView (logFails g j s) = playView s := by simp [logFails]

@[simp] theorem playView_siteFlags (g fail : Nat) : playView (siteFlags g fail s) = playView s := by simp [siteFlags]

@[simp] theorem playView_repFails (g : Nat) (j : Judge) (r : Nat × Nat) : playView (repFails g j r s) = playView s := by
  simp [repFails]

@[simp] theorem playView_sealRecords (g : Nat) (j : Judge) (first : Nat) :
    playView (sealRecords g j first s) = playView s := by
  simp [sealRecords]

@[simp] theorem playView_completeVec (g : Nat) (j : Judge) : playView (completeVec g j s) = playView s := by
  unfold completeVec
  rcases j.sealEnd with - | first
  · rcases j.rep with - | r <;> simp
  · simp

@[simp] theorem playView_settleVecs (g fuel : Nat) : playView (settleVecs g fuel s) = playView s := by
  induction fuel generalizing s with
  | zero => rfl
  | succ fuel ih =>
    unfold settleVecs
    split
    · rfl
    · simp [ih]

@[simp] theorem playView_settleGroup (g : Nat) : playView (settleGroup g s) = playView s := playView_settleVecs ..

/-! ### The start of a cycle and its vector (R25, R29, R116, R205) -/

@[simp] theorem playView_openCycle (l t : Nat) : playView (openCycle l t s) = playView s := by
  simp [openCycle, fixVerdicts]

@[simp] theorem playView_beginRep (l t : Nat) (r : Range) : playView (beginRep l t r s) = playView s := by
  simp [beginRep, modBlk]

@[simp] theorem playView_countPasses (l : Nat) (passes : List Bool) : playView (countPasses l passes s) = playView s := by
  have key (lock : Bool) (g : Nat) : playKey (if lock then K.rfReplayPasses g else K.rfRestreamPasses g) = false := by
    cases lock <;> simp
  exact playView_forEach s (fun lock s => playView_forEach s (fun g s => playView_incSat s (key lock g) _ _) _) _

@[simp] theorem playView_touchGran (l page gr t : Nat) : playView (touchGran l page gr t s) = playView s := by
  have touched (l : List Gran) : (l.map (fun y => if y.page == page && y.n == gr then { y with played := t } else y)).map
      Gran.content = l.map Gran.content := by
    rw [List.map_map]
    refine List.map_congr_left (fun y _ => ?_)
    dsimp only [Function.comp]
    split <;> rfl
  refine playView_forEach s (fun g s => playView_modGrp s (fun x => ?_) g) _
  exact Prod.ext (touched x.grans) rfl

@[simp] theorem playView_placeStrobes (n t cyc vec m cmp : Nat) (seald : Bool) (ts : TimingSet) :
    playView (placeStrobes n t cyc vec m cmp seald ts s) = playView s := by
  simp [placeStrobes]

@[simp] theorem playView_placeLane (n t cyc vec m : Nat) (recv : Bool) (ts : TimingSet) :
    playView (placeLane n t cyc vec m recv ts s) = playView s := by
  simp [placeLane]

@[simp] theorem playView_placeChan (n t cyc vec pos m lane : Nat) (enter seald : Bool) (u : Unit) :
    playView (placeChan n t cyc vec pos m lane enter seald u s) = playView s := by
  simp [placeChan, placeDrive]

@[simp] theorem playView_playMember (l g t page pos : Nat) (enter : Bool) (rep : Option (Nat × Nat)) (marks : List Nat) :
    playView (playMember l g t page pos enter rep marks s) = playView s := by
  simp [playMember]

@[simp] theorem playView_noteLead (l : Nat) : playView (noteLead l s) = playView s := by simp [noteLead]

/-! ### What play reads of the view -/

/-- An object that says how a group plays: mode, gang, run state and CG_BASE_PERIOD_ACT. -/
theorem playKey_group {g : Nat} (hg : g < 16) : playKey (K.cgMode g) = true ∧ playKey (K.cgGang g) = true ∧
    playKey (K.runState g) = true ∧ playKey (K.cgBasePeriodAct g) = true := by
  revert g; decide

section
variable {s} {t : State} {g : Nat} (h : steady t = steady s)
include h

theorem mode_of_steady (hg : g < 16) : mode g t = mode g s := rd_of_steady h (playKey_group hg).1

theorem leader_of_steady (hg : g < 16) : leader g t = leader g s := rd_of_steady h (playKey_group hg).2.1

theorem runState_of_steady (hg : g < 16) : runState g t = runState g s := rd_of_steady h (playKey_group hg).2.2.1

theorem place_of_steady (k : Nat) : (seq k t).place = (seq k s).place := congrFun (congrArg Steady.place h) k

theorem members_of_steady (hg : g < 16) : members g t = members g s := by
  refine List.filter_congr (fun m hm => ?_)
  rw [leader_of_steady h hg, leader_of_steady h (List.mem_range.mp hm)]

/-- A vector's cycle is as long as before (R26). -/
theorem cycleLen_of_steady (hg : g < 16) (hl : leader g s = g) (ts : Nat) : cycleLen g ts t = cycleLen g ts s := by
  have hbase : rd (K.cgBasePeriodAct g) t = rd (K.cgBasePeriodAct g) s := rd_of_steady h (playKey_group hg).2.2.2
  have hperiod : tsPeriodOf g ts t = tsPeriodOf g ts s := by
    unfold tsPeriodOf; rw [show t.periods = s.periods from congrArg Steady.periods h]
  simp only [cycleLen, periodOf, mode_of_steady h hg, leader_of_steady h hg, hl, hbase, hperiod]

end

section
variable {s} {t : State} {g : Nat} (h : playView t = playView s)
include h

/-- A member plays the unit that it would have played before (R88). -/
theorem unitAt_of_playView (hg : g < 16) (page vec : Nat) : unitAt g page vec t = unitAt g page vec s := by
  have unit_eq : ∀ u, unitAt g page vec u = ((((grp g u).grans.map Gran.content).find?
      (fun x => x.page == page && x.n == granOf (mode g u) vec)).map
        (fun x => x.units.getD (vec % granule (mode g u) / unitVecs (mode g u)) ⟨0, 0⟩)).getD ⟨0, 0⟩ := by
    intro u
    rw [List.find?_map, Option.map_map]
    unfold unitAt
    dsimp only
    split <;> rename_i hx <;> simp only [Function.comp_def, Gran.content, hx] <;> rfl
  have hgrans : (grp g t).grans.map Gran.content = (grp g s).grans.map Gran.content :=
    congrArg Prod.fst (cache_of_playView h g)
  rw [unit_eq, unit_eq, hgrans, mode_of_steady (steady_of_playView h) hg]

theorem hasGran_of_playView (p : Nat × Nat) : hasGran g p t = hasGran g p s := by
  have has_eq : ∀ u, hasGran g p u = ((grp g u).grans.map Gran.content).any (fun x => x.page == p.1 && x.n == p.2) :=
    fun u => by rw [List.any_map]; rfl
  have hgrans : (grp g t).grans.map Gran.content = (grp g s).grans.map Gran.content :=
    congrArg Prod.fst (cache_of_playView h g)
  rw [has_eq, has_eq, hgrans]

theorem granBad_of_playView (p : Nat × Nat) : granBad g p t = granBad g p s := by
  have herrs : (grp g t).blockErrs = (grp g s).blockErrs := congrArg Prod.snd (cache_of_playView h g)
  simp only [granBad, blockErrOf, herrs]

theorem granReady_of_playView (hg : g < 16) (page pos : Nat) : granReady g page pos t = granReady g page pos s := by
  have hs := steady_of_playView h
  simp only [granReady, members_of_steady hs hg, mode_of_steady hs hg, hasGran_of_playView h, granBad_of_playView h]

end

/-! ### Fetches (R202) -/

theorem steady_forEach {α : Type} {f : α → State → State} (h : ∀ a s, steady (f a s) = steady s) (l : List α) :
    steady (forEach l f s) = steady s := forEach_keeps s steady f h l

theorem steady_planGran (g : Nat) (p : Nat × Nat) : steady (planGran g p s) = steady s := by
  unfold planGran
  dsimp only
  split
  · rfl
  · split
    · rfl
    · split <;> rfl

/-- A refill engine moves caches, fetches and requests alone. -/
theorem steady_refill (g : Nat) : steady (refill g s) = steady s := by
  have planned : steady (planGrans g s) = steady s := steady_forEach s (fun p s => steady_planGran s g p) _
  unfold refill
  dsimp only
  split
  · rfl
  · exact planned

theorem steady_refillGang (l : Nat) : steady (refillGang l s) = steady s :=
  steady_forEach s (fun g s => steady_refill s g) _

/-! ### A vector plays (R25, R26) -/

/-- A chain that has played a vector at an instant in a cycle of a length. -/
def Place.advanced (t len : Nat) (p : Place) : Place :=
  { p with off := p.off + 1, played := p.played + 1, cyc := p.cyc + 1, lastStart := t, nextAt := t + len }

/-- The chain of one sequencer has played a vector. -/
def Steady.playedBy (l t len : Nat) (x : Steady) : Steady :=
  { x with place := fun k => if k = l then (x.place l).advanced t len else x.place k }

theorem steady_modSeq_played {f : Seq → Seq} {l t len : Nat} (h : ∀ q, (f q).place = q.place.advanced t len) :
    steady (modSeq l f s) = (steady s).playedBy l t len := by
  have hplace : (fun k => (seq k (modSeq l f s)).place) =
      fun k => if k = l then (seq l s).place.advanced t len else (seq k s).place := by
    funext k
    by_cases hk : k = l
    · subst hk; rw [seq_modSeq_self, h, if_pos rfl]
    · rw [seq_modSeq_of_ne s hk, if_neg hk]
  simp only [steady, Steady.playedBy, ← hplace]
  rfl

section
variable {s} {l : Nat} (hl : l < 16) (hlead : leader l s = l)
include hl hlead

/-- With its vector a chain comes to the next cycle start, one cycle length on, and nothing else of the steady part
moves. -/
theorem steady_playVector (t page pos : Nat) (enter : Bool) (rep : Option (Nat × Nat)) (marks : List Nat) :
    steady (playVector l t page pos enter rep marks s) =
      (steady s).playedBy l t (cycleLen l (unitAt l page pos s).ts s) := by
  unfold playVector
  extract_lets opened m fresh touched judged len moved
  have kept : playView judged = playView s := by simp only [judged, touched, opened, playView_forEach, playView_playMember,
    implies_true, playView_ite, playView_touchGran, playView_openCycle, ite_self]
  have hlen : len = cycleLen l (unitAt l page pos s).ts s := by
    rw [← unitAt_of_playView kept hl, ← cycleLen_of_steady (steady_of_playView kept) hl hlead]
  have hmoved : steady moved = (steady judged).playedBy l t len := steady_modSeq_played judged (fun _ => rfl)
  have refilled : steady (refillGang l (noteLead l moved)) = steady moved :=
    (steady_refillGang _ l).trans (steady_of_playView (playView_noteLead moved l))
  rw [apply_ite steady, refilled, ite_self, hmoved, steady_of_playView kept, hlen]

/-- The vector at the play position of a range plays where its granule is ready (R157). -/
theorem steady_playNext {r : Range} (enter : Bool) (marks : List Nat) (t : Nat)
    (hready : granReady l r.page (r.first + (seq l s).off) s = true) :
    steady (playNext l t r enter marks s) =
      (steady s).playedBy l t (cycleLen l (unitAt l r.page (r.first + (seq l s).off) s).ts s) := by
  unfold playNext
  extract_lets q pos begun rep
  have kept : playView begun = playView s := by
    simp only [begun, playView_ite, playView_countPasses, playView_beginRep, ite_self]
  rw [if_neg (by simp [pos, q, hready]),
    steady_playVector hl (by rw [leader_of_steady (steady_of_playView kept) hl, hlead]), steady_of_playView kept, unitAt_of_playView kept hl, cycleLen_of_steady (steady_of_playView kept) hl hlead]

end

/-- A chain with a cycle start to come is that of a gang's leader. -/
theorem leader_of_cycleDue {g : Nat} (h : cycleDue g s = true) : leader g s = g := by
  simp only [cycleDue, Bool.and_eq_true, decide_eq_true_eq] at h
  obtain ⟨⟨⟨⟨⟨⟨⟨⟨-, hlead⟩, -⟩, -⟩, -⟩, -⟩, -⟩, -⟩, -⟩ := h
  exact hlead

/-- A cycle start of a group that plays a range: the next vector of the range plays, and the steady part of the state
moves with the chain and with time alone. -/
theorem steady_cycleGroup {g : Nat} {r : Range} (hg : g < 16) (hdue : cycleDue g s = true) (hs : (seq g s).stopped = none)
    (hrun : runState g s = 3) (hcur : (seq g s).cur = some r) (hoff : (seq g s).off < r.count)
    (hready : granReady g r.page (r.first + (seq g s).off) s = true) :
    steady (cycleGroup g s) = (steady (toTime (seq g s).nextAt s)).playedBy g (seq g s).nextAt
      (cycleLen g (unitAt g r.page (r.first + (seq g s).off) s).ts s) := by
  have hlead := leader_of_cycleDue s hdue
  unfold cycleGroup
  extract_lets q t landed played
  have kept : playView landed = playView (toTime t s) := playView_landJumps _ g t
  have place : (seq g landed).place = q.place := place_of_steady (steady_of_playView kept) g
  have offset : (seq g landed).off = q.off := congrArg Place.off place
  have stepped : steady played = (steady landed).playedBy g t
      (cycleLen g (unitAt g r.page (r.first + (seq g landed).off) landed).ts landed) := by
    have hrun' : runState g landed ≠ 4 := by
      rw [runState_of_steady (steady_of_playView kept) hg]; exact fun h => by cases h.symm.trans hrun
    have hcur' : (seq g landed).cur = some r := (congrArg Place.cur place).trans hcur
    have started : played = playNext g t r false [] landed := by
      simp only [played, q, hs, Option.isSome_none, Bool.false_eq_true, hrun', playStep, hcur', offset, hoff,
        if_true, if_false]
    rw [started]
    exact steady_playNext hg ((leader_of_steady (steady_of_playView kept) hg).trans hlead) _ _ _
      (by rw [granReady_of_playView kept hg, offset]; exact hready)
  have settled : steady (forEach (members g played) settleGroup played) = steady played :=
    steady_of_playView (playView_forEach _ (fun g s => playView_settleGroup s g) _)
  rw [if_neg (by simp only [hdue, Bool.not_true, Bool.false_eq_true, not_false_eq_true])]
  refine settled.trans (stepped.trans ?_)
  rw [steady_of_playView kept, unitAt_of_playView kept hg, cycleLen_of_steady (steady_of_playView kept) hg hlead,
    offset]
  rfl

end Sys2Proof.Machine
end

section
/-!
What the steps of one channel unit change (02, 03): the unit itself, and with its strobes the judging of its group.
-/
namespace Sys2Proof.Machine

/-! ### Frames of a channel unit -/

/-- One channel unit may have changed, and nothing else. -/
structure OnlyChan (n : Nat) (s t : State) : Prop where
  chansBut : ChansBut n s t
  eq       : t = { s with chans := t.chans }

/-- One channel unit and its group's judging may have changed, and nothing else. -/
structure OnlyUnit (n : Nat) (s t : State) : Prop where
  chansBut : ChansBut n s t
  grpsBut  : GrpsBut [n / 16] s t
  eq       : t = { s with chans := t.chans, grps := t.grps }

variable {s t u : State} {n : Nat}

theorem OnlyChan.refl (n : Nat) (s : State) : OnlyChan n s s := ⟨fun _ _ => rfl, rfl⟩

theorem OnlyChan.trans (h : OnlyChan n s t) (h' : OnlyChan n t u) : OnlyChan n s u := by
  obtain ⟨chans, rest⟩ := h
  obtain ⟨chans', rest'⟩ := h'
  refine ⟨fun m hm => (chans' m hm).trans (chans m hm), rest'.trans ?_⟩
  rw [rest]

theorem OnlyUnit.refl (n : Nat) (s : State) : OnlyUnit n s s := ⟨fun _ _ => rfl, fun _ _ => rfl, rfl⟩

theorem OnlyUnit.trans (h : OnlyUnit n s t) (h' : OnlyUnit n t u) : OnlyUnit n s u := by
  obtain ⟨chans, grps, rest⟩ := h
  obtain ⟨chans', grps', rest'⟩ := h'
  refine ⟨fun m hm => (chans' m hm).trans (chans m hm), fun g hg => (grps' g hg).trans (grps g hg), rest'.trans ?_⟩
  rw [rest]

theorem OnlyChan.onlyUnit (h : OnlyChan n s t) : OnlyUnit n s t := by
  obtain ⟨chans, rest⟩ := h
  have grps : t.grps = s.grps := by rw [rest]
  exact ⟨chans, fun g _ => by rw [grp, grps, ← grp], rest.trans (by rw [grps])⟩

theorem OnlyChan.grp_eq (h : OnlyChan n s t) (g : Nat) : grp g t = grp g s := by
  rw [h.eq]; rfl

theorem OnlyUnit.rd_eq (h : OnlyUnit n s t) (k : Nat) : rd k t = rd k s := by
  rw [h.eq]; rfl

theorem OnlyUnit.sysch_eq (h : OnlyUnit n s t) (k : Nat) : sysch k t = sysch k s := by
  rw [h.eq]; rfl

theorem onlyChan_setChan (n : Nat) (c : Chan) (s : State) : OnlyChan n s (setChan n c s) :=
  ⟨fun _ hm => Tab.get_set_of_ne hm _ _ _, rfl⟩

theorem onlyChan_modChan (n : Nat) (f : Chan → Chan) (s : State) : OnlyChan n s (modChan n f s) := onlyChan_setChan ..

theorem onlyUnit_failVec (n vec : Nat) (w : Bool) (s : State) : OnlyUnit n s (failVec n vec w s) :=
  ⟨fun _ _ => rfl, fun _ hg => grp_modGrp_of_ne s (List.ne_of_not_mem_cons hg) _, rfl⟩

/-- What relates every step of a fold to its outcome relates the fold to its own. -/
theorem forEach_relates {α : Type} {R : State → State → Prop} (refl : ∀ s, R s s)
    (trans : ∀ {s t u}, R s t → R t u → R s u) {f : α → State → State} (h : ∀ a s, R s (f a s)) (l : List α) (s : State) :
    R s (forEach l f s) := by
  induction l generalizing s with
  | nil => exact refl s
  | cons a l ih => exact trans (h a s) (ih (f a s))

/-! ### Edges of a system channel (R35, R45) -/

/-- A system channel has no counter of dropped edges (R36). -/
theorem countDrop_sys (h : 256 ≤ n) (s : State) : countDrop n s = s := if_neg (by omega)

/-- An edge of a generator that has placed none is accepted (R35). -/
theorem placeEdge_of_fresh {e : Edge} (h : (chan n s).latest e.gen = none) (ghost : Bool) :
    placeEdge n ghost e s = modChan n (fun c => { c with sched := c.sched ++ [e] }) s := by
  unfold placeEdge
  simp only [h, Bool.false_eq_true, if_false]
  rfl

theorem onlyChan_placeEdge_sys (h : 256 ≤ n) (e : Edge) (s : State) : OnlyChan n s (placeEdge n false e s) := by
  cases hlast : (chan n s).latest e.gen with
  | none => rw [placeEdge_of_fresh hlast]; exact onlyChan_modChan ..
  | some l =>
    simp only [placeEdge, hlast, countDrop_sys h, Bool.false_eq_true, if_false]
    split
    · exact OnlyChan.refl n s
    · exact onlyChan_setChan ..

theorem onlyChan_placeSys (k t cyc : Nat) (s : State) : OnlyChan (256 + k) s (placeSys k t cyc s) :=
  forEach_relates (OnlyChan.refl _) OnlyChan.trans (fun _ s => onlyChan_placeEdge_sys (by omega) _ s) _ s

theorem onlyUnit_dropCarry_sys (h : 256 ≤ n) (cyc start : Nat) (s : State) : OnlyUnit n s (dropCarry n cyc start s) := by
  refine (onlyChan_modChan n _ s).onlyUnit.trans
    (forEach_relates (OnlyUnit.refl n) OnlyUnit.trans (fun e s => ?_) _ _)
  simp only [countDrop_sys h, ite_self]
  have failed : OnlyUnit n s (if e.gen = 7 ∧ (chan n s).win.any (fun w => w.vec == e.vec) then
      modChan n (fun c => { c with win := c.win.filter (fun w => w.vec != e.vec) }) (failVec n e.vec true s) else s) := by
    split
    · exact (onlyUnit_failVec n _ _ s).trans (onlyChan_modChan n _ _).onlyUnit
    · exact OnlyUnit.refl n s
  split
  · exact failed.trans (onlyChan_modChan n _ _).onlyUnit
  · exact failed

/-- A unit with an empty schedule has nothing that a cycle start could drop. -/
theorem chan_dropCarry_of_idle (h : (chan n s).sched = []) (cyc start : Nat) :
    chan n (dropCarry n cyc start s) = chan n s := by
  unfold dropCarry
  simp only [h, List.filter_nil, forEach_nil, chan_modChan_self]
  rw [← h]

/-- The waveform RZ of an idle system channel: high at DE0 and low at DE1 (R31, R45). -/
theorem sched_placeSys_rz {k : Nat} (hf : rd (K.sysFormat k) s = 2) (hs : (chan (256 + k) s).sched = [])
    (hfired : (chan (256 + k) s).fired = []) (t cyc : Nat) :
    (chan (256 + k) (placeSys k t cyc s)).sched =
      [{ t := t + (sysEdges k s).1, cyc, gen := 0, vec := 0, act := .drv true },
       { t := t + (sysEdges k s).2, cyc, gen := 1, vec := 0, act := .drv false }] := by
  have fresh (gen : Nat) : (chan (256 + k) s).latest gen = none := by
    simp only [Chan.latest, hs, hfired, List.filter_nil, List.getLast?_nil]; rfl
  simp only [placeSys, hf, formatDrive, if_true, forEach_cons, forEach_nil]
  rw [placeEdge_of_fresh (s := s) (fresh _), placeEdge_of_fresh]
  · simp [hs]
  · simp [Chan.latest, hs, hfired, Tab.find]

/-! ### The cycle start of a system channel (R12, R45, R46) -/

/-- The cycle start of a clock beside its chain: its edges, and the judging of no test group. -/
theorem cycleSys_clock_frame {k : Nat} (at_ cyc : Nat) (s : State) :
    OnlyUnit (256 + k) (toTime at_ s) (placeSys k at_ cyc (dropCarry (256 + k) cyc at_ (toTime at_ s))) :=
  (onlyUnit_dropCarry_sys (by omega) _ _ _).trans (onlyChan_placeSys ..).onlyUnit

/-- A clock that runs starts its cycle, on a Tref edge after a write of its timing, and its next one stands a period on. -/
theorem cycleSys_clock {k : Nat} (hlock : tclkLocked s = true) (hm : rd (K.sysMode k) s = 3)
    (hrun : (sysch k s).running = true) :
    let c := sysch k s
    let at_ := if c.resync then nextTref c.next else c.next
    cycleSys k s = modSysch k
      (fun c => { c with start := at_, next := at_ + rd (K.sysPeriod k) s, cyc := c.cyc + 1, resync := false })
      (placeSys k at_ (c.cyc + 1) (dropCarry (256 + k) (c.cyc + 1) at_ (toTime at_ s))) := by
  intro c at_
  unfold cycleSys
  simp only [hlock, Bool.not_true, Bool.false_eq_true, if_false, hm, hrun, and_self, if_true]
  rw [(cycleSys_clock_frame ..).rd_eq]
  rfl

/-- In Sync mode the pulse that a run has asked for is placed, low again a period on. -/
theorem cycleSys_sync {k at_ : Nat} (hlock : tclkLocked s = true) (hm : rd (K.sysMode k) s = 4)
    (hp : (sysch k s).pulse = some at_) :
    cycleSys k s = modSysch k (fun c => { c with start := at_, cyc := c.cyc + 1, pulse := none })
      (placeFree (256 + k)
        { t := at_ + rd (K.sysPeriod k) s, cyc := (sysch k s).cyc + 1, gen := 8, vec := 0, act := .drv false }
        (placeSys k at_ ((sysch k s).cyc + 1)
          (modChan (256 + k) (fun c => { c with sched := c.sched.filter (fun e => e.gen != 8 || e.t < at_) })
            (toTime at_ s)))) := by
  unfold cycleSys
  simp only [hlock, Bool.not_true, Bool.false_eq_true, if_false, hp, hm, if_true]
  rfl

/-- Nothing starts while TCLK is not locked, or in another mode than those of a clock and of Sync. -/
theorem cycleSys_idle {k : Nat} (h : tclkLocked s = false ∨ (rd (K.sysMode k) s ≠ 3 ∧ rd (K.sysMode k) s ≠ 4)) :
    cycleSys k s = s := by
  unfold cycleSys
  rcases h with hlock | ⟨h3, h4⟩
  · simp only [hlock, Bool.not_false, if_true]
  · simp only [h3, h4, false_and, if_false]
    split
    · rfl
    · split <;> rfl

/-! ### Cycle starts (O13) -/

theorem cycleStart_group (g : Fin 16) (s : State) : exec (.cycleStart (.group g)) s = .next (cycleGroup g s) := rfl

theorem cycleStart_sys (k : Fin 8) (s : State) : exec (.cycleStart (.sys k)) s = .next (cycleSys k s) := rfl

/-- The clauses of `Obligations.CyclesStart` on a group: see `steady_cycleGroup`. -/
theorem reaches_cycleStart_group (g : Fin 16) (r : Range) (s : State) (hdue : cycleDue g s = true)
    (hs : (seq g s).stopped = none) (hrun : runState g s = 3) (hcur : (seq g s).cur = some r)
    (hoff : (seq g s).off < r.count) (hready : granReady g r.page (r.first + (seq g s).off) s = true) :
    Reaches (.cycleStart (.group g)) s (fun t =>
      let q := seq g s
      let p := seq g t
      p.played = q.played + 1 ∧ p.off = q.off + 1 ∧ p.rep = q.rep ∧ p.cur = some r ∧ p.cyc = q.cyc + 1 ∧
      p.lastStart = q.nextAt ∧ p.nextAt = q.nextAt + cycleLen g (unitAt g r.page (r.first + q.off) s).ts s ∧
      t.now = max s.now q.nextAt ∧ t.sessions = s.sessions ∧ t.pes = s.pes ∧ t.sec = s.sec ∧ t.dram.mem = s.dram.mem) := by
  refine ⟨_, cycleStart_group g s, ?_⟩
  have h := steady_cycleGroup s g.isLt hdue hs hrun hcur hoff hready
  have place := congrFun (congrArg Steady.place h) g
  simp only [Steady.playedBy, if_true] at place
  exact ⟨congrArg Place.played place, congrArg Place.off place, congrArg Place.rep place,
    (congrArg Place.cur place).trans hcur, congrArg Place.cyc place, congrArg Place.lastStart place,
    congrArg Place.nextAt place, congrArg Steady.now h, congrArg Steady.sessions h, congrArg Steady.pes h,
    congrArg Steady.sec h, congrArg Steady.mem h⟩

/-- The clauses of `Obligations.CyclesStart` on a clock. -/
theorem reaches_cycleStart_clock (k : Fin 8) (s : State) (hlock : tclkLocked s = true) (hm : rd (K.sysMode k) s = 3)
    (hrun : (sysch k s).running = true) :
    Reaches (.cycleStart (.sys k)) s (fun t =>
      let c := sysch k s
      let at_ := if c.resync then nextTref c.next else c.next
      sysch k t = { c with start := at_, next := at_ + rd (K.sysPeriod k) s, cyc := c.cyc + 1, resync := false } ∧
      (∀ i, i ≠ k.val → sysch i t = sysch i s) ∧ ChansBut (256 + k) s t ∧ (∀ g, g < 16 → grp g t = grp g s) ∧
      t = { s with now := max s.now at_, chans := t.chans, grps := t.grps, sysch := t.sysch } ∧
      (rd (K.sysFormat k) s = 2 → (chan (256 + k) s).sched = [] → (chan (256 + k) s).fired = [] →
        (chan (256 + k) t).sched =
          [{ t := at_ + (sysEdges k s).1, cyc := c.cyc + 1, gen := 0, vec := 0, act := .drv true },
           { t := at_ + (sysEdges k s).2, cyc := c.cyc + 1, gen := 1, vec := 0, act := .drv false }])) := by
  refine ⟨_, cycleStart_sys k s, ?_⟩
  extract_lets c at_
  rw [cycleSys_clock hlock hm hrun]
  have frame := cycleSys_clock_frame (k := k) at_ (c.cyc + 1) s
  have dropped := onlyUnit_dropCarry_sys (n := 256 + k) (by omega) (c.cyc + 1) at_ (toTime at_ s)
  have edges : sysEdges k (dropCarry (256 + k) (c.cyc + 1) at_ (toTime at_ s)) = sysEdges k s := by
    rw [dropped.eq]; rfl
  refine ⟨?_, fun i hi => ?_, frame.chansBut, fun g hg => frame.grpsBut g (by simp; omega), ?_, fun hf hs hfired => ?_⟩
  · rw [sysch_modSysch_self, frame.sysch_eq]; rfl
  · rw [sysch_modSysch_of_ne _ hi, frame.sysch_eq]; rfl
  · rw [frame.eq]; rfl
  · have idle := chan_dropCarry_of_idle (s := toTime at_ s) hs (c.cyc + 1) at_
    rw [chan_modSysch, sched_placeSys_rz (by rw [dropped.rd_eq]; exact hf) (by rw [idle]; exact hs)
      (by rw [idle]; exact hfired), edges]

/-- The clauses of `Obligations.CyclesStart` on a pulse of Sync mode. -/
theorem reaches_cycleStart_sync (k : Fin 8) (at_ : Nat) (s : State) (hlock : tclkLocked s = true)
    (hm : rd (K.sysMode k) s = 4) (hp : (sysch k s).pulse = some at_) :
    Reaches (.cycleStart (.sys k)) s (fun t =>
      sysch k t = { sysch k s with start := at_, cyc := (sysch k s).cyc + 1, pulse := none } ∧
      (∀ i, i ≠ k.val → sysch i t = sysch i s) ∧ ChansBut (256 + k) s t ∧
      t = { s with now := max s.now at_, chans := t.chans, sysch := t.sysch } ∧
      (rd (K.sysFormat k) s = 2 → (chan (256 + k) s).sched = [] → (chan (256 + k) s).fired = [] →
        let cyc := (sysch k s).cyc + 1
        (chan (256 + k) t).sched =
          [{ t := at_ + (sysEdges k s).1, cyc, gen := 0, vec := 0, act := .drv true },
           { t := at_ + (sysEdges k s).2, cyc, gen := 1, vec := 0, act := .drv false },
           { t := at_ + rd (K.sysPeriod k) s, cyc, gen := 8, vec := 0, act := .drv false }])) := by
  refine ⟨_, cycleStart_sys k s, ?_⟩
  rw [cycleSys_sync hlock hm hp]
  generalize hcleared : modChan (256 + k) (fun c => { c with sched := c.sched.filter (fun e => e.gen != 8 || e.t < at_) })
    (toTime at_ s) = cleared
  have clears : OnlyChan (256 + k) (toTime at_ s) cleared := hcleared ▸ onlyChan_modChan ..
  have frame : OnlyChan (256 + k) (toTime at_ s) (placeFree (256 + k)
      { t := at_ + rd (K.sysPeriod k) s, cyc := (sysch k s).cyc + 1, gen := 8, vec := 0, act := .drv false }
      (placeSys k at_ ((sysch k s).cyc + 1) cleared)) :=
    clears.trans ((onlyChan_placeSys ..).trans (onlyChan_modChan ..))
  refine ⟨?_, fun i hi => ?_, frame.chansBut, ?_, fun hf hs hfired => ?_⟩
  · rw [sysch_modSysch_self, frame.onlyUnit.sysch_eq]; rfl
  · rw [sysch_modSysch_of_ne _ hi, frame.onlyUnit.sysch_eq]; rfl
  · rw [frame.eq]; rfl
  · have idle : chan (256 + k) cleared = chan (256 + k) s := by
      rw [← hcleared, chan_modChan_self, chan_toTime, hs, List.filter_nil, ← hs]
    have edges : sysEdges k cleared = sysEdges k s := by rw [clears.eq]; rfl
    rw [chan_modSysch, placeFree, chan_modChan_self, sched_placeSys_rz (by rw [clears.onlyUnit.rd_eq]; exact hf)
      (by rw [idle]; exact hs) (by rw [idle]; exact hfired), edges]
    rfl

/-- Settles O13: a group's chain by what its cycle start keeps, a system channel by its two modes. -/
theorem cyclesStart : Obligations.CyclesStart := by
  refine ⟨⟨reaches_cycleStart_group, fun g s h => ?_⟩, reaches_cycleStart_clock, reaches_cycleStart_sync, fun k s h => ?_⟩
  · rw [cycleStart_group, cycleGroup, h]; rfl
  · rw [cycleStart_sys, cycleSys_idle h]

end Sys2Proof.Machine
end

section
/-!
What an edge does at its instant and a comparator input at a transition (02, 03), on the forms of
`Obligations.EdgesAndComparators`: a drive edge that the guard passes, a single strobe, a dead time that ends, and a
transition that no open compare window sees.
-/
namespace Sys2Proof.Machine

variable {s : State} {n : Nat}

/-! ### Windows that end, and vectors that are not done -/

theorem objs_departure (n vec len : Nat) (s : State) : (departure n vec len s).objs = s.objs := by
  unfold departure
  dsimp only
  split
  · rfl
  · split <;> rfl

theorem objs_closeWindow (n : Nat) (w : CmpWin) (s : State) : (closeWindow n w s).objs = s.objs := by
  unfold closeWindow
  dsimp only
  split
  · exact objs_departure ..
  · rfl

theorem objs_closeTdc (n vec : Nat) (s : State) : (closeTdc n vec s).objs = s.objs := rfl

/-- No object says that a window has ended. -/
theorem rd_expireWindows (k n t : Nat) (s : State) : rd k (expireWindows n t s) = rd k s := by
  have objs : (expireWindows n t s).objs = s.objs :=
    (forEach_keeps _ State.objs _ (fun (w : TdcWin) s => objs_closeTdc n w.vec s) _).trans
      (forEach_keeps s State.objs _ (fun w s => objs_closeWindow n w s) _)
  rw [rd, objs, ← rd]

/-- A unit none of whose windows has ended closes none. -/
theorem expireWindows_of_none {t : Nat} (hw : (chan n s).win = [])
    (ht : ∀ w ∈ (chan n s).tdcH, endedBy t w.closes = false) :
    expireWindows n t s = s := by
  have hnone : (chan n s).tdcH.filter (fun w => endedBy t w.closes) = [] :=
    List.filter_eq_nil_iff.mpr (fun w hm => by simp [ht w hm])
  simp only [expireWindows, hw, List.filter_nil, forEach_nil, hnone]

theorem settleGroup_of_nil {g : Nat} (h : (grp g s).judges = []) : settleGroup g s = s := by
  rw [settleGroup, h]; rfl

/-- A vector of which a strobe is still to fire on a channel of the group is not done (R57). -/
theorem vecDone_of_strobe {m : Nat} {f : Edge} (hf : f ∈ (chan m s).sched) (hg : f.gen = 6) :
    vecDone (m / 16) f.vec s = false := by
  rw [vecDone, List.all_eq_false]
  refine ⟨m % 16, List.mem_range.mpr (Nat.mod_lt _ (by decide)), ?_⟩
  have due : (chan m s).sched.any (fun e => (e.gen == 6 || e.gen == 7 || e.gen == 9) && e.vec == f.vec) = true :=
    List.any_eq_true.mpr ⟨f, hf, by simp [hg]⟩
  simp only [Nat.div_add_mod, due, Bool.not_true, Bool.false_and, Bool.false_eq_true, not_false_eq_true]

/-- Judging waits for the vector at the front of the list. -/
theorem settleGroup_of_front {g : Nat} {j : Judge} {rest : List Judge} (h : (grp g s).judges = j :: rest)
    (he : j.empty = false) (hd : vecDone g j.vec s = false) : settleGroup g s = s := by
  simp only [settleGroup, h, List.length_cons, settleVecs, he, hd, Bool.or_self, Bool.false_and,
    Bool.false_eq_true, if_false]

/-! ### The edge that fires (R25, R33, R34, R51) -/

/-- A unit whose edge fires: it leaves the schedule, and its generator remembers it (R28, R35). -/
def Chan.fires (e : Edge) (c : Chan) : Chan := { c with sched := c.sched.erase e, fired := Tab.set e.gen e.t c.fired }

/-- The edge that is first at the balls leaves the schedule, is remembered by its generator, and acts; then the group is
judged. -/
theorem fireEdge_of_first {e : Edge} (h : firstEdge n s (chan n s).sched = some e) (hg : e.gen < 8) :
    fireEdge n s =
      let at_ := (ballTime n e s).toNat
      let t := applyEdge n at_ e (modChan n (Chan.fires e) (expireWindows n at_ (toTime at_ s)))
      if n < 256 then settleGroup (n / 16) t else t := by
  unfold fireEdge
  simp only [h, hg, if_true]
  rfl

/-- A transition that follows the last one no closer than the guard is emitted (R34). -/
theorem emit_of_passes {guard t : Nat} {v : Bool} {p : OutPin} (hv : p.level ≠ v)
    (hl : ∀ l, p.last = some l → l + guard ≤ t) : p.emit guard t v = (⟨v, some t, p.last⟩, false) := by
  unfold OutPin.emit
  rw [if_neg (Ne.symm hv)]
  split
  next l hlast => rw [if_neg (Nat.not_lt.mpr (hl l hlast)), hlast]
  next hlast => rw [hlast]

theorem emitDrv_of_passes {t : Nat} {v : Bool} (hv : (chan n s).drv.level ≠ v)
    (hl : ∀ l, (chan n s).drv.last = some l → l + guardOf n s ≤ t) :
    emitDrv n t v s = modChan n (fun c => { c with drv := ⟨v, some t, (chan n s).drv.last⟩ }) s := by
  simp only [emitDrv, emit_of_passes hv hl, Bool.false_eq_true, if_false]

/-- A single strobe for L fails its vector where the inputs do not pass (R51, R57). -/
theorem fireSt0_single_low {vec t bt : Nat} (hm : cmpMode n s = 0) :
    fireSt0 n vec t bt 1 false s =
      if passes 1 (inputsAt n bt s).1 (inputsAt n bt s).2 then s else failVec n vec false s := by
  simp [fireSt0, hm]

theorem applyEdge_strobe0 {t : Nat} {e : Edge} {cmp : Nat} {tdc : Bool} (ha : e.act = .strobe0 cmp tdc)
    (hm : strobeMasked (n / 16) e.t s = false) (ho : siteOff n s = false) :
    applyEdge n t e s = fireSt0 n e.vec e.t t cmp tdc (lookAt n t s) := by
  simp only [applyEdge, ha, hm, ho, Bool.or_self, Bool.false_eq_true, if_false]

/-- A channel's fail enters the judging entry of its vector where its inputs do not pass L, CL alone active (R51, R57). -/
def Judge.judgeLow (n vec : Nat) (io : Bool × Bool) (x : Judge) : Judge :=
  if x.vec = vec ∧ x.empty = false ∧ ¬ (io.2 = true ∧ io.1 = false) then { x with fail := setBit x.fail (n % 16) } else x

theorem Judge.judgeLow_vec (n vec : Nat) (io : Bool × Bool) (x : Judge) : (x.judgeLow n vec io).vec = x.vec := by
  unfold Judge.judgeLow; split <;> rfl

theorem Judge.judgeLow_empty (n vec : Nat) (io : Bool × Bool) (x : Judge) : (x.judgeLow n vec io).empty = x.empty := by
  unfold Judge.judgeLow; split <;> rfl

/-- What a strobe for L leaves of the judging list of its group. -/
theorem grp_judgedLow (n vec : Nat) (io : Bool × Bool) (s : State) :
    grp (n / 16) (if passes 1 io.1 io.2 then s else failVec n vec false s) =
      { grp (n / 16) s with judges := (grp (n / 16) s).judges.map (Judge.judgeLow n vec io) } := by
  by_cases hp : io.2 = true ∧ io.1 = false
  · have same : (Judge.judgeLow n vec io) = id := by
      funext x; simp [Judge.judgeLow, hp]
    rw [if_pos (by simp [passes, hp]), same, List.map_id]
  · have fails : (fun x : Judge => if x.vec == vec && !x.empty then { x with fail := setBit x.fail (n % 16) } else x) =
        Judge.judgeLow n vec io := by
      funext x; simp [Judge.judgeLow, hp]
    have no_pass : ¬ passes 1 io.1 io.2 = true := by simpa [passes] using hp
    rw [if_neg no_pass, failVec, modJudge, grp_modGrp_self, ← fails]
    rfl

theorem onlyUnit_judgedLow (n vec : Nat) (io : Bool × Bool) (s : State) :
    OnlyUnit n s (if passes 1 io.1 io.2 then s else failVec n vec false s) := by
  split
  · exact OnlyUnit.refl n s
  · exact onlyUnit_failVec ..

/-- A strobe moves no channel unit by what it judges. -/
theorem chan_judgedLow (m n vec : Nat) (io : Bool × Bool) (s : State) :
    chan m (if passes 1 io.1 io.2 then s else failVec n vec false s) = chan m s := by
  split <;> rfl

/-! ### Comparators (R50, R60) -/

/-- A transition that no open compare window sees: the TDCs of its input see it, and nothing else of the unit does. -/
theorem seeTransition_without_window {x : Transition} (hw : (chan n s).win = [])
    (ht : ∀ w ∈ (chan n s).tdcH, endedBy x.t w.closes = false) :
    OnlyChan n s (seeTransition n x s) ∧
    chan n (seeTransition n x s) =
      if x.cl then { chan n s with tdcL := (chan n s).tdcL.map (·.see n (x.dir n s) x) }
      else { chan n s with tdcH := (chan n s).tdcH.map (·.see n (x.dir n s) x) } := by
  have seen : seeWindows n x.t (fun _ => true) s = modChan n (fun c => { c with win := [] }) s := by
    simp only [seeWindows, hw, List.filter_nil, forEach_nil, modChan, List.map_nil]
  simp only [seeTransition, expireWindows_of_none hw ht, seen]
  refine ⟨(onlyChan_modChan ..).trans (onlyChan_modChan ..), ?_⟩
  rw [chan_modChan_self, chan_modChan_self, ← hw]
  rfl

/-- A comparator input takes a level that it has not, and no window is open: the level, the transition and what the TDCs
of the input see of it. -/
theorem setInput_without_window {cl level : Bool} {at_ : Nat}
    (hlevel : (if cl then (chan n s).cmpL else (chan n s).cmpH) ≠ level)
    (hw : (chan n s).win = []) (hj : (grp (n / 16) s).judges = [])
    (ht : ∀ w ∈ (chan n s).tdcH, endedBy (max at_ (chan n s).seen) w.closes = false) :
    let c := chan n s
    let x : Transition := ⟨max at_ c.seen, cl, level⟩
    let taken : Chan := { c with
      cmpL := if cl then level else c.cmpL, cmpH := if cl then c.cmpH else level, seen := x.t
      past := x :: c.past.filter (fun y => x.t ≤ y.t + lookBack) }
    OnlyChan n (toTime x.t s) (setInput n cl level at_ s) ∧
    chan n (setInput n cl level at_ s) =
      if cl then { taken with tdcL := c.tdcL.map (·.see n (x.dir n s) x) }
      else { taken with tdcH := c.tdcH.map (·.see n (x.dir n s) x) } := by
  intro c x taken
  generalize hu : modChan n (fun _ => taken) (toTime x.t s) = u
  have hchan : chan n u = taken := by rw [← hu, chan_modChan_self]
  have moved : OnlyChan n (toTime x.t s) u := hu ▸ onlyChan_modChan ..
  obtain ⟨only, see⟩ := seeTransition_without_window (x := x) (s := u) (by rw [hchan]; exact hw) (by rw [hchan]; exact ht)
  have quiet : (grp (n / 16) (seeTransition n x u)).judges = [] := by rw [only.grp_eq, moved.grp_eq]; exact hj
  have set_eq : setInput n cl level at_ s = seeTransition n x u := by
    unfold setInput
    rw [if_neg hlevel]
    refine Eq.trans ?_ (settleGroup_of_nil quiet)
    rw [← hu]; rfl
  rw [set_eq, see, hchan]
  exact ⟨moved.trans only, by rw [Transition.dir, moved.onlyUnit.rd_eq]; rfl⟩

/-! ### Edges and comparators (O14) -/

theorem exec_edgeFire (ch : Fin 264) (s : State) : exec (.edgeFire ch) s = .next (fireEdge ch s) := rfl

theorem exec_comparatorTransition (n : Fin 256) (cl level : Bool) (at_ : Nat) (s : State) :
    exec (.comparatorTransition n cl level at_) s = .next (setInput n cl level at_ s) := rfl

/-- The clause of `Obligations.EdgesAndComparators` on a drive edge. -/
theorem reaches_edgeFire_drive (ch : Fin 264) (e : Edge) (v : Bool) (s : State) :
    let n := ch.val
    let at_ := (ballTime n e s).toNat
    let u := expireWindows n at_ { s with now := max s.now at_ }
    let c := chan n u
    firstEdge n s (chan n s).sched = some e → e.act = .drv v → e.gen < 8 → (n < 256 → (grp (n / 16) u).judges = []) →
    c.drv.level ≠ v → (∀ l, c.drv.last = some l → l + guardOf n s ≤ at_) →
    Reaches (.edgeFire ch) s (fun t =>
      chan n t = { c with sched := c.sched.erase e, fired := Tab.set e.gen e.t c.fired
                          drv := { level := v, last := some at_, prev := c.drv.last } } ∧
      ChansBut n u t ∧ t = { u with chans := t.chans }) := by
  intro n at_ u c hfirst hact hgen hjudges hlevel hguard
  refine ⟨_, exec_edgeFire ch s, ?_⟩
  generalize hw : modChan n (Chan.fires e) u = w
  have hchan : chan n w = c.fires e := by rw [← hw, chan_modChan_self]
  have left : OnlyChan n u w := hw ▸ onlyChan_modChan ..
  have guard : guardOf n w = guardOf n s := by
    simp only [guardOf, mode, left.onlyUnit.rd_eq, u, rd_expireWindows]; rfl
  have acts : applyEdge n at_ e w = modChan n (fun c => { c with drv := ⟨v, some at_, (chan n w).drv.last⟩ }) w := by
    simp only [applyEdge, hact]
    exact emitDrv_of_passes (by rw [hchan]; exact hlevel) (by rw [hchan, guard]; exact hguard)
  have only : OnlyChan n u (applyEdge n at_ e w) := left.trans (acts ▸ onlyChan_modChan ..)
  have fires : fireEdge n s = applyEdge n at_ e w := by
    rw [fireEdge_of_first hfirst hgen]
    dsimp only
    rw [show modChan n (Chan.fires e) (expireWindows n at_ (toTime at_ s)) = w from hw]
    split
    next h => exact settleGroup_of_nil (by rw [only.grp_eq]; exact hjudges h)
    · rfl
  rw [fires]
  exact ⟨by rw [acts, chan_modChan_self, hchan]; rfl, only.chansBut, only.eq⟩

/-- The clause of `Obligations.EdgesAndComparators` on a strobe that looks for L. -/
theorem reaches_edgeFire_strobe (ch : Fin 264) (e f : Edge) (m : Nat) (j : Judge) (rest : List Judge) (s : State) :
    let n := ch.val
    let at_ := (ballTime n e s).toNat
    let u := expireWindows n at_ { s with now := max s.now at_ }
    let c := chan n u
    let io := inputsAt n at_ u
    firstEdge n s (chan n s).sched = some e → e.act = .strobe0 1 false → e.gen = 6 → n < 256 → cmpMode n s = 0 →
    strobeMasked (n / 16) e.t u = false → siteOff n u = false → (grp (n / 16) u).judges = j :: rest → j.empty = false →
    m / 16 = n / 16 → m ≠ n → f ∈ (chan m u).sched → f.gen = 6 → f.vec = j.vec →
    Reaches (.edgeFire ch) s (fun t =>
      chan n t = { c with sched := c.sched.erase e, fired := Tab.set 6 e.t c.fired, seen := max c.seen at_ } ∧ ChansBut n u t ∧
      grp (n / 16) t = { grp (n / 16) u with judges := (j :: rest).map (fun x =>
        if x.vec = e.vec ∧ x.empty = false ∧ ¬ (io.2 = true ∧ io.1 = false) then { x with fail := setBit x.fail (n % 16) } else x) } ∧
      (∀ g, g ≠ n / 16 → grp g t = grp g u) ∧ t = { u with chans := t.chans, grps := t.grps }) := by
  intro n at_ u c io hfirst hact hgen hn hmode hmask hsite hjudges hempty hm hmn hf hfgen hfvec
  refine ⟨_, exec_edgeFire ch s, ?_⟩
  generalize hw : lookAt n at_ (modChan n (Chan.fires e) u) = w
  have hchan : chan n w = { c.fires e with seen := max c.seen at_ } := by
    rw [← hw, lookAt, chan_modChan_self, chan_modChan_self]; rfl
  have left : OnlyChan n u w := hw ▸ (onlyChan_modChan ..).trans (onlyChan_modChan ..)
  have single : cmpMode n w = 0 := by
    rw [← hmode]
    simp only [cmpMode, mode, left.onlyUnit.rd_eq, u, rd_expireWindows]; rfl
  have inputs : inputsAt n at_ w = io := by
    simp only [inputsAt, hchan, left.onlyUnit.rd_eq]; rfl
  have acts : applyEdge n at_ e (modChan n (Chan.fires e) u) = fireSt0 n e.vec e.t at_ 1 false w := by
    rw [applyEdge_strobe0 hact (by exact hmask) (by exact hsite), hw]
  have judged : fireSt0 n e.vec e.t at_ 1 false w = if passes 1 io.1 io.2 then w else failVec n e.vec false w := by
    rw [fireSt0_single_low single, inputs]
  have only : OnlyUnit n u (fireSt0 n e.vec e.t at_ 1 false w) := judged ▸ left.onlyUnit.trans (onlyUnit_judgedLow ..)
  have list : grp (n / 16) (fireSt0 n e.vec e.t at_ 1 false w) =
      { grp (n / 16) u with judges := (j :: rest).map (Judge.judgeLow n e.vec io) } := by
    rw [judged, grp_judgedLow, left.grp_eq, hjudges]
  have waits : vecDone (n / 16) (j.judgeLow n e.vec io).vec (fireSt0 n e.vec e.t at_ 1 false w) = false := by
    rw [Judge.judgeLow_vec, ← hfvec, ← hm]
    exact vecDone_of_strobe (by rw [only.chansBut m hmn]; exact hf) hfgen
  have fires : fireEdge n s = fireSt0 n e.vec e.t at_ 1 false w := by
    rw [fireEdge_of_first hfirst (by rw [hgen]; decide)]
    dsimp only
    rw [if_pos hn, show applyEdge n at_ e (modChan n (Chan.fires e) (expireWindows n at_ (toTime at_ s))) = _ from acts]
    exact settleGroup_of_front (by rw [list]; rfl) (by rw [Judge.judgeLow_empty]; exact hempty) waits
  rw [fires]
  exact ⟨by rw [judged, chan_judgedLow, hchan, Chan.fires, hgen], only.chansBut, list,
    fun g hg => only.grpsBut g (fun hm => hg (List.mem_singleton.mp hm)), only.eq⟩

/-- The clause of `Obligations.EdgesAndComparators` on the end of a dead time. -/
theorem reaches_deadTimeEnd (g : Fin 16) (s : State) :
    let l := leader g s
    (∀ at_, (seq l s).dead = some at_ → Reaches (.deadTimeEnd g) s (fun t =>
      seq l t = { seq l s with dead := none } ∧ (∀ m, m ≠ l → seq m t = seq m s) ∧
      t = { s with now := max s.now at_, seqs := t.seqs })) ∧
    ((seq l s).dead = none → exec (.deadTimeEnd g) s = .next s) := by
  intro l
  have ends : exec (.deadTimeEnd g) s = execDeadTimeEnd g s := rfl
  refine ⟨fun at_ hd => ⟨modSeq l (fun q => { q with dead := none }) (toTime at_ s), ?_, seq_modSeq_self ..,
    fun m hm => seq_modSeq_of_ne _ hm _, rfl⟩, fun hd => ?_⟩
  · simp only [ends, execDeadTimeEnd, show (seq (leader g s) s).dead = some at_ from hd, l]
  · simp only [ends, execDeadTimeEnd, show (seq (leader g s) s).dead = none from hd]

/-- A transition to the level that an input has is none. -/
theorem setInput_of_same {cl level : Bool} {at_ : Nat} (h : (if cl then (chan n s).cmpL else (chan n s).cmpH) = level) :
    setInput n cl level at_ s = s := by
  unfold setInput
  exact if_pos h

/-- A TDC window with nothing recorded records a transition in it (R60). -/
theorem see_of_empty {w : TdcWin} {x : Transition} (dir : Bool) (hr : w.recs = []) (hh : w.holds x.t = true) :
    w.see n dir x = { w with recs := [{ vec := w.vec, ch := n % 16, cl := x.cl, dir, ovr := false, t := x.t }] } := by
  simp only [TdcWin.see, hh, if_true, recordStamp, hr, List.getLast?_nil]

/-- Settles O14: edges by `fireEdge_of_first`, transitions by `setInput_without_window`. -/
theorem edgesAndComparators : Obligations.EdgesAndComparators := by
  refine ⟨⟨reaches_edgeFire_drive, reaches_edgeFire_strobe, fun ch s h => ?_⟩, reaches_deadTimeEnd,
    fun n level at_ s => ⟨fun h => ?_, fun h => ?_, fun hw hj => ⟨fun hlevel ht => ?_, fun w hlevel ht hl hr hh => ?_⟩⟩⟩
  · rw [exec_edgeFire, fireEdge, h]; rfl
  · rw [exec_comparatorTransition, setInput_of_same (cl := false) h]
  · rw [exec_comparatorTransition, setInput_of_same (cl := true) h]
  · refine ⟨_, exec_comparatorTransition .., ?_⟩
    obtain ⟨only, taken⟩ := setInput_without_window (cl := false) (at_ := at_) hlevel hw hj (by rw [ht]; simp)
    refine ⟨taken.trans ?_, only.chansBut, only.eq⟩
    rw [ht]
    rfl
  · refine ⟨_, exec_comparatorTransition .., ?_⟩
    obtain ⟨only, taken⟩ := setInput_without_window (cl := true) (at_ := at_) hlevel hw hj ht
    refine ⟨taken.trans ?_, only.chansBut, only.eq⟩
    rw [hl, List.map_singleton, see_of_empty _ hr hh]
    rfl

end Sys2Proof.Machine
end

section
/-!
What a capture ring's drain comes to where its next burst reaches past mapped DRAM (R70, R188), and that
`Obligations.CaptureMemory` asks another outcome of it. The drain takes nothing there; the statement has it request the
burst wherever DRAM is ready, with no premise on the region.
-/
namespace Sys2Proof.Machine

/-! ### A drain without a place to write (R70, R188) -/

/-- Whether the next drain burst of a capture ring lies wholly in mapped DRAM. -/
def captureBurstMapped (g : Nat) (s : State) : Bool :=
  mapped (rd (K.capSpillBase g) s + rd (K.capSpillWr g) s)
    (16 * drainCount (rd (K.capSpillSize g) s) (rd (K.capSpillWr g) s) (grp g s).capHeld (rd (K.capFill g) s)) s

/-- With no drain burst under way none is retired. -/
theorem retireCapture_of_none {g : Nat} {s : State} (h : (grp g s).spillCap = none) : retireCapture g s = s := by
  rw [retireCapture, h]

/-- The drain requests no burst that reaches past mapped DRAM. -/
theorem drainCapture_of_unmapped {g : Nat} {s : State} (h : captureBurstMapped g s = false) : drainCapture g s = s := by
  unfold captureBurstMapped at h
  simp only [drainCapture, h, Bool.false_eq_true, not_false_eq_true, true_or, or_true, if_true]

/-- With no burst under way and the next one past mapped DRAM, the drain changes nothing. -/
theorem exec_captureSpillDrain_of_unmapped {g : Fin 16} {s : State} (hnone : (grp g s).spillCap = none)
    (h : captureBurstMapped g s = false) : exec (.captureSpillDrain g) s = .next s := by
  have drain : exec (.captureSpillDrain g) s = .next (drainCapture g (retireCapture g s)) := rfl
  rw [drain, retireCapture_of_none hnone, drainCapture_of_unmapped h]

/-! ### The counterexample -/

/-- 64 GiB of DRAM in service and ready, and a spill region of CG0 that begins at their end; one entry waits in the
ring. -/
def unmappedSpillState : State :=
  { objs := [(K.capMode 0, 2), (K.capFill 0, 1), (K.capSpillBase 0, 2 ^ 36), (K.capSpillSize 0, 65536),
      (K.dramMappedBytes, 2 ^ 36), (K.dramReady, 1)] }

/-- Refutes O15: CG0's ring holds an entry and its spill region has room, but begins at the end of mapped DRAM; the drain
leaves the state as it is where the statement asks for a burst under way. -/
theorem not_captureMemory : ¬ Obligations.CaptureMemory := by
  unfold Obligations.CaptureMemory
  rintro ⟨-, -, drains⟩
  obtain ⟨capture, -, -⟩ := drains 0 unmappedSpillState (by decide) (by decide)
  obtain ⟨t, next, -, -, -, -, -, -, -, requested, -⟩ := capture 1 (by decide) (by decide) (by decide) (by decide)
  have stays := exec_captureSpillDrain_of_unmapped (g := 0) (s := unmappedSpillState) (by decide) (by decide)
  obtain rfl : unmappedSpillState = t := Host.Outcome.next.inj (stays.symm.trans next)
  exact absurd (congrArg Grp.spillCap requested) (by decide)

end Sys2Proof.Machine
end

section
/-!
What an instruction of a sequencer's IU leaves as it is (05): the frame of one that goes on, of one that ends in a
sequence error, and of one that writes an object of its own. FLAG and SETREG are such instructions.
-/
namespace Sys2Proof.Machine

variable {k op : Nat} {w : SeqWord} {s : State}

/-! ### What the IU reads of the state -/

@[simp] theorem seq_charge (k n : Nat) (s : State) :
    seq k (charge k n s) = { seq k s with iuAt := (seq k s).iuAt + n * 2048 } := seq_modSeq_self ..

theorem seq_charge_of_ne {m k : Nat} (h : m ≠ k) (n : Nat) (s : State) : seq m (charge k n s) = seq m s :=
  seq_modSeq_of_ne s h _

@[simp] theorem rd_charge (j k n : Nat) (s : State) : rd j (charge k n s) = rd j s := rfl

@[simp] theorem codeAt_charge (k n pc : Nat) (s : State) : codeAt k pc (charge k n s) = codeAt k pc s := by
  simp only [codeAt, headOf, seq_charge]

/-! ### The instruction next in execution (R106) -/

/-- An instruction that stands ready and whose rsv fields are zero runs its body. -/
theorem iuInstr_of_ready (h : IuReady k op w s) (body : State → State) : iuInstr k op w true body s = .next (body s) := by
  obtain ⟨ok, -⟩ := h
  simp only [iuInstr, ok, Bool.not_true, Bool.false_eq_true, if_false]

/-- One with a nonzero rsv field is sequence error 2 (R106, R132). -/
theorem iuInstr_of_rsv (h : IuReady k op w s) (body : State → State) :
    iuInstr k op w false body s = .next (seqError k 2 (charge k 1 s)) := by
  obtain ⟨ok, -⟩ := h
  simp only [iuInstr, ok, Bool.not_true, Bool.not_false, Bool.false_eq_true, if_false, if_true]

/-! ### The program counter (R85, R107) -/

/-- The program counter reaches an instruction that has a routine. -/
theorem reachPc_of_routine {pc v : Nat} (hv : codeAt k pc s = some v) (hr : hasRoutine k (v / 2 ^ 56) s = true)
    (hpc : pc < 65536) : reachPc k pc s = wr (K.seqPc k) pc s := by
  obtain ⟨h, hh, hc⟩ := Option.bind_eq_some_iff.mp hv
  have head : headOf k (seq k (wr (K.seqPc k) pc s)).page (wr (K.seqPc k) pc s) = some h := hh
  have routine : hasRoutine k (v / 2 ^ 56) (wr (K.seqPc k) pc s) = true := hr
  simp only [reachPc, Nat.mod_eq_of_lt hpc, head, hc, routine, if_true]

/-- An instruction that stands ready writes an object of its own beside the PC, spends its cycles and goes on. -/
theorem spend_wr_of_ready (h : IuReady k op w s) {key : Nat} (hkey : K.seqPc k ≠ key) (n v : Nat) :
    spend k n (wr key v s) = wr (K.seqPc k) (pcOf k s + 1) (charge k n (wr key v s)) := by
  obtain ⟨-, next, hnext, hroutine, hpc⟩ := h
  have pc : pcOf k (charge k n (wr key v s)) = pcOf k s := rd_wr_of_ne s hkey v
  have code : codeAt k (pcOf k s + 1) (charge k n (wr key v s)) = some next := (codeAt_charge ..).trans hnext
  rw [spend, nextPc, pc, reachPc_of_routine code hroutine hpc]

/-! ### Frames -/

/-- The instruction's own object takes its value, and the IU goes on. -/
theorem iuGoes_spend_wr (h : IuReady k op w s) {key : Nat} (hkey : K.seqPc k ≠ key) (n v : Nat) :
    rd key (spend k n (wr key v s)) = v ∧ IuGoes k n (pcOf k s + 1) (seq k s) [key] s (spend k n (wr key v s)) := by
  rw [spend_wr_of_ready h hkey]
  refine ⟨?_, ?_, rd_wr_self .., rfl, fun m hm => seq_charge_of_ne hm .., fun j hj => ?_⟩
  · rw [rd_wr_of_ne _ hkey.symm, rd_charge, rd_wr_self]
  · rw [seq_wr, seq_charge, seq_wr]
  · simp only [List.mem_cons, List.not_mem_nil, or_false, not_or] at hj
    obtain ⟨hpc, hj⟩ := hj
    rw [rd_wr_of_ne _ hpc, rd_charge, rd_wr_of_ne s hj]

/-- An instruction ends in a sequence error after its cycles (R132, R133). -/
theorem iuFails_seqError (k n code : Nat) (s : State) : IuFails k n code s (seqError k code (charge k n s)) := by
  have pc_ne : K.seqErrPc k ≠ K.seqErrSeg k := by unfold K.seqErrPc K.seqErrSeg; omega
  have err_ne_seg : K.seqErr k ≠ K.seqErrSeg k := by unfold K.seqErr K.seqErrSeg; omega
  have err_ne_pc : K.seqErr k ≠ K.seqErrPc k := by unfold K.seqErr K.seqErrPc; omega
  have page : (seq k (charge k n s)).page = (seq k s).page := by rw [seq_charge]
  have ends (u : State) (hu : u.seqs = (charge k n s).seqs) :
      seq k (modSeq k (fun q => { q with ending := some .seqErr, wait := .none }) u) =
        { seq k s with iuAt := (seq k s).iuAt + n * 2048, ending := some .seqErr, wait := .none } := by
    have same : seq k u = seq k (charge k n s) := by rw [seq, hu, ← seq]
    rw [seq_modSeq_self, same, seq_charge]
  have others (u : State) (hu : u.seqs = (charge k n s).seqs) (m : Nat) (hm : m ≠ k) :
      seq m (modSeq k (fun q => { q with ending := some .seqErr, wait := .none }) u) = seq m s := by
    rw [seq_modSeq_of_ne _ hm, seq, hu, ← seq, seq_charge_of_ne hm]
  unfold seqError seqErrorAt
  by_cases hfirst : rd (K.seqErr k) s = 0
  · simp only [rd_charge, hfirst, ne_eq, not_true_eq_false, if_false, wrs_cons, wrs_nil, page]
    refine ⟨ends _ rfl, fun _ => ⟨?_, ?_, ?_⟩, fun h => absurd hfirst h, rfl, others _ rfl, fun j hj => ?_⟩
    · rw [rd_modSeq, rd_wr_of_ne _ err_ne_seg, rd_wr_of_ne _ err_ne_pc, rd_wr_self]; rfl
    · rw [rd_modSeq, rd_wr_of_ne _ pc_ne, rd_wr_self]; rfl
    · rw [rd_modSeq, rd_wr_self]
    · simp only [List.mem_cons, List.not_mem_nil, or_false, not_or] at hj
      obtain ⟨herr, hpc, hseg⟩ := hj
      rw [rd_modSeq, rd_wr_of_ne _ hseg, rd_wr_of_ne _ hpc, rd_wr_of_ne _ herr, rd_charge]
  · simp only [rd_charge, hfirst, ne_eq, not_false_eq_true, if_true]
    exact ⟨ends _ rfl, fun h => absurd h hfirst, fun _ _ _ => rfl, rfl, others _ rfl, fun _ _ => rfl⟩

/-! ### FLAG (R126) -/

/-- What FLAG makes of the 16 user flags: clears, sets or toggles those of its mask. -/
def flagged (op mask flags : Nat) : Nat :=
  if op = 0 then flags &&& (65535 - mask) else if op = 1 then flags ||| mask else flags ^^^ mask

/-- The user flags stay within their 16 bits. -/
theorem flagged_lt {mask flags : Nat} (hm : mask < 2 ^ 16) (hf : flags < 2 ^ 16) (op : Nat) :
    flagged op mask flags < 2 ^ 16 := by
  unfold flagged
  split
  · exact Nat.and_lt_two_pow _ (by omega)
  · split
    · exact Nat.or_lt_two_pow hf hm
    · exact Nat.xor_lt_two_pow hf hm

/-- Of the user flags those of the mask change, each as the operation says. -/
theorem testBit_flagged {mask i : Nat} (hm : mask < 2 ^ 16) (hi : i < 16) (op flags : Nat) :
    (flagged op mask flags).testBit i =
      if mask.testBit i = true then (if op = 0 then false else if op = 1 then true else !flags.testBit i)
      else flags.testBit i := by
  have kept : (65535 - mask).testBit i = !mask.testBit i := by
    rw [show 65535 - mask = 2 ^ 16 - (mask + 1) by omega, Nat.testBit_two_pow_sub_succ hm, decide_eq_true hi,
      Bool.true_and]
  unfold flagged
  split
  · rw [Nat.testBit_and, kept]; cases mask.testBit i <;> simp
  · split
    · rw [Nat.testBit_or]; cases mask.testBit i <;> simp
    · rw [Nat.testBit_xor]; cases mask.testBit i <;> simp

/-- The lower 16 bits of an object replaced. -/
theorem testBit_replace_low {u : Nat} (hu : u < 2 ^ 16) (f i : Nat) :
    (f - f % 65536 + u).testBit i = if i < 16 then u.testBit i else f.testBit i := by
  rw [show f - f % 65536 + u = 2 ^ 16 * (f / 2 ^ 16) + u by omega, Nat.testBit_two_pow_mul_add _ hu]
  split
  · rfl
  · rw [Nat.testBit_div_two_pow]; congr 1; omega

/-- Settles O16: FLAG writes SEQ_FLAGS and goes on (`iuGoes_spend_wr`), its bits by `testBit_flagged`. -/
theorem flagAppliesItsOperation : Obligations.FlagAppliesItsOperation := by
  intro k w s hready hb hflags op old
  have hmask : w.a.toNat < 2 ^ 16 := w.a.isLt
  have hop : w.flags.toNat % 4 = op := Nat.mod_eq_of_lt hflags
  have rsv : (decide (w.flags.toNat < 4) && decide (w.b = 0)) = true := by simp [hflags, hb]
  have runs : exec (.flag k w) s = .next (if op = 3 then seqError k 11 (charge k 1 s)
      else spend k 1 (wr (K.seqFlags k) (old - old % 65536 + flagged op w.a.toNat (old % 65536)) s)) := by
    rw [show exec (.flag k w) s = execFlag k w s from rfl, execFlag, rsv, iuInstr_of_ready hready, hop]
    rfl
  refine ⟨fun hle => ⟨_, runs, ?_⟩, fun herr => ⟨_, runs, ?_⟩⟩
  · rw [if_neg (by omega)]
    obtain ⟨value, goes⟩ := iuGoes_spend_wr hready (key := K.seqFlags k) (by unfold K.seqPc K.seqFlags; omega) 1
      (old - old % 65536 + flagged op w.a.toNat (old % 65536))
    refine ⟨goes, fun i => ?_⟩
    rw [value, testBit_replace_low (flagged_lt hmask (by omega) op)]
    by_cases hi : i < 16
    · have low : (old % 65536).testBit i = old.testBit i := by
        rw [show 65536 = 2 ^ 16 from rfl, Nat.testBit_mod_two_pow, decide_eq_true hi, Bool.true_and]
      simp only [hi, if_true, true_and, testBit_flagged hmask hi, low]
    · simp only [hi, if_false, false_and]
  · rw [if_pos herr]
    exact iuFails_seqError ..

/-! ### SETREG (R127) -/

/-- The registers that SETREG writes are not the PC. -/
theorem seqPc_ne_gr (k i : Nat) : K.seqPc k ≠ K.gr k i := by unfold K.seqPc K.gr; omega

theorem seqPc_ne_sm (k i : Nat) : K.seqPc k ≠ K.sm k i := by unfold K.seqPc K.sm; omega

/-- The fields that SETREG's operation leaves unused are zero (R106): GRs but for operations 2 and 3, B in operations 2
and 4. -/
abbrev SetregFields (w : SeqWord) : Prop :=
  (nib w.a.toNat 2 = 2 ∨ nib w.a.toNat 2 = 3 ∨ nib w.a.toNat 1 = 0) ∧
  (nib w.a.toNat 2 = 2 ∨ nib w.a.toNat 2 = 4 → w.b.toNat = 0)

/-- What SETREG checks of its rsv fields (R106, R132): those of no operation above 6. -/
theorem setreg_check (w : SeqWord) :
    (6 < nib w.a.toNat 2 || (((nib w.a.toNat 2 = 2 || nib w.a.toNat 2 = 3 : Bool) || nib w.a.toNat 1 = 0) &&
      ((nib w.a.toNat 2 ≠ 2 && nib w.a.toNat 2 ≠ 4 : Bool) || w.b.toNat = 0)) : Bool) =
      decide (6 < nib w.a.toNat 2 ∨ SetregFields w) := by
  rw [Bool.eq_iff_iff]
  simp only [Bool.and_eq_true, Bool.or_eq_true, decide_eq_true_eq, SetregFields]
  omega

section
variable {k : Fin 16} (hready : IuReady k 0xD w s) (hflags : w.flags = 0) (ha : w.a.toNat < 4096)
include hready hflags ha

/-- SETREG with sound rsv fields, by its operation: the register written with its value, or sequence error 11. -/
theorem execSetreg_of_fields (hf : 6 < nib w.a.toNat 2 ∨ SetregFields w) :
    let op := nib w.a.toNat 2
    let src := nib w.a.toNat 1
    let d := nib w.a.toNat 0
    let b := w.b.toNat
    let fails := seqError k 11 (charge k 1 s)
    let setsGr := fun v => execSetreg k w s = .next (spend k 1 (wr (K.gr k d) (v % 2 ^ 32) s))
    let setsSm := fun v => execSetreg k w s = .next (if 3 < d then fails else spend k 1 (wr (K.sm k d) v s))
    (op = 0 → setsGr b) ∧ (op = 1 → setsGr (grOf k d s + b)) ∧ (op = 2 → setsGr (grOf k src s)) ∧
    (op = 3 → setsGr (grOf k src s + b)) ∧ (op = 4 → setsGr (grOf k d s % 2 ^ 32 - 1)) ∧
    (op = 5 → setsSm (smOf k d s / 2 ^ 32 * 2 ^ 32 + b)) ∧ (op = 6 → setsSm (b * 2 ^ 32 + smOf k d s % 2 ^ 32)) ∧
    (7 ≤ op → execSetreg k w s = .next fails) := by
  unfold execSetreg
  dsimp only
  rw [setreg_check, decide_eq_true hf, decide_eq_true hflags, decide_eq_true ha]
  simp only [Bool.and_self, iuInstr_of_ready hready]
  generalize nib w.a.toNat 2 = n
  refine ⟨?_, ?_, ?_, ?_, ?_, ?_, ?_, fun h => ?_⟩
  iterate 7 (rintro rfl; rfl)
  split
  iterate 7 omega
  rfl

end

/-- SETREG with a nonzero rsv field (R106, R132). -/
theorem execSetreg_of_rsv {k : Fin 16} (hready : IuReady k 0xD w s) (hf : ¬ (6 < nib w.a.toNat 2 ∨ SetregFields w)) :
    execSetreg k w s = .next (seqError k 2 (charge k 1 s)) := by
  unfold execSetreg
  dsimp only
  rw [setreg_check, decide_eq_false hf, Bool.and_false]
  exact iuInstr_of_rsv hready _

/-- Settles O17: by operation (`execSetreg_of_fields`) a register is written (`iuGoes_spend_wr`), or there is a sequence
error (`iuFails_seqError`). -/
theorem setregOperations : Obligations.SetregOperations := by
  intro k w s hready hflags ha op src d b gr setsGr setsSm rsvOk
  have hd : nib w.a.toNat 0 = d := by simp [nib, d]
  have hb : b < 2 ^ 32 := w.b.isLt
  have writesGr {v u : Nat} (h : execSetreg k w s = .next (spend k 1 (wr (K.gr k d) (v % 2 ^ 32) s)))
      (hv : v % 2 ^ 32 = u) : setsGr u :=
    ⟨_, h, hv ▸ iuGoes_spend_wr hready (seqPc_ne_gr k d) 1 _⟩
  have fails {code : Nat} (h : execSetreg k w s = .next (seqError k code (charge k 1 s))) :
      Reaches (.setreg k w) s (IuFails k 1 code s) := ⟨_, h, iuFails_seqError ..⟩
  have smFails {v : Nat} (hlt : 3 < d)
      (h : execSetreg k w s = .next (if 3 < d then seqError k 11 (charge k 1 s) else spend k 1 (wr (K.sm k d) v s))) :
      Reaches (.setreg k w) s (IuFails k 1 11 s) := fails (by rw [h, if_pos hlt])
  have writesSm {v : Nat} (hle : d ≤ 3)
      (h : execSetreg k w s = .next (if 3 < d then seqError k 11 (charge k 1 s) else spend k 1 (wr (K.sm k d) v s))) :
      setsSm v :=
    ⟨_, h, by rw [if_neg (Nat.not_lt.mpr hle)]; exact iuGoes_spend_wr hready (seqPc_ne_sm k d) 1 v⟩
  have sound (hf : 6 < op ∨ rsvOk) := hd ▸ execSetreg_of_fields hready hflags ha hf
  refine ⟨fun hok hop => ?_, fun hok hop => ?_, fun hok hop => ?_, fun hok hop => ?_, fun hok hop => ?_,
    fun hok hop hle => ?_, fun hok hop hle => ?_, ?_, fun hop hok => ?_⟩
  · obtain ⟨op0, -⟩ := sound (.inr hok)
    exact writesGr (op0 hop) (Nat.mod_eq_of_lt hb)
  · obtain ⟨-, op1, -⟩ := sound (.inr hok)
    exact writesGr (op1 hop) (Nat.mod_add_mod ..).symm
  · obtain ⟨-, -, op2, -⟩ := sound (.inr hok)
    exact writesGr (op2 hop) rfl
  · obtain ⟨-, -, -, op3, -⟩ := sound (.inr hok)
    exact writesGr (op3 hop) (Nat.mod_add_mod ..).symm
  · obtain ⟨-, -, -, -, op4, -⟩ := sound (.inr hok)
    have lt : gr d < 2 ^ 32 := Nat.mod_lt _ (by decide)
    exact writesGr (op4 hop) ((Nat.mod_eq_of_lt (Nat.lt_of_le_of_lt (Nat.sub_le ..) lt)).trans (by split <;> omega))
  · obtain ⟨-, -, -, -, -, op5, -⟩ := sound (.inr hok)
    exact writesSm hle (op5 hop)
  · obtain ⟨-, -, -, -, -, -, op6, -⟩ := sound (.inr hok)
    exact writesSm hle (op6 hop)
  · rintro (hop | ⟨hok, hop | hop, hlt⟩)
    · obtain ⟨-, -, -, -, -, -, -, above⟩ := sound (.inl hop)
      exact fails (above hop)
    · obtain ⟨-, -, -, -, -, op5, -⟩ := sound (.inr hok)
      exact smFails hlt (op5 hop)
    · obtain ⟨-, -, -, -, -, -, op6, -⟩ := sound (.inr hok)
      exact smFails hlt (op6 hop)
  · exact fails (execSetreg_of_rsv hready (not_or.mpr ⟨Nat.not_lt.mpr hop, hok⟩))

end Sys2Proof.Machine
end

section
/-!
What RUN does to the call stack, and what the entry into a segment does to the block errors of its members, and that
`Obligations.SequencerInstructions` and `Obligations.SequencerEvents` ask the contrary of them. Both statements describe
what an instruction leaves as it was more tightly than the model holds it.
-/
namespace Sys2Proof.Machine

/-! ### A range issued within a call (R100, R105) -/

/-- A range issued as `Issues` has it leaves every call level as it was. -/
theorem calls_of_issues {k cost first count reps : Nat} {kind : RangeKind} {s t : State}
    (h : Issues k cost first count reps kind s t) : (seq k t).calls = (seq k s).calls := by
  obtain ⟨r, -, -, -, -, -, -, -, -, -, -, -, -, -, -, calls, -⟩ := h
  exact calls

/-- RUN of 64 vectors. -/
def runWord : SeqWord := ⟨0, 0, 64⟩

/-- The segment at page 3, of 1000 vectors in Distance: RUN, then NOP. -/
def routineHead : Head :=
  { page := 3, mode := 0, flags := 0, vlen := 1000, gcount := 16, dictSize := 0, nmembers := 1, instrOff := 64
    instrCount := 2, sealParam := 0, imageBytes := 4096, members := [], code := [seqWord 1 runWord, seqWord 0x11 ⟨0, 0, 0⟩] }

/-- CG0 runs. It has entered the segment at page 5 and called the one at page 3 before the first vector of either was
issued, so that the entry into the caller is still to come. -/
def calledState : State :=
  { objs := [(K.runState 0, 3)]
    seqs := [(0, { page := 3, entry := 1, heads := [routineHead]
                   calls := [{ page := 5, pc := 1, ptr := 0, loops := 0, entry := 1 }] })] }

theorem iuReady_calledState : IuReady 0 1 runWord calledState := ⟨by decide, _, rfl, by decide, by decide⟩

/-- With the routine's first range the entry into the caller is no longer to come (`CallLvl.entry`). -/
theorem exec_run_calledState : ∃ t, exec (.run 0 runWord) calledState = .next t ∧
    (seq 0 t).calls = [{ page := 5, pc := 1, ptr := 0, loops := 0, entry := 0 }] := ⟨_, rfl, by decide⟩

/-- Refutes O18: a RUN in a routine called before its caller has issued a vector clears the entry that the call level
holds, where the statement's frame of an issued range keeps the call stack. -/
theorem not_sequencerInstructions : ¬ Obligations.SequencerInstructions := by
  unfold Obligations.SequencerInstructions
  rintro ⟨-, ranges, -⟩
  obtain ⟨run, -⟩ := ranges 0 runWord calledState
  obtain ⟨-, -, -, room⟩ := run iuReady_calledState (by decide) (by decide) (by decide)
  obtain ⟨outside, -⟩ := room (by decide)
  obtain ⟨t, next, issues⟩ := outside (by decide) (by decide) (by decide) (by decide)
  obtain ⟨u, next', calls⟩ := exec_run_calledState
  obtain rfl : t = u := Host.Outcome.next.inj (next.symm.trans next')
  exact absurd (calls.symm.trans (calls_of_issues issues)) (by decide)

/-! ### A segment entered whose blocks have failed (R97, R113) -/

/-- The frame of what may have fetched leaves the block errors of every group as they were. -/
theorem blockErrs_of_seqFetchFrame {k : Nat} {keys : List Nat} {s t : State} (h : SeqFetchFrame k keys s t) (g : Nat) :
    (grp g t).blockErrs = (grp g s).blockErrs := by
  obtain ⟨-, ⟨-, -, grps⟩, -⟩ := h
  rw [grps g]

/-- CG0 waits at the commit point of a JUMP into the segment at page 9, one of whose blocks has failed a check before. -/
def failedBlockState : State :=
  { objs := [(K.runState 0, 3), (K.jtEnable 0, 1), (K.dramMappedBytes, 2 ^ 37)]
    seqs := [(0, { wait := .commit (.jump 9) })]
    grps := [(0, { blockErrs := [{ code := 12, member := 0, off := 1024, gran := 5, page := 9 }] })] }

/-- The head is fetched anew, and what an earlier check of the segment's blocks found is dropped (`fetchHead`). -/
theorem exec_commitPoint_failedBlockState : ∃ t, exec (.commitPoint 0) failedBlockState = .next t ∧
    (grp 0 t).blockErrs = [] := ⟨_, rfl, by decide⟩

/-- Refutes O19: at its commit point a JUMP into a segment drops the block errors that CG0 holds of it, where the
statement's frame lets a group's caches and fetches alone change. -/
theorem not_sequencerEvents : ¬ Obligations.SequencerEvents := by
  unfold Obligations.SequencerEvents
  rintro ⟨-, -, -, -, commit, -⟩
  obtain ⟨t, next, -, -, -, -, -, -, -, frame⟩ := commit 0 9 (0, 0) failedBlockState (by decide) (by decide) (by decide)
    (by decide) (by decide) (by decide) (by decide) (by decide) (by decide) (by decide) (by decide)
  obtain ⟨u, next', dropped⟩ := exec_commitPoint_failedBlockState
  obtain rfl : t = u := Host.Outcome.next.inj (next.symm.trans next')
  exact absurd (dropped.symm.trans (blockErrs_of_seqFetchFrame frame 0)) (by decide)

end Sys2Proof.Machine
end

section
/-!
The patch procedure (07, R180–R182). The host's four requests are writes of two objects at 0x20B0: what such a write comes
to is said once for every object (`WritesBy`), then for MC_PATCH_STAGE and MC_PATCH_CMD. VERIFY and APPLY end in an event of
the device: what VERIFY finds is read off `patchFails`, and what APPLY writes off a fold over the groups' stores.
-/
namespace Sys2Proof.Machine
open Sys2Proof.Laws

/-! ### Writes with an effect of their object's own -/

/-- A request that WRITEs a payload to an object: every session that has at least a role, and SES_EXPERT where asked, passes
the checks before the object's own rule, and that rule is `effect`. -/
structure WritesBy (c : Req → Instr) (key : Nat) (p : Bytes) (role : Nat) (expert : Bool) (effect : State → Ans) :
    Prop where
  exec_eq : ∀ r s, exec (c r) s = .next (hostWrite r key p s)
  writeObj_eq : ∀ (x : Session) (s : State), indexExists key s = true → role ≤ x.role →
    (expert = true → x.expert = true) → writeObj key p x s = effect s

/-- The session that an executed request's object sees is the request's own but for what every request moves. -/
theorem carries_self_touched {r : Req} {x : Session} {s : State} (h : session x.id s = some x) :
    Carries x (self x (touched r x s)) := by
  obtain ⟨-, -, y, hy, hc⟩ := hostFrame_touched (r := r) h
  rwa [self, hy]

/-- What a write of one object leaves of the objects. -/
theorem rd_of_objs_wr {k v : Nat} {s t : State} (h : t.objs = (wr k v s).objs) : rd k t = v ∧ ObjsBut [k] s t := by
  have reads (j : Nat) : rd j t = rd j (wr k v s) := by rw [rd, h, ← rd]
  exact ⟨(reads k).trans (rd_wr_self ..), fun j hj => (reads j).trans (rd_wr_of_ne s (List.ne_of_not_mem_cons hj) v)⟩

section
variable {c : Req → Instr} {key role status : Nat} {p : Bytes} {expert : Bool} {effect : State → Ans}
  {pre : Session → State → Prop}

/-- An admitted request answers the status of its object's rule, and beside the session's record and the answer the next
state is the rule's. -/
theorem WritesBy.reaches (w : WritesBy c key p role expert effect) {r : Req} {x : Session} {s u : State}
    (ha : Admitted r opWrite key p x s) (hi : indexExists key s = true) (hr : role ≤ x.role)
    (he : expert = true → x.expert = true) (hs : status ≠ Code.busy) (hb : u.baton = s.baton)
    (h : ∀ l, effect { s with sessions := l } = ⟨status, [], { u with sessions := l }⟩) :
    Reaches (c r) s (fun t => Answers r opWrite status t ∧
      t = { u with sessions := t.sessions, baton := t.baton } ∧ HostFrame x s t) := by
  have hx := session_of_admitted ha
  have same := carries_self_touched (r := r) hx
  have hbody : writeObj key p (self x (touched r x s)) (touched r x s) =
      ⟨status, [], { u with sessions := (touched r x s).sessions }⟩ := by
    have hrole : role ≤ (self x (touched r x s)).role := by rw [same]; exact hr
    have hexpert : expert = true → (self x (touched r x s)).expert = true := by rw [same]; exact he
    rw [w.writeObj_eq _ _ ((indexExists_touched key r x s).trans hi) hrole hexpert]
    exact (congrArg effect (touched_eq r x s)).trans (h _)
  obtain ⟨answers, rest, frame⟩ := executeReq_frame (r := r) (op := opWrite) (key := key) (len := p.length)
    (body := fun x s => writeObj key p (self x s) s) hbody hs
  obtain ⟨-, others, own⟩ := hostFrame_touched (r := r) hx
  refine ⟨_, w.exec_eq r s, ?_⟩
  rw [hostWrite, request_admitted ha]
  exact ⟨answers, rest, frame s ⟨by rw [hb], others, own⟩⟩

/-- A rule that refuses changes nothing. -/
theorem WritesBy.hostRefuses (w : WritesBy c key p role expert effect) (hs : status ≠ Code.busy)
    (h : ∀ x s l, pre x s → effect { s with sessions := l } = refuse status { s with sessions := l }) :
    HostRefuses c opWrite key p role expert status pre :=
  fun _ x s ha hi hr he hp => w.reaches (u := s) ha hi hr he hs rfl (fun l => h x s l hp)

/-- A rule that writes one object. -/
theorem WritesBy.hostSets (w : WritesBy c key p role expert effect) {k v : Nat}
    (h : ∀ x s l, pre x s → effect { s with sessions := l } = done (wr k v { s with sessions := l })) :
    HostDoes c opWrite key p role expert pre (HostSets k v) := by
  intro r x s ha hi hr he hp
  obtain ⟨t, next, answers, rest, frame⟩ := w.reaches (u := wr k v s) ha hi hr he (by decide) rfl (fun l => h x s l hp)
  have objs : t.objs = (wr k v s).objs := (congrArg State.objs rest :)
  obtain ⟨value, others⟩ := rd_of_objs_wr objs
  exact ⟨t, next, answers, value, by rw [objs]; exact rest, frame, others⟩

/-- A rule that lays an image into the patch stage buffer and sets MC_PATCH_STATUS (R181). -/
theorem WritesBy.hostStages (w : WritesBy c key p role expert effect) {b : Bytes} {v : Nat}
    (h : ∀ x s l, pre x s → effect { s with sessions := l } =
      done (wr K.mcPatchStatus v { s with sessions := l, patch := { s.patch with stage := b } })) :
    HostDoes c opWrite key p role expert pre (fun x s t =>
      rd K.mcPatchStatus t = v ∧ t.patch = { s.patch with stage := b } ∧ ObjsBut [K.mcPatchStatus] s t ∧ HostFrame x s t ∧
      t = { s with objs := t.objs, patch := t.patch, sessions := t.sessions, baton := t.baton }) := by
  intro r x s ha hi hr he hp
  obtain ⟨t, next, answers, rest, frame⟩ :=
    w.reaches (u := wr K.mcPatchStatus v { s with patch := { s.patch with stage := b } }) ha hi hr he (by decide) rfl
      (fun l => h x s l hp)
  have objs : t.objs = (wr K.mcPatchStatus v s).objs := (congrArg State.objs rest :)
  have patch : t.patch = { s.patch with stage := b } := (congrArg State.patch rest :)
  obtain ⟨value, others⟩ := rd_of_objs_wr objs
  exact ⟨t, next, answers, value, patch, others, frame, by rw [objs, patch]; exact rest⟩

end

/-! ### The objects at 0x20B0 (R184) -/

/-- A write of an object at 0x20B0 that is not RO passes the checks up to its length for an Officer with SES_EXPERT. -/
theorem writeChecks_patch {key len : Nat} {row : ObjRow} {x : Session} {s : State} (hindex : key / 256 = 0x20B0)
    (hrow : objRow 0x20B0 (key % 256) = some row) (hacc : row.acc ≠ .ro) (hlen : row.ty.lengthOk len = true)
    (hi : indexExists key s = true) (hr : 2 ≤ x.role) (he : x.expert = true) : writeChecks x key len s = .ok row := by
  have hcap : isCapIndex 0x20B0 = false := by decide
  have hfind : findRow key s = .ok row := by
    simp only [findRow, hi, hindex, hcap, hrow, Bool.not_true, Bool.false_eq_true, ↓reduceIte]
  have hcert : key ≠ K.secCertMode := by unfold K.secCertMode; omega
  have hrole : roleOk x.role key row s = true := by
    simp only [roleOk, writeRole, hindex, ↓reduceIte, hr, hcert, decide_true, decide_false, Bool.and_false,
      Bool.not_false, Bool.and_self]
  simp only [writeChecks, hfind, bind, Except.bind, hrole, hacc, he, hlen, Bool.not_true, Bool.false_eq_true, and_false,
    ↓reduceIte]

/-- The row of MC_PATCH_STAGE (R184). -/
def mcPatchStageRow : ObjRow := ⟨0x20B0, 1, 0x02, 1, .blob 1 131072, .wo, 1, [], 0⟩

/-- The row of MC_PATCH_CMD (R184). -/
def mcPatchCmdRow : ObjRow := ⟨0x20B0, 1, 0x03, 1, .u8, .wo, 1, [], 0⟩

/-- A write of MC_PATCH_STAGE of 1 to 131,072 bytes comes to `patchStage`. -/
theorem writesBy_patchStage {p : Bytes} (h1 : 1 ≤ p.length) (h2 : p.length ≤ 131072) :
    WritesBy (.mcPatchStageWrite · p) K.mcPatchStage p 2 true (patchStage p) := by
  refine ⟨fun _ _ => rfl, fun x s hi hr he => ?_⟩
  have hlen : (ObjTy.blob 1 131072).lengthOk p.length = true := by simp [ObjTy.lengthOk, h1, h2]
  have checks := writeChecks_patch (x := x) (key := K.mcPatchStage) (row := mcPatchStageRow) rfl (by decide)
    (by decide) hlen hi hr (he rfl)
  rw [writeObj, if_neg (by decide), if_neg (by decide), checks]
  rfl

/-- A write of MC_PATCH_CMD comes to `patchCommand` of its byte. -/
theorem writesBy_patchCommand {c : Req → Instr} {v : Byte}
    (hc : ∀ r s, exec (c r) s = .next (hostWrite r K.mcPatchCmd [v] s)) :
    WritesBy c K.mcPatchCmd [v] 2 true (patchCommand v.toNat) := by
  refine ⟨hc, fun x s hi hr he => ?_⟩
  have checks := writeChecks_patch (x := x) (key := K.mcPatchCmd) (len := 1) (row := mcPatchCmdRow) rfl (by decide)
    (by decide) (by decide) hi hr (he rfl)
  rw [writeObj, if_neg (by decide), if_neg (by decide), List.length_singleton, checks]
  rfl

/-! ### Staging and the commands (R181, R182) -/

section
variable {s : State} {p : Bytes}

theorem patchStage_of_free (h : rd K.mcPatchStatus s ≠ 2 ∧ rd K.mcPatchStatus s ≠ 4) :
    patchStage p s = done (wr K.mcPatchStatus 1 { s with patch := { s.patch with stage := p } }) := by
  simp [patchStage, need, h]

theorem patchStage_of_busy (h : rd K.mcPatchStatus s = 2 ∨ rd K.mcPatchStatus s = 4) :
    patchStage p s = refuse Code.state s := by
  rcases h with h | h <;> simp [patchStage, need, h]

theorem patchCommand_verify (h : rd K.mcPatchStatus s = 1 ∨ rd K.mcPatchStatus s = 3 ∨ 0x10 ≤ rd K.mcPatchStatus s) :
    patchCommand 1 s = done (wr K.mcPatchStatus 2 s) := by
  simp only [patchCommand, need, ← Bool.decide_or, or_assoc, h, decide_true, if_true]

theorem patchCommand_verify_refused (h : rd K.mcPatchStatus s = 0 ∨ rd K.mcPatchStatus s = 2 ∨ rd K.mcPatchStatus s = 4 ∨
    rd K.mcPatchStatus s = 5) : patchCommand 1 s = refuse Code.state s := by
  rcases h with h | h | h | h <;> simp [patchCommand, need, h]

/-- When APPLY may begin (R182). -/
theorem applyAllowed_iff : applyAllowed s = true ↔
    rd K.mcPatchStatus s = 3 ∧ ∀ g, g < 16 → busyState (runState g s) = false ∧ rd (K.runArmBusy g) s = 0 := by
  simp [applyAllowed]

theorem patchCommand_apply (h : applyAllowed s = true) : patchCommand 2 s = done (wr K.mcPatchStatus 4 s) := by
  simp [patchCommand, need, h]

theorem patchCommand_apply_refused (h : ¬ applyAllowed s = true) : patchCommand 2 s = refuse Code.state s := by
  simp [patchCommand, need, h]

theorem patchCommand_discard (h : rd K.mcPatchStatus s ≠ 4 ∧ rd K.mcPatchStatus s ≠ 5) :
    patchCommand 3 s = done (wr K.mcPatchStatus 0 { s with patch := { s.patch with stage := [] } }) := by
  simp [patchCommand, need, h]

theorem patchCommand_discard_refused (h : rd K.mcPatchStatus s = 4 ∨ rd K.mcPatchStatus s = 5) :
    patchCommand 3 s = refuse Code.state s := by
  rcases h with h | h <;> simp [patchCommand, need, h]

end

/-! ### VERIFY ends (R181) -/

section
variable {b key : Bytes} {stepping version level floor : Nat} {unsigned : Bool}

theorem patchFails_format (hf : patchFormat b = false) :
    patchFails b key stepping version level floor unsigned = 0x10 := by
  simp only [patchFails, hf, Bool.not_false, if_true]

theorem patchFails_stepping (hf : patchFormat b = true) (hs : leAt 5 1 b ≠ stepping) :
    patchFails b key stepping version level floor unsigned = 0x11 := by
  rw [patchFails, hf, if_neg (by decide), if_pos hs]

theorem patchFails_family (hf : patchFormat b = true) (hs : leAt 5 1 b = stepping)
    (hm : ¬ (leAt 6 1 b = version / 2 ^ 24 % 256 ∧ leAt 7 1 b = version / 2 ^ 16 % 256)) :
    patchFails b key stepping version level floor unsigned = 0x12 := by
  rw [patchFails, hf, if_neg (by decide), if_neg (Decidable.not_not.mpr hs),
    if_pos (Decidable.not_and_iff_not_or_not.mp hm)]

variable (hf : patchFormat b = true) (hs : leAt 5 1 b = stepping)
  (hm : leAt 6 1 b = version / 2 ^ 24 % 256 ∧ leAt 7 1 b = version / 2 ^ 16 % 256)
include hf hs hm

/-- An image of this stepping and of the base image's version is judged by its level first. -/
theorem patchFails_of_family : patchFails b key stepping version level floor unsigned =
    if leAt 8 1 b ≤ level ∨ leAt 8 1 b < floor then 0x13
    else if leAt 20 4 b ≠ crc32c (slice 64 (patchBody b) b) then 0x14
    else if !unsigned && !Config.ecdsaVerify key (b.take (64 + patchBody b)) (b.drop (64 + patchBody b)) then 0x15
    else 0 := by
  rw [patchFails, hf, if_neg (by decide), if_neg (Decidable.not_not.mpr hs),
    if_neg (not_or.mpr (hm.imp Decidable.not_not.mpr Decidable.not_not.mpr))]

theorem patchFails_level (hl : leAt 8 1 b ≤ level ∨ leAt 8 1 b < floor) :
    patchFails b key stepping version level floor unsigned = 0x13 := by
  rw [patchFails_of_family hf hs hm, if_pos hl]

variable (hl : ¬ (leAt 8 1 b ≤ level ∨ leAt 8 1 b < floor))
include hl

theorem patchFails_crc (hc : leAt 20 4 b ≠ crc32c (slice 64 (patchBody b) b)) :
    patchFails b key stepping version level floor unsigned = 0x14 := by
  rw [patchFails_of_family hf hs hm, if_neg hl, if_pos hc]

theorem patchFails_of_crc (hc : leAt 20 4 b = crc32c (slice 64 (patchBody b) b)) :
    patchFails b key stepping version level floor unsigned = if unsigned = true ∨
      Config.ecdsaVerify key (b.take (64 + patchBody b)) (b.drop (64 + patchBody b)) = true then 0 else 0x15 := by
  rw [patchFails_of_family hf hs hm, if_neg hl, if_neg (Decidable.not_not.mpr hc)]
  cases unsigned <;>
    cases Config.ecdsaVerify key (b.take (64 + patchBody b)) (b.drop (64 + patchBody b)) <;> rfl

end

/-- With a patch being verified, its end notes what VERIFY finds, and whether that is with the signature. -/
theorem reaches_patchVerifyComplete {s : State} {n : Nat} (h : rd K.mcPatchStatus s = 2) (hn : verifyResult s = n) :
    Reaches .patchVerifyComplete s (fun t => rd K.mcPatchStatus t = (if n = 0 then 3 else n) ∧
      OnlyObjs [K.mcPatchStatus] { s with patch := { s.patch with signed := !s.patch.diagNext } } t) := by
  refine ⟨_, congrArg Host.Outcome.next (if_neg (Decidable.not_not.mpr h)), ?_, rfl, (rd_of_objs_wr rfl).2⟩
  rw [rd_wr_self, hn]

/-! ### APPLY ends (R182) -/

/-- The master image written into the stores of a group that is not fenced. -/
def takeMaster (g : Nat) (s : State) : State := if fenced g s then s else writeStores g s

/-- Writing stores changes the stores alone. -/
theorem forEach_takeMaster_eq (l : List Nat) (s : State) : forEach l takeMaster s =
    { s with patch := { s.patch with stores := (forEach l takeMaster s).patch.stores } } := by
  have keeps : ∀ g u, ({ takeMaster g u with patch := { (takeMaster g u).patch with stores := [] } } : State) =
      { u with patch := { u.patch with stores := [] } } := by
    intro g u; unfold takeMaster; split <;> rfl
  have rest := forEach_keeps s (fun u => { u with patch := { u.patch with stores := [] } }) takeMaster keeps l
  exact congrArg (fun u : State => { u with patch := { u.patch with stores := (forEach l takeMaster s).patch.stores } }) rest

/-- What one group's write does to the stores of any group. -/
theorem stores_takeMaster (g h : Nat) (s : State) : Tab.get [] g (takeMaster h s).patch.stores =
    if g = h ∧ fenced h s = false then s.patch.master else Tab.get [] g s.patch.stores := by
  unfold takeMaster
  cases fenced h s
  · simp [writeStores, Tab.get_set]
  · simp

/-- Each group of a list that is not fenced holds the master image, every other group what it held. -/
theorem stores_forEach_takeMaster (g : Nat) (l : List Nat) (s : State) :
    Tab.get [] g (forEach l takeMaster s).patch.stores =
      if g ∈ l ∧ fenced g s = false then s.patch.master else Tab.get [] g s.patch.stores := by
  induction l generalizing s with
  | nil => simp
  | cons h l ih =>
    have hrest : takeMaster h s = { s with patch := { s.patch with stores := (takeMaster h s).patch.stores } } :=
      forEach_takeMaster_eq [h] s
    have hfenced : fenced g (takeMaster h s) = fenced g s := by rw [hrest]; rfl
    have hmaster : (takeMaster h s).patch.master = s.patch.master := by rw [hrest]
    rw [forEach_cons, ih, hfenced, hmaster, stores_takeMaster]
    by_cases hg : g = h
    · subst hg; cases fenced g s <;> simp
    · simp [hg]

/-- A master image in force: its CRC and version, and the stores of the groups that are not fenced (R182). -/
theorem masterInForce_eq (master : Bytes) (version : Nat) (s : State) : ∃ stores,
    masterInForce master version s =
      { s with objs := (wr K.mcImageCrc (crc32c master) (wr K.mcodeVersion version s)).objs
               patch := { s.patch with master := master, stores := stores } } ∧
    ∀ g, g < 16 → Tab.get [] g stores = if fenced g s then Tab.get [] g s.patch.stores else master := by
  let u : State := { s with patch := { s.patch with master := master } }
  have written : masterInForce master version s =
      wrs [(K.mcodeVersion, version), (K.mcImageCrc, crc32c master)] (forEach (List.range 16) takeMaster u) := rfl
  refine ⟨(forEach (List.range 16) takeMaster u).patch.stores, ?_, fun g hg => ?_⟩
  · rw [written, forEach_takeMaster_eq]
    rfl
  · have hfenced : fenced g u = fenced g s := rfl
    rw [stores_forEach_takeMaster, hfenced]
    cases fenced g s <;> simp [u, hg]

/-- One byte reads below 256. -/
theorem leAt_one_lt (o : Nat) (b : Bytes) : leAt o 1 b < 256 := by
  unfold leAt slice
  cases b.drop o with
  | nil => decide
  | cons x _ => simpa [leNat] using x.isLt

/-! #### The version word (R183): base image, level and AUTH -/

section
variable (base level : Nat) (auth : Bool)

theorem versionWord_family (h : level < 256) : versionWord base level auth / 2 ^ 16 = base / 2 ^ 16 := by
  unfold versionWord; split <;> omega

theorem versionWord_level (h : level < 256) : versionWord base level auth / 256 % 256 = level := by
  unfold versionWord; split <;> omega

theorem versionWord_auth : (versionWord base level auth).testBit 0 = auth := by
  cases auth <;> simp [versionWord, Nat.testBit_zero] <;> omega

end

/-! #### The event -/

/-- The version word that APPLY leaves (R183). -/
def appliedVersion (s : State) : Nat :=
  versionWord (rd K.mcodeVersion s) (leAt 8 1 s.patch.stage)
    ((rd K.mcodeVersion s).testBit 0 && s.patch.signed && !s.patch.diagNext)

/-- What the objects read that APPLY writes. -/
theorem rd_applied (s : State) (version crc : Nat) :
    let u := wr K.mcPatchStatus 5 (wr K.mcImageCrc crc (wr K.mcodeVersion version s))
    rd K.mcodeVersion u = version ∧ rd K.mcImageCrc u = crc ∧ rd K.mcPatchStatus u = 5 ∧
    ObjsBut [K.mcodeVersion, K.mcImageCrc, K.mcPatchStatus] s u := by
  refine ⟨?_, ?_, rd_wr_self .., fun j hj => ?_⟩
  · rw [rd_wr_of_ne _ (by decide), rd_wr_of_ne _ (by decide), rd_wr_self]
  · rw [rd_wr_of_ne _ (by decide), rd_wr_self]
  · simp only [List.mem_cons, List.not_mem_nil, or_false, not_or] at hj
    obtain ⟨hversion, hcrc, hstatus⟩ := hj
    rw [rd_wr_of_ne _ hstatus, rd_wr_of_ne _ hcrc, rd_wr_of_ne _ hversion]

/-- What the end of APPLY builds and writes (R182), where `l` are the records of the staged image. -/
theorem exec_patchApplyComplete {l : List (Nat × Bytes)} {s : State} (h : rd K.mcPatchStatus s = 4)
    (hl : patchRecords (leAt 12 4 s.patch.stage) (slice 64 (patchBody s.patch.stage) s.patch.stage) = some l) :
    ∃ stores, exec .patchApplyComplete s = .next
      { s with objs := (wr K.mcPatchStatus 5 (wr K.mcImageCrc (crc32c (buildMaster s.patch.base l))
                          (wr K.mcodeVersion (appliedVersion s) s))).objs
               patch := { s.patch with master := buildMaster s.patch.base l, stores := stores, diagNext := false } } ∧
      ∀ g, g < 16 → Tab.get [] g stores =
        if fenced g s then Tab.get [] g s.patch.stores else buildMaster s.patch.base l := by
  obtain ⟨stores, written, each⟩ := masterInForce_eq (buildMaster s.patch.base l) (appliedVersion s) s
  have event : exec .patchApplyComplete s = execPatchApplyComplete s := rfl
  refine ⟨stores, ?_, each⟩
  rw [event, execPatchApplyComplete, if_neg (Decidable.not_not.mpr h)]
  simp only [hl, Option.getD_some]
  rw [← appliedVersion, written]
  rfl

/-! ### The obligation -/

/-- Settles O23: each request of the procedure is a write that its object's rule answers, VERIFY's end notes the first
failure of R181, and APPLY's end writes the master image into every group that is not fenced. -/
theorem patchProcedure : Obligations.PatchProcedure := by
  unfold Obligations.PatchProcedure
  refine ⟨fun p h1 h2 => ⟨?stage, ?stageRefused⟩, ?verify, ?verifyRefused, ?apply, ?applyRefused, ?discard,
    ?discardRefused, ?found, ?applied, fun s => ⟨?idleVerify, ?idleApply⟩⟩
  case stage => exact (writesBy_patchStage h1 h2).hostStages fun _ _ _ h => patchStage_of_free h
  case stageRefused => exact (writesBy_patchStage h1 h2).hostRefuses (by decide) fun _ _ _ h => patchStage_of_busy h
  case verify => exact (writesBy_patchCommand fun _ _ => rfl).hostSets fun _ _ _ h => patchCommand_verify h
  case verifyRefused =>
    exact (writesBy_patchCommand fun _ _ => rfl).hostRefuses (by decide) fun _ _ _ h => patchCommand_verify_refused h
  case apply =>
    exact (writesBy_patchCommand fun _ _ => rfl).hostSets fun _ _ _ h => patchCommand_apply (applyAllowed_iff.mpr h)
  case applyRefused =>
    refine (writesBy_patchCommand fun _ _ => rfl).hostRefuses (by decide) fun _ _ _ h => patchCommand_apply_refused ?_
    intro allowed
    obtain ⟨verified, rest⟩ := applyAllowed_iff.mp allowed
    rcases h with h | ⟨g, hg, h | h⟩
    · exact h verified
    · exact Bool.false_ne_true ((rest g hg).1.symm.trans h)
    · exact h (rest g hg).2
  case discard => exact (writesBy_patchCommand fun _ _ => rfl).hostStages fun _ _ _ h => patchCommand_discard h
  case discardRefused =>
    exact (writesBy_patchCommand fun _ _ => rfl).hostRefuses (by decide) fun _ _ _ h => patchCommand_discard_refused h
  case found =>
    intro s h b body version found level low family signed
    have finds {n : Nat} (hn : verifyResult s = n) : found (if n = 0 then 3 else n) := reaches_patchVerifyComplete h hn
    refine ⟨fun hf => finds (patchFails_format hf), fun hf hs => finds (patchFails_stepping hf hs), fun hf hs =>
      ⟨fun hm => finds (patchFails_family hf hs hm), fun hm hl => finds (patchFails_level hf hs hm hl),
        fun hm hl hc => finds (patchFails_crc hf hs hm hl hc), fun hm hl hc => ?_⟩⟩
    have last : verifyResult s = if signed then 0 else 0x15 := patchFails_of_crc hf hs hm hl hc
    by_cases hsig : signed
    · rw [if_pos hsig]; exact finds (last.trans (if_pos hsig))
    · rw [if_neg hsig]; exact finds (last.trans (if_neg hsig))
  case applied =>
    intro l s h b hl
    obtain ⟨stores, event, each⟩ := exec_patchApplyComplete h hl
    obtain ⟨hversion, hcrc, hstatus, others⟩ := rd_applied s (appliedVersion s) (crc32c (buildMaster s.patch.base l))
    have hlevel : leAt 8 1 b < 256 := leAt_one_lt 8 b
    refine ⟨_, event, rfl, rfl, rfl, rfl, each, hcrc, ?_, ?_, ?_, hstatus, others, rfl⟩
    · exact (congrArg (· / 2 ^ 16) hversion).trans (versionWord_family _ _ _ hlevel)
    · exact (congrArg (· / 256 % 256) hversion).trans (versionWord_level _ _ _ hlevel)
    · exact (congrArg (Nat.testBit · 0) hversion).trans (versionWord_auth ..)
  case idleVerify => exact fun h => congrArg Host.Outcome.next (if_pos h)
  case idleApply => exact fun h => congrArg Host.Outcome.next (if_pos h)

end Sys2Proof.Machine
end
